-- ==== Sys2Proof/Word.lean ====
section
/-! DEFINITION. The words of the ZK64: registers are 32 bits wide (R16), scalar registers and
event counters 64 bits (R107, R213), memory is read and written in bytes, and a line is 64 bytes
(R190). Bit ranges are written [msb:lsb], both ends included (R14). -/

namespace Sys2Proof

abbrev Byte := BitVec 8
abbrev Word := BitVec 32
abbrev Dword := BitVec 64

/-- A virtual address of a partition's 56-bit range (R161). -/
abbrev Va := BitVec 56

end Sys2Proof
end

