-- ==== Sys2Proof/Machine/Map.lean ====
section
/-! DEFINITION. Sparse maps in one canonical form: keys rise strictly and no entry equals the value
that an unlisted key reads as, so that equal maps are equal data. `set` first drops every entry of
the key, so reading after writing needs no hypothesis on the map's form. -/

namespace Sys2Proof

abbrev SMap (α : Type) := List (Nat × α)

/-- The value at a key; an unlisted key reads as `d`. -/
def SMap.get {α : Type} (d : α) : SMap α → Nat → α
  | [], _ => d
  | (k, v) :: m, j => if j = k then v else SMap.get d m j

def SMap.erase {α : Type} (m : SMap α) (k : Nat) : SMap α :=
  m.filter fun e => !(e.1 == k)

def SMap.insert {α : Type} (k : Nat) (v : α) : SMap α → SMap α
  | [] => [(k, v)]
  | (j, w) :: m => if k < j then (k, v) :: (j, w) :: m else (j, w) :: SMap.insert k v m

/-- Writing the value that an unlisted key reads as removes the entry. -/
def SMap.set {α : Type} [DecidableEq α] (d : α) (m : SMap α) (k : Nat) (v : α) : SMap α :=
  if v = d then SMap.erase m k else SMap.insert k v (SMap.erase m k)

/-- The map of `f` over the keys below `n`. -/
def SMap.ofFn {α : Type} [DecidableEq α] (d : α) (n : Nat) (f : Nat → α) : SMap α :=
  (List.range n).filterMap fun i => if f i = d then none else some (i, f i)

/-- Keys below `n` take `f`'s values; every other key keeps its value. -/
def SMap.updFn {α : Type} [DecidableEq α] (d : α) (n : Nat) (f : Nat → α) (m : SMap α) : SMap α :=
  SMap.ofFn d n f ++ m.filter fun e => !(decide (e.1 < n))

def SMap.modify {α : Type} [DecidableEq α] (d : α) (m : SMap α) (k : Nat) (f : α → α) : SMap α :=
  SMap.set d m k (f (SMap.get d m k))

def SMap.sortedAbove {α : Type} : Option Nat → SMap α → Bool
  | _, [] => true
  | none, (k, _) :: m => SMap.sortedAbove (some k) m
  | some b, (k, _) :: m => decide (b < k) && SMap.sortedAbove (some k) m

/-- The canonical form: strictly rising keys, no entry equal to what an unlisted key reads as. -/
def SMap.wf {α : Type} [DecidableEq α] (d : α) (m : SMap α) : Bool :=
  SMap.sortedAbove none m && m.all fun e => !(decide (e.2 = d))

end Sys2Proof
end

