-- ==== Sys2Proof/Machine/Hash.lean ====
section
/-! DEFINITION. The digests and check codes the spec names (SHA-256, R261 and R295; CRC-8, R457;
CRC-32, R243; CRC-64, R390) and the counter-based generator of R91. -/

namespace Sys2Proof

/-- The `n` low bytes of a number, least significant first. -/
def leBytes (n x : Nat) : List Byte :=
  (List.range n).map fun i => BitVec.ofNat 8 (x / 256 ^ i)

def leNat : List Byte → Nat
  | [] => 0
  | b :: bs => b.toNat + 256 * leNat bs

def beNat (bs : List Byte) : Nat := leNat bs.reverse

/-! SHA-256 (FIPS 180-4). -/

def sha256K : List Word :=
  [0x428a2f98, 0x71374491, 0xb5c0fbcf, 0xe9b5dba5, 0x3956c25b, 0x59f111f1, 0x923f82a4, 0xab1c5ed5,
   0xd807aa98, 0x12835b01, 0x243185be, 0x550c7dc3, 0x72be5d74, 0x80deb1fe, 0x9bdc06a7, 0xc19bf174] ++
  [0xe49b69c1, 0xefbe4786, 0x0fc19dc6, 0x240ca1cc, 0x2de92c6f, 0x4a7484aa, 0x5cb0a9dc, 0x76f988da,
   0x983e5152, 0xa831c66d, 0xb00327c8, 0xbf597fc7, 0xc6e00bf3, 0xd5a79147, 0x06ca6351, 0x14292967] ++
  [0x27b70a85, 0x2e1b2138, 0x4d2c6dfc, 0x53380d13, 0x650a7354, 0x766a0abb, 0x81c2c92e, 0x92722c85,
   0xa2bfe8a1, 0xa81a664b, 0xc24b8b70, 0xc76c51a3, 0xd192e819, 0xd6990624, 0xf40e3585, 0x106aa070] ++
  [0x19a4c116, 0x1e376c08, 0x2748774c, 0x34b0bcb5, 0x391c0cb3, 0x4ed8aa4a, 0x5b9cca4f, 0x682e6ff3,
   0x748f82ee, 0x78a5636f, 0x84c87814, 0x8cc70208, 0x90befffa, 0xa4506ceb, 0xbef9a3f7, 0xc67178f2]

def sha256Init : List Word :=
  [0x6a09e667, 0xbb67ae85, 0x3c6ef372, 0xa54ff53a, 0x510e527f, 0x9b05688c, 0x1f83d9ab, 0x5be0cd19]

/-- Exclusive or of a word's right rotations. -/
def shaRots (rs : List Nat) (x : Word) : Word := rs.foldl (fun acc r => acc ^^^ x.rotateRight r) 0

/-- Bit by bit, `x` where the selector has a one and `y` elsewhere. -/
def shaPick (sel x y : Word) : Word := y ^^^ (sel &&& (x ^^^ y))

/-- The working variables A to H, the first four and the last four. -/
structure ShaRegs where
  top : Vector Word 4
  low : Vector Word 4
  deriving DecidableEq, Repr

/-- A round with its constant and message word. The majority of three bits is the third where the first
two differ. -/
def shaRound (r : ShaRegs) (k m : Word) : ShaRegs :=
  let p := r.top
  let q := r.low
  let push := q[3] + k + m + shaRots [6, 11, 25] q[0] + shaPick q[0] q[1] q[2]
  let head := push + shaRots [2, 13, 22] p[0] + shaPick (p[0] ^^^ p[1]) p[2] p[0]
  { top := #v[head, p[0], p[1], p[2]], low := #v[p[3] + push, q[0], q[1], q[2]] }

/-- The word that enters the window of the sixteen latest message words, oldest first. -/
def shaNext (win : List Word) : Word :=
  let at_ := fun i => win.getD i 0
  shaRots [17, 19] (at_ 14) ^^^ (at_ 14 >>> 10)
    |> (· + (shaRots [7, 18] (at_ 1) ^^^ (at_ 1 >>> 3)))
    |> (· + at_ 9)
    |> (· + at_ 0)

/-- Runs the rounds over a message block, whose window moves by one word a round. -/
def shaRounds : List Word → List Word → ShaRegs → ShaRegs
  | [], _, r => r
  | k :: ks, win, r => shaRounds ks (win.drop 1 ++ [shaNext win]) (shaRound r k (win.getD 0 0))

def shaBlock (h block : List Word) : List Word :=
  let at_ := fun i => h.getD i 0
  let r := shaRounds sha256K block
    { top := #v[at_ 0, at_ 1, at_ 2, at_ 3], low := #v[at_ 4, at_ 5, at_ 6, at_ 7] }
  List.zipWith (· + ·) h (r.top.toList ++ r.low.toList)

def shaPad (n : Nat) : List Byte :=
  let z := (119 - n % 64) % 64
  [0x80] ++ List.replicate z 0 ++ (leBytes 8 (8 * n)).reverse

/-- The least number of pieces of `b` that hold `a`. -/
def ceilDiv (a b : Nat) : Nat := (a + b - 1) / b

/-- Cut a list into pieces of `k`; `fuel` bounds their number. -/
def chunksOf {α : Type} (k : Nat) : Nat → List α → List (List α)
  | 0, _ => []
  | fuel + 1, xs => if xs.isEmpty then [] else xs.take k :: chunksOf k fuel (xs.drop k)

def sha256 (msg : List Byte) : List Byte :=
  let bytes := msg ++ shaPad msg.length
  let words := (chunksOf 4 bytes.length bytes).map fun b => BitVec.ofNat 32 (beNat b)
  ((chunksOf 16 words.length words).foldl shaBlock sha256Init).flatMap fun w =>
    (leBytes 4 w.toNat).reverse

/-- The first 8 bytes of a digest as a little-endian number (R261, R272, R295). -/
def sha256Key (msg : List Byte) : Dword := BitVec.ofNat 64 (leNat ((sha256 msg).take 8))

/-! Check codes. -/

/-- One bit of a most-significant-first cyclic check of `n` bits, without reflection. -/
def crcBit (n poly acc : Nat) : Nat :=
  if acc / 2 ^ (n - 1) % 2 = 1 then (acc * 2 % 2 ^ n) ^^^ poly else acc * 2 % 2 ^ n

def crcByte (n poly acc : Nat) (b : Byte) : Nat :=
  (List.range 8).foldl (fun a _ => crcBit n poly a) (acc ^^^ (b.toNat * 2 ^ (n - 8)))

/-- CRC-8, polynomial 0x07, initial value 0 (R457). -/
def crc8 (bs : List Byte) : Nat := bs.foldl (crcByte 8 0x07) 0

/-- CRC-64, ECMA-182 polynomial, initial value 0, no reflection, no final inversion (R390). -/
def crc64 (bs : List Byte) : Dword :=
  BitVec.ofNat 64 (bs.foldl (crcByte 64 0x42F0E1EBA9EA3693) 0)

def crc32Bit (acc : Nat) : Nat := if acc % 2 = 1 then (acc / 2) ^^^ 0xEDB88320 else acc / 2

/-- CRC-32 of IEEE 802.3 (reflected, initial value and final inversion all ones). -/
def crc32 (bs : List Byte) : Word :=
  BitVec.ofNat 32 <| 0xFFFFFFFF ^^^ bs.foldl
    (fun a b => (List.range 8).foldl (fun x _ => crc32Bit x) (a ^^^ b.toNat)) 0xFFFFFFFF

/-! Philox-4×32-10 (R91). -/

structure Philox where
  c0 : Nat
  c1 : Nat
  c2 : Nat
  c3 : Nat
  k0 : Nat
  k1 : Nat
  deriving DecidableEq, Repr

def philoxRound (p : Philox) : Philox :=
  let a := 0xD2511F53 * p.c0
  let b := 0xCD9E8D57 * p.c2
  { c0 := (b / 2 ^ 32) ^^^ p.c1 ^^^ p.k0, c1 := b % 2 ^ 32
    c2 := (a / 2 ^ 32) ^^^ p.c3 ^^^ p.k1, c3 := a % 2 ^ 32
    k0 := (p.k0 + 0x9E3779B9) % 2 ^ 32, k1 := (p.k1 + 0xBB67AE85) % 2 ^ 32 }

/-- Output word 0: key = the seed's halves, counter = (index low, index high, `c2`, `c3`). -/
def philox (seed : Dword) (index : Nat) (c2 c3 : Nat) : Nat :=
  ((List.range 10).foldl (fun p _ => philoxRound p)
    { c0 := index % 2 ^ 32, c1 := index / 2 ^ 32 % 2 ^ 32, c2 := c2 % 2 ^ 32, c3 := c3
      k0 := seed.toNat % 2 ^ 32, k1 := seed.toNat / 2 ^ 32 }).c0

/-- The draw of a conversion (R91): tensor id in word 2, 0x0000_0001 in word 3. -/
def convDraw (seed : Dword) (tensor index : Nat) : Nat := philox seed index tensor 1

end Sys2Proof
end

