-- ==== Sys2Proof/Config.lean ====
section
/-! DEFINITION. What the spec leaves open: free values, each an opaque constant that no proof can
look into. Nothing here has a body, so a statement holds whatever the hardware's value is. -/

namespace Sys2Proof

/-! The functions whose results R97 bounds but does not fix, outside the exact cases of R98: the model
holds each to its bound (Machine/Trans.lean).
Free values of the operand (MOD_TRANS_IMPL 0x01). Log entry 1. -/

opaque Config.exp2 : Word → Word
opaque Config.log2 : Word → Word
opaque Config.rsqrt : Word → Word
opaque Config.rcp : Word → Word
opaque Config.tanh : Word → Word
opaque Config.sigmoid : Word → Word
opaque Config.gelu : Word → Word

/-- AES-256-XTS of one 64-byte line under the key pair with a serial, at the line's address as tweak
(R199): a permutation of the line's bits, whose inverse is the decryption. The keys are secret. Log
entry 28. -/
opaque Config.xts : Nat → Nat → Equiv.Perm (BitVec 512)

/-- The byte at a key of contents that the spec calls undefined; the first argument tells one
occasion from another (State.free). Log entry 2. -/
opaque Config.freeByte : Nat → Nat → Byte

/-- A free number of the occasion, for a value the spec leaves open. Log entry 2. -/
opaque Config.freeNat : Nat → Nat

/-- A free choice of the occasion for a key: which of two things that the spec allows is used. Log
entry 2. -/
opaque Config.freePick : Nat → Nat → Nat

/-- The dequantisation code of a row (false) or column of a bank beyond the extents that ZERO latched, on
an occasion: the spec gives none. Log entry 44. -/
opaque Config.openCode : Nat → Bool → Nat → BitVec 8

/-- ATTEND's open values (R84, R305), functions of the query's bytes alone, of the format word and of
places: the scale code of a block of the query; the draw of P for key `j` of a row at a position; the
stored scale code of P for block `b` of key block `m`. Log entry 24. -/
opaque Config.queryCode : List Byte → BitVec 16 → Nat → BitVec 8
opaque Config.probDraw : List Byte → BitVec 16 → Nat → Nat → BitVec 32
opaque Config.probCode : List Byte → BitVec 16 → Nat → Nat → Nat → BitVec 8

/-- A collective flit's payload names a member rank or chunk number outside its collective, and a
management or link-control payload is malformed (R256): the spec does not give these formats. Log
entry 20. -/
opaque Config.badMember : List Byte → Bool
opaque Config.badControl : List Byte → Bool

/-- HSS verification under a public key, of a message and a signature (R435, R442, R499): a standard of
its own, not described by the spec. Log entry 28. -/
opaque Config.hssVerify : List Byte → List Byte → List Byte → Bool

/-! The parts of an HSS signature of the module's identity key that hang on its private seed, which is
fused and unknown (R435), byte by byte. Log entry 28. -/

/-- Randomiser, one-time signature and path of top-level leaf `t` over the lower tree's public key. -/
opaque Config.hssTop : Nat → Nat → Byte
/-- Identifier and root of the lower tree that top-level leaf `t` signs. -/
opaque Config.hssTree : Nat → Nat → Byte
/-- Randomiser, one-time signature and path of leaf index `q` over a message. -/
opaque Config.hssLow : Nat → List Byte → Nat → Byte

/-- The certificate chain, written at manufacture (R438), and its length. Log entry 28. -/
opaque Config.cert : Nat → Byte
opaque Config.certLen : BitVec 16

/-- The provisioned ID that the I3C target derives from the serial number (R497). Log entry 28. -/
opaque Config.provisionedId : BitVec 48 → BitVec 48

end Sys2Proof
end

