-- ==== Sys2Proof/Machine/Float.lean ====
section
/-! DEFINITION. Formats, exact values and the single rounding of each operation (R64 to R69, R82,
R88 to R98). A value is decoded to an exact dyadic number, the operation is carried out exactly on
integers, and the result is rounded once. -/

namespace Sys2Proof

/-- An exact value: NaN, an infinity, or (−1)^neg · m · 2^e. -/
inductive FVal where
  | nan
  | inf (neg : Bool)
  | fin (neg : Bool) (m : Nat) (e : Int)
  deriving DecidableEq, Repr

/-- A floating format of R64: mantissa bits, bias, width, and which encodings are special. -/
structure FFmt where
  mant : Nat
  bias : Nat
  width : Nat
  hasInf : Bool
  maxMag : Nat       -- magnitude bits of the largest finite value
  nanMag : Nat       -- magnitude bits from which on an encoding is a NaN (0 = the format has none)
  canon : Nat        -- the bits a NaN converts to (R89, R96)
  deriving DecidableEq, Repr

def fp32 : FFmt := ⟨23, 127, 32, true, 0x7F7FFFFF, 0x7F800001, 0x7FC00000⟩
def bf16 : FFmt := ⟨7, 127, 16, true, 0x7F7F, 0x7F81, 0x7FC0⟩
def fp16 : FFmt := ⟨10, 15, 16, true, 0x7BFF, 0x7C01, 0x7E00⟩
def e5m2 : FFmt := ⟨2, 15, 8, true, 0x7B, 0x7D, 0x7E⟩
def e4m3 : FFmt := ⟨3, 7, 8, false, 0x7E, 0x7F, 0x7F⟩
def e3m2 : FFmt := ⟨2, 3, 6, false, 0x1F, 0, 0⟩
def e2m3 : FFmt := ⟨3, 1, 6, false, 0x1F, 0, 0⟩
def e2m1 : FFmt := ⟨1, 1, 4, false, 0x7, 0, 0⟩

/-- The floating formats by their code (R64); `none` for the integer and the reserved codes. -/
def ffmtOf : Nat → Option FFmt
  | 0 => some fp32 | 1 => some bf16 | 2 => some fp16 | 3 => some e5m2
  | 4 => some e4m3 | 5 => some e3m2 | 6 => some e2m3 | 7 => some e2m1 | _ => none

/-- Bits of one element of each format code (R64); 0 for a reserved code. -/
def fmtBits : Nat → Nat
  | 0 => 32 | 1 => 16 | 2 => 16 | 3 => 8 | 4 => 8 | 5 => 6 | 6 => 6 | 7 => 4
  | 8 => 8 | 9 => 4 | 10 => 8 | 11 => 32 | _ => 0

/-- The array integer formats INT8, INT4 and UINT8. -/
def fmtIsInt (c : Nat) : Bool := c == 8 || c == 9 || c == 10

/-- A narrow format is one of 8 bits or fewer, codes 0x3 to 0xA (R66). -/
def fmtNarrow (c : Nat) : Bool := decide (3 ≤ c ∧ c ≤ 10)

/-- The exponent of the format's largest finite value (R73). -/
def fmtEmax : Nat → Int
  | 3 => 15 | 4 => 8 | 5 => 4 | 6 => 2 | 7 => 2 | 9 => 2 | 8 => 6 | 10 => 7 | _ => 0

/-- Least and greatest value of the integer formats (R64). -/
def intRange : Nat → Int × Int
  | 8 => (-128, 127) | 9 => (-8, 7) | 10 => (0, 255) | _ => (-2147483648, 2147483647)

/-- The operand format word (R67). -/
structure FmtWord where
  fmt : Nat
  blk : Nat
  dir : Nat
  rnd : Nat
  ovfInf : Bool
  scaleSrc : Bool
  rsv : Nat
  deriving DecidableEq, Repr

def FmtWord.of (w : BitVec 16) : FmtWord :=
  let n := w.toNat
  { fmt := n % 16, blk := n / 16 % 16, dir := n / 256 % 4, rnd := n / 1024 % 4
    ovfInf := n / 4096 % 2 == 1, scaleSrc := n / 8192 % 2 == 1, rsv := n / 16384 }

/-- A reserved format word: a reserved field value (R67) or a combination of R68. `src` marks a
source operand. -/
def FmtWord.reserved (f : FmtWord) (src : Bool) : Bool :=
  decide (12 ≤ f.fmt) || !(f.blk == 0 || decide (3 ≤ f.blk ∧ f.blk ≤ 8)) || f.dir == 3
  || decide (2 ≤ f.rnd) || f.rsv != 0
  || (f.blk == 0 && fmtNarrow f.fmt)
  || (f.blk != 0 && (f.fmt == 0 || f.fmt == 1 || f.fmt == 2 || f.fmt == 11))
  || (f.dir == 2 && f.blk != 6 && f.blk != 8)
  || (fmtIsInt f.fmt && f.dir != 1)
  || (f.blk == 0 && f.dir != 0)
  || (f.ovfInf && f.fmt != 3 && f.fmt != 2)
  || (src && f.rnd == 1)

/-- The exact value of a floating encoding (R64). -/
def FFmt.dec (f : FFmt) (bits : Nat) : FVal :=
  let neg := bits / 2 ^ (f.width - 1) % 2 == 1
  let mag := bits % 2 ^ (f.width - 1)
  let ex := mag / 2 ^ f.mant
  let ma := mag % 2 ^ f.mant
  if f.nanMag ≠ 0 ∧ f.nanMag ≤ mag then .nan
  else if f.hasInf ∧ f.maxMag < mag then .inf neg
  else if ex = 0 then .fin neg ma (1 - (f.bias : Int) - f.mant)
  else .fin neg (2 ^ f.mant + ma) ((ex : Int) - f.bias - f.mant)

/-- Two's-complement value of the low `n` bits. -/
def signedOf (n bits : Nat) : Int :=
  let b := bits % 2 ^ n
  if b < 2 ^ (n - 1) then (b : Int) else (b : Int) - ((2 ^ n : Nat) : Int)

def bitsOfInt (n : Nat) (x : Int) : Nat := (x % ((2 ^ n : Nat) : Int)).toNat

/-- The integer value of an INT8, INT4, UINT8 or INT32 element. -/
def intElem (c bits : Nat) : Int :=
  if c = 10 then (bits % 256 : Nat) else signedOf (fmtBits c) bits

def FVal.ofInt (x : Int) : FVal := .fin (decide (x < 0)) x.natAbs 0

/-- The exact value of an element of any format code. -/
def elemVal (c bits : Nat) : FVal :=
  match ffmtOf c with
  | some f => f.dec bits
  | none => FVal.ofInt (intElem c bits)

inductive Rnd where
  | even      -- to nearest, ties to even
  | away      -- to nearest, ties away from zero
  | stoch (r : Nat)   -- R93, with the draw r
  deriving DecidableEq, Repr

/-- `m · 2^e` in units of `2^q`, rounded as `rm` says (R88, R93). Stochastic rounding may raise a value
below half the smallest subnormal to it, as R93 says (DEDUCED, log entry 40). -/
def roundTo (rm : Rnd) (m : Nat) (e q : Int) : Nat :=
  if q ≤ e then m * 2 ^ (e - q).toNat
  else
    let s := (q - e).toNat
    let fl := m / 2 ^ s
    let rem := m % 2 ^ s
    match rm with
    | .even => if rem * 2 > 2 ^ s ∨ (rem * 2 = 2 ^ s ∧ fl % 2 = 1) then fl + 1 else fl
    | .away => if rem * 2 ≥ 2 ^ s then fl + 1 else fl
    | .stoch r => if 2 ^ 32 ≤ rem * 2 ^ 32 / 2 ^ s + r then fl + 1 else fl

/-- Floor of log2 of a nonzero magnitude `m · 2^e`. -/
def ilog2 (m : Nat) (e : Int) : Int := (m.log2 : Int) + e

/-- Round a value into a floating format: magnitude bits are `(q − qmin)·2^mant + n`, which is the
subnormal, the normal and the carried case at once. `sat` saturates an overflow (R89), otherwise it
becomes an infinity (R82, R90). -/
def FFmt.enc (f : FFmt) (rm : Rnd) (sat : Bool) (v : FVal) : Nat :=
  let sgn (neg : Bool) : Nat := if neg then 2 ^ (f.width - 1) else 0
  match v with
  | .nan => f.canon
  | .inf neg => sgn neg + (if f.hasInf then f.maxMag + 1 else f.maxMag)
  | .fin neg m e =>
    if m = 0 then sgn neg
    else
      let qmin : Int := 1 - (f.bias : Int) - f.mant
      let q := max (ilog2 m e - f.mant) qmin
      let mag := (q - qmin).toNat * 2 ^ f.mant + roundTo rm m e q
      if mag ≤ f.maxMag then sgn neg + mag
      else if sat then sgn neg + f.maxMag
      else sgn neg + f.maxMag + 1

def F32.dec (w : Word) : FVal := fp32.dec w.toNat
/-- One rounding to FP32, to nearest even; subnormals are kept, overflow gives ±Inf (R82). -/
def F32.rnd (v : FVal) : Word := BitVec.ofNat 32 (fp32.enc .even false v)

def F32.nan : Word := 0x7FC00000
def F32.one : Word := 0x3F800000
def F32.negInf : Word := 0xFF800000
def F32.posInf : Word := 0x7F800000

/-! Exact operations. A zero result of an addition is +0 unless both addends are −0. -/

def FVal.isNan : FVal → Bool | .nan => true | _ => false
def FVal.isInf : FVal → Bool | .inf _ => true | _ => false
def FVal.isZero : FVal → Bool | .fin _ 0 _ => true | _ => false
def FVal.sign : FVal → Bool | .nan => false | .inf n => n | .fin n _ _ => n

def FVal.neg : FVal → FVal
  | .nan => .nan | .inf n => .inf (!n) | .fin n m e => .fin (!n) m e

def FVal.abs : FVal → FVal
  | .nan => .nan | .inf _ => .inf false | .fin _ m e => .fin false m e

def signedMag (neg : Bool) (m : Nat) : Int := if neg then -(m : Int) else m

def FVal.add : FVal → FVal → FVal
  | .nan, _ => .nan
  | _, .nan => .nan
  | .inf a, .inf b => if a = b then .inf a else .nan
  | .inf a, _ => .inf a
  | _, .inf b => .inf b
  | .fin n1 m1 e1, .fin n2 m2 e2 =>
    if m1 = 0 ∧ m2 = 0 then .fin (n1 && n2) 0 0
    else
      let e := min e1 e2
      let x := signedMag n1 (m1 * 2 ^ (e1 - e).toNat) + signedMag n2 (m2 * 2 ^ (e2 - e).toNat)
      .fin (decide (x < 0)) x.natAbs e

def FVal.mul : FVal → FVal → FVal
  | .nan, _ => .nan
  | _, .nan => .nan
  | .inf a, .inf b => .inf (a != b)
  | .inf a, .fin b m _ => if m = 0 then .nan else .inf (a != b)
  | .fin a m _, .inf b => if m = 0 then .nan else .inf (a != b)
  | .fin n1 m1 e1, .fin n2 m2 e2 => .fin (n1 != n2) (m1 * m2) (e1 + e2)

/-- Multiply by `2^n`, exactly. -/
def FVal.scale (v : FVal) (n : Int) : FVal :=
  match v with
  | .fin s m e => .fin s m (e + n)
  | w => w

/-- A quotient with 64 bits more than its divisor and a sticky last bit: one rounding of it to FP32
is the correctly rounded quotient. -/
def FVal.div : FVal → FVal → FVal
  | .nan, _ => .nan
  | _, .nan => .nan
  | .inf _, .inf _ => .nan
  | .inf a, .fin b _ _ => .inf (a != b)
  | .fin a _ _, .inf b => .fin (a != b) 0 0
  | .fin n1 m1 e1, .fin n2 m2 e2 =>
    if m2 = 0 then (if m1 = 0 then .nan else .inf (n1 != n2))
    else if m1 = 0 then .fin (n1 != n2) 0 0
    else
      let k := 64 + m2.log2
      let q := m1 * 2 ^ k / m2
      let sticky := if m1 * 2 ^ k % m2 = 0 then 0 else 1
      .fin (n1 != n2) (2 * q + sticky) (e1 - e2 - k - 1)

/-- Integer square root, one bit of the root at a time. -/
def isqrt : Nat → Nat → Nat → Nat
  | 0, _, r => r
  | i + 1, x, r => isqrt i x (if (r + 2 ^ i) * (r + 2 ^ i) ≤ x then r + 2 ^ i else r)

/-- A root with more than 64 bits and a sticky last bit. −0 gives −0, a negative value NaN. -/
def FVal.sqrt : FVal → FVal
  | .nan => .nan
  | .inf n => if n then .nan else .inf false
  | .fin n m e =>
    if m = 0 then .fin n 0 0
    else if n then .nan
    else
      let k : Nat := if e % 2 = 0 then 130 else 131
      let x := m * 2 ^ k
      let r := isqrt (x.log2 / 2 + 1) x 0
      .fin false (2 * r + (if r * r = x then 0 else 1)) ((e - (k : Int)) / 2 - 1)

/-- Exact order of two values that are not NaN; +0 and −0 are equal. -/
def FVal.lt : FVal → FVal → Bool
  | .nan, _ => false
  | _, .nan => false
  | .inf a, .inf b => a && !b
  | .inf a, .fin _ _ _ => a
  | .fin _ _ _, .inf b => !b
  | .fin n1 m1 e1, .fin n2 m2 e2 =>
    let e := min e1 e2
    decide (signedMag n1 (m1 * 2 ^ (e1 - e).toNat) < signedMag n2 (m2 * 2 ^ (e2 - e).toNat))

def FVal.eqv (a b : FVal) : Bool :=
  !a.isNan && !b.isNan && !(FVal.lt a b) && !(FVal.lt b a)

/-! FP32 operations, each rounding once (R82). -/

def fadd (a b : Word) : Word := F32.rnd (FVal.add (F32.dec a) (F32.dec b))
def fsub (a b : Word) : Word := F32.rnd (FVal.add (F32.dec a) (F32.dec b).neg)
def fmul (a b : Word) : Word := F32.rnd (FVal.mul (F32.dec a) (F32.dec b))
def ffma (a b c : Word) : Word :=
  F32.rnd (FVal.add (FVal.mul (F32.dec a) (F32.dec b)) (F32.dec c))
def fdiv (a b : Word) : Word := F32.rnd (FVal.div (F32.dec a) (F32.dec b))
def fsqrt (a : Word) : Word := F32.rnd (FVal.sqrt (F32.dec a))
/-- `x · 2^n` with one rounding (R347). -/
def fscale2 (a : Word) (n : Int) : Word := F32.rnd ((F32.dec a).scale n)
def fneg (a : Word) : Word := F32.rnd (F32.dec a).neg
def fabs (a : Word) : Word := F32.rnd (F32.dec a).abs
def ffinite (a : Word) : Bool := match F32.dec a with | .fin _ _ _ => true | _ => false
def fnan (a : Word) : Bool := (F32.dec a).isNan
def fzero (a : Word) : Bool := (F32.dec a).isZero

/-- `a` is below `b` in the order of R82: exact, with −0 below +0. -/
def fbelow (a b : Word) : Bool :=
  FVal.lt (F32.dec a) (F32.dec b)
  || (fzero a && fzero b && (F32.dec a).sign && !(F32.dec b).sign)

/-- Minimum and maximum: NaN in, canonical NaN out; +0 is greater than −0 (R82). -/
def fmin (a b : Word) : Word :=
  if fnan a || fnan b then F32.nan else if fbelow b a then b else a
def fmax (a b : Word) : Word :=
  if fnan a || fnan b then F32.nan else if fbelow a b then b else a

/-- The conditions of VCMP: EQ, NE, LT, LE, GT, GE; with a NaN operand only NE is true. -/
def fcmp (cnd : Nat) (a b : Word) : Bool :=
  let x := F32.dec a
  let y := F32.dec b
  if x.isNan || y.isNan then cnd == 1
  else match cnd with
    | 0 => FVal.eqv x y
    | 1 => !(FVal.eqv x y)
    | 2 => FVal.lt x y
    | 3 => !(FVal.lt y x)
    | 4 => FVal.lt y x
    | _ => !(FVal.lt x y)

/-- The exact FP32 value of a small integer, rounded to nearest even beyond 24 bits. -/
def f32OfInt (x : Int) : Word := F32.rnd (FVal.ofInt x)

/-! Conversions (R88 to R90, R93). -/

/-- The default rounding of a conversion into a format code (R88). -/
def defaultRnd (c : Nat) : Rnd :=
  if c = 0 ∨ c = 1 ∨ c = 2 then .even else .away

/-- Round a finite value to an integer, ties away from zero. -/
def roundIntAway (n : Bool) (m : Nat) (e : Int) : Int := signedMag n (roundTo .away m e 0)

/-- Convert an exact value into format code `c` by rounding `rm`; `ovfInf` as R90. -/
def convertTo (c : Nat) (rm : Rnd) (ovfInf : Bool) (v : FVal) : Nat :=
  match ffmtOf c with
  | some f => f.enc rm (c != 0 && !ovfInf) v
  | none =>
    let (lo, hi) := intRange c
    bitsOfInt (fmtBits c) <|
      match v with
      | .nan => 0
      | .inf n => if n then lo else hi
      | .fin n m e => max lo (min hi (signedMag n (roundTo rm m e 0)))

/-- The conversion saturated: a finite value beyond the range after rounding, with no infinity asked
for (R89, counted in Soundings as SAT). -/
def convertSat (c : Nat) (rm : Rnd) (ovfInf : Bool) (v : FVal) : Bool :=
  match v with
  | .fin n m e =>
    match ffmtOf c with
    | some f =>
      m != 0 && !ovfInf && c != 0 &&
        (let qmin : Int := 1 - (f.bias : Int) - f.mant
         let q := max (ilog2 m e - f.mant) qmin
         decide (f.maxMag < (q - qmin).toNat * 2 ^ f.mant + roundTo rm m e q))
    | none =>
      let (lo, hi) := intRange c
      let x := signedMag n (roundTo rm m e 0)
      decide (x < lo ∨ hi < x)
  | _ => false

/-- `floor(log2 amax)` over the finite nonzero values of a block, `none` when there is none. -/
def blockExp (vs : List FVal) : Option Int :=
  vs.foldl (fun acc v => match v with
    | .fin _ m e => if m = 0 then acc else
        match acc with
        | none => some (ilog2 m e)
        | some x => some (max x (ilog2 m e))
    | _ => acc) none

/-- The derived scale code of a block (R73). -/
def scaleCode (c : Nat) (vs : List FVal) : Nat :=
  if vs.any FVal.isNan then 255
  else match blockExp vs with
    | none => 127
    | some x => (max 0 (min 254 (x - fmtEmax c + 127))).toNat

/-- One element of a block under scale code `code` (last lines of R73). -/
def convertScaled (c : Nat) (rm : Rnd) (ovfInf : Bool) (code : Nat) (v : FVal) : Nat :=
  if code = 255 then 0 else convertTo c rm ovfInf (v.scale (127 - (code : Int)))

/-- Widen an element with its scale code to an exact value (R69). -/
def widen (c bits code : Nat) : FVal :=
  if code = 255 then .nan else (elemVal c bits).scale ((code : Int) - 127)

/-- Dequantise an integer sum (R72). -/
def dequant (sum : Int) (ca cb : Nat) : Word :=
  if ca = 255 ∨ cb = 255 then F32.nan
  else F32.rnd ((FVal.ofInt sum).scale ((ca : Int) + cb - 254))

/-- A result of an array: a zero is +0 (R81). -/
def fposZero (a : Word) : Word := if fzero a then 0 else a

/-- An FP32 value written as it is, but for a NaN, which is canonical (R96). -/
def fcanon (a : Word) : Word := if fnan a then F32.nan else a

end Sys2Proof
end

