-- ==== Sys2Proof/Machine/Trans.lean ====
section
/-! DEFINITION. The transcendental and reciprocal functions: R98 fixes some results, and R97 bounds
every other one. A result outside R98 is a free value of `Config`, held to the bound by a reference
whose error is far below the distance between an FP32 value and a bound: no result that R97 allows
is left out, and none that it forbids is let in. Log entry 1. -/

namespace Sys2Proof

/-- The FP32 spacing at the magnitude of a value, as an exponent of 2 (R97). -/
def ulpExp (v : FVal) : Int :=
  match v with
  | .fin _ m e => if m = 0 then -149 else max (ilog2 m e - 23) (-149)
  | _ => -149

/-- `|r − v| ≤ n · 2^u`, exactly. -/
def FVal.within (r v : FVal) (n : Nat) (u : Int) : Bool :=
  match FVal.add r v.neg with
  | .fin _ m e => !(FVal.lt (.fin false n u) (.fin false m e))
  | _ => false

/-- The candidate when it lies within `n` spacings of the reference, else the reference rounded. -/
def boundedBy (n : Nat) (cand : Word) (ref : FVal) : Word :=
  if FVal.within (F32.dec cand) ref n (ulpExp ref) then cand else F32.rnd ref

/-- A quotient of more than 256 bits with a sticky last bit. -/
def FVal.wideDiv (a b : FVal) : FVal :=
  match a with
  | .fin n m e => FVal.div (.fin n (m * 2 ^ 256) (e - 256)) b
  | v => FVal.div v b

/-! References, in fixed point with 320 fraction bits. -/

def fixBits : Nat := 320

/-- ln 2 and 1/√(2π). -/
def ln2Fix : Nat := 0xb17217f7d1cf79abc9e3b39803f2f6af40f343267298b62d8a0d175b8baafa2be7b876206debac98
def gaussFix : Nat := 0x662114cf50d942343f2cf1402eae38bfd3829f30512706d8c0471b4802639d2e9df8ac55447d3db7

/-- A finite value in fixed point. -/
def fixOf (n : Bool) (m : Nat) (e : Int) : Int :=
  let k := e + fixBits
  signedMag n (if 0 ≤ k then m * 2 ^ k.toNat else m / 2 ^ (-k).toNat)

def FVal.ofFix (x : Int) : FVal := .fin (decide (x < 0)) x.natAbs (-(fixBits : Int))

/-- e^y for 0 ≤ y < 1, by its series. -/
def expFix (y : Nat) : Nat :=
  ((List.range 80).foldl (fun (a : Nat × Nat) k =>
    (a.1 + a.2, a.2 * y / 2 ^ fixBits / (k + 1))) (0, 2 ^ fixBits)).1

def exp2Ref (x : Int) : FVal :=
  let one : Int := 2 ^ fixBits
  .fin false (expFix ((x % one).toNat * ln2Fix / 2 ^ fixBits)) (x / one - fixBits)

/-- e^x. -/
def expRef (x : Int) : FVal :=
  .fin false (expFix (x % (ln2Fix : Int)).toNat) (x / (ln2Fix : Int) - fixBits)

/-- log2 of `m · 2^e`, from ln((1 + z)/(1 − z)) = 2 Σ z^(2i+1)/(2i+1) with the mantissa between 3/4
and 3/2. -/
def log2Ref (m : Nat) (e : Int) : FVal :=
  let one : Int := 2 ^ fixBits
  let a : Int := ((m * 2 ^ fixBits / 2 ^ m.log2 : Nat) : Int)
  let up := decide (3 * one ≤ 2 * a)
  let a := if up then a / 2 else a
  let k := ilog2 m e + (if up then 1 else 0)
  let z := (a - one) * one / (a + one)
  let s := ((List.range 70).foldl (fun (b : Int × Int) (i : Nat) =>
    (b.1 + b.2 / (2 * (i : Int) + 1), b.2 * z / one * z / one)) (0, z)).1
  FVal.ofFix (k * one + 2 * s * one / (ln2Fix : Int))

def FVal.one : FVal := .fin false 1 0

/-- 1/(1 + e^−x); beyond ±256 the result no longer moves in FP32. -/
def sigmoidRef (x : Int) : FVal :=
  let lim : Int := 256 * 2 ^ fixBits
  let x := max (-lim) (min lim x)
  if x < 0 then FVal.wideDiv (expRef x) (FVal.add FVal.one (expRef x))
  else FVal.wideDiv FVal.one (FVal.add FVal.one (expRef (-x)))

/-- tanh of a finite value: below 2⁻¹², x less its series x³·(105 − 42x² + 17x⁴)/315; else
(1 − e^−2a)/(1 + e^−2a). -/
def tanhRef (n : Bool) (m : Nat) (e : Int) : FVal :=
  if m = 0 then .fin n 0 0
  else if ilog2 m e < -12 then
    let x : FVal := .fin n m e
    let sq : FVal := .fin false (m * m) (2 * e)
    let q := FVal.add (FVal.ofInt (-42)) (FVal.mul (FVal.ofInt 17) sq)
    let p := FVal.add (FVal.ofInt 105) (FVal.mul sq q)
    FVal.add x (FVal.wideDiv (FVal.mul (FVal.mul x sq) p) (FVal.ofInt 315)).neg
  else
    let t := expRef (-(min (256 * 2 ^ fixBits) (2 * fixOf false m e)))
    let r := FVal.wideDiv (FVal.add FVal.one t.neg) (FVal.add FVal.one t)
    if n then r.neg else r

/-- x·Φ(x), with Φ by the series of the normal integral; below −16 it is a negative value smaller than
any FP32 value, above 16 it is as little below x. PRESUMED: the spec does not define GELU. -/
def geluRef (n : Bool) (m : Nat) (e : Int) : FVal :=
  let one : Int := 2 ^ fixBits
  let x := fixOf n m e
  if x < -16 * one then .fin true 1 (-(fixBits : Int))
  else if 16 * one < x then FVal.add (.fin n m e) (.fin true 1 (-(fixBits : Int)))
  else
    let h := x * x / one
    let s := ((List.range 600).foldl (fun (b : Int × Int) (i : Nat) =>
      (b.1 + b.2 / (2 * (i : Int) + 1), -(b.2 * h / one / (2 * ((i : Int) + 1))))) (0, x)).1
    FVal.mul (.fin n m e) (FVal.ofFix (one / 2 + s * (gaussFix : Int) / one))

/-! The functions. -/

def vexp2 (a : Word) : Word :=
  match F32.dec a with
  | .nan => F32.nan
  | .inf n => if n then 0 else F32.posInf
  | .fin n m e =>
    if m = 0 then F32.one
    else if FVal.lt (.fin n m e) (FVal.ofInt (-150)) then 0
    else if !(FVal.lt (.fin n m e) (FVal.ofInt 128)) then F32.posInf
    else
      -- an integer in −149 … 127 gives an exact power of two
      let k : Int := signedMag n (if 0 ≤ e then m * 2 ^ e.toNat else m / 2 ^ (-e).toNat)
      if (0 ≤ e ∨ m % 2 ^ (-e).toNat = 0) ∧ -149 ≤ k then F32.rnd (.fin false 1 k)
      else boundedBy 1 (Config.exp2 a) (exp2Ref (fixOf n m e))

/-- The logarithm of +Inf is stated nowhere: a free value. -/
def vlog2 (a : Word) : Word :=
  match F32.dec a with
  | .nan => F32.nan
  | .inf n => if n then F32.nan else Config.log2 a
  | .fin n m e =>
    if m = 0 then F32.negInf
    else if n then F32.nan
    else if a = F32.one then 0
    else boundedBy 2 (Config.log2 a) (log2Ref m e)

def vrsqrt (a : Word) : Word :=
  match F32.dec a with
  | .nan => F32.nan
  | .inf n => if n then F32.nan else 0
  | .fin n m e =>
    if m = 0 then (if n then F32.negInf else F32.posInf)
    else if n then F32.nan
    else boundedBy 1 (Config.rsqrt a) (FVal.sqrt (FVal.wideDiv FVal.one (.fin false m e)))

/-- A reciprocal beyond the largest finite value is free: R97 gives no spacing there and R98 no result
(DESIGN CHOICE, log entry 1). -/
def vrcp (a : Word) : Word :=
  match F32.dec a with
  | .nan => F32.nan
  | .inf n => F32.rnd (.fin n 0 0)
  | .fin n m e =>
    if m = 0 then F32.rnd (.inf n)
    else
      let ref := FVal.wideDiv FVal.one (.fin n m e)
      if (F32.dec (F32.rnd ref)).isInf then fcanon (Config.rcp a) else boundedBy 1 (Config.rcp a) ref

def vtanh (a : Word) : Word :=
  match F32.dec a with
  | .nan => F32.nan
  | .inf n => if n then 0xBF800000 else F32.one
  | .fin n m e => boundedBy 2 (Config.tanh a) (tanhRef n m e)

def vsigmoid (a : Word) : Word :=
  match F32.dec a with
  | .nan => F32.nan
  | .inf n => if n then 0 else F32.one
  | .fin n m e => boundedBy 2 (Config.sigmoid a) (sigmoidRef (fixOf n m e))

def vgelu (a : Word) : Word :=
  match F32.dec a with
  | .nan => F32.nan
  | .inf n => if n then 0x80000000 else F32.posInf
  | .fin n m e => if m = 0 then F32.rnd (.fin n 0 0) else boundedBy 3 (Config.gelu a) (geluRef n m e)

end Sys2Proof
end

