-- ==== Sys2Proof/Machine/RefOrder.lean ====
section
/-! DEFINITION. The reference order: array sums (R74 to R81), pairwise trees (R83), one attention
row (R84, R85), the logprob (R87) and the fixed-point form of collective sums (R99 to R101). -/

namespace Sys2Proof

/-! Array sums. -/

/-- An element entering an array, scaled by its shared-scale code (127 without one): BF16 and FP16
subnormals become zeros of the same sign (R74). -/
def arrElem (c bits code : Nat) : FVal :=
  let v := if code = 255 then .nan else (elemVal c bits).scale ((code : Int) - 127)
  match ffmtOf c with
  | some f =>
    if (c = 1 ∨ c = 2) ∧ bits / 2 ^ f.mant % 2 ^ (f.width - 1 - f.mant) = 0 then
      .fin (bits / 2 ^ (f.width - 1) % 2 == 1) 0 0
    else v
  | none => v

def productExp (p : FVal) : Option Int :=
  match p with
  | .fin _ m e => if m = 0 then none else some (ilog2 m e)
  | _ => none

/-- The largest product exponent of a group, `none` without a finite nonzero product. -/
def groupExp (ps : List FVal) : Option Int :=
  ps.foldl (fun acc p => match productExp p, acc with
    | none, a => a
    | some x, none => some x
    | some x, some y => some (max x y)) none

/-- One product in units of `2^q`, truncated toward zero. -/
def windowTerm (q : Int) (p : FVal) : Int :=
  match p with
  | .fin n m e => signedMag n (if q ≤ e then m * 2 ^ (e - q).toNat else m / 2 ^ (q - e).toNat)
  | _ => 0

/-- The sum of one group of products (R75, R76). -/
def groupSum (ps : List FVal) : Word :=
  if ps.any FVal.isNan then F32.nan
  else
    let pos := ps.any fun p => p == .inf false
    let neg := ps.any fun p => p == .inf true
    if pos && neg then F32.nan
    else if pos then F32.posInf
    else if neg then F32.negInf
    else match groupExp ps with
      | none => 0
      | some e =>
        let w : Int := ps.foldl (fun a p => a + windowTerm (e - 64) p) 0
        F32.rnd (.fin (decide (w < 0)) w.natAbs (e - 64))

/-- The groups of 32 of a run of products, added to an accumulator in ascending order (R77). -/
def accGroups (acc : Word) (ps : List FVal) : Word :=
  (chunksOf 32 ps.length ps).foldl (fun a g => fadd a (groupSum g)) acc

/-- One level of the pairwise tree: value 2i + 1 added to value 2i, a last one passes up. -/
def pairLevel : List Word → List Word
  | a :: b :: r => fadd a b :: pairLevel r
  | r => r

def pairTreeAux : Nat → List Word → Word
  | 0, vs => vs.headD 0
  | n + 1, vs => if vs.length ≤ 1 then vs.headD 0 else pairTreeAux n (pairLevel vs)

/-- The pairwise tree of R80 and R83; it depends on the number of values alone. -/
def pairTree (vs : List Word) : Word := pairTreeAux vs.length vs

/-- The whole reduction of R75 to R80 with `S` segments. -/
def arraySum (S : Nat) (ps : List FVal) : Word :=
  let unit := 32 * S
  let kpad := (ps.length + unit - 1) / unit * unit
  let padded := ps ++ List.replicate (kpad - ps.length) (.fin false 0 0)
  pairTree ((chunksOf (kpad / S) S padded).map (accGroups 0))

/-- An array dot product of two element lists, S = 1. -/
def arrayDot (xs ys : List FVal) : Word := arraySum 1 (List.zipWith FVal.mul xs ys)

/-! Converting a run of FP32 values into a format with shared scales along the run (R73). The draw
of element `i` is `draw i` when the format word asks for stochastic rounding (R93). -/

def rndOf (f : FmtWord) (draw : Nat) : Rnd := if f.rnd = 1 then .stoch draw else defaultRnd f.fmt

/-- One block: the scale code (127 without a shared scale) and the element bits. `stored` is the
code already at the scale address, used with SCALE_SRC = 1. -/
def convertBlock (f : FmtWord) (stored : Nat) (vs : List (FVal × Nat)) : Nat × List Nat :=
  if f.blk = 0 then (127, vs.map fun x => convertTo f.fmt (rndOf f x.2) f.ovfInf x.1)
  else
    let code := if f.scaleSrc then stored else scaleCode f.fmt (vs.map (·.1))
    (code, vs.map fun x => convertScaled f.fmt (rndOf f x.2) f.ovfInf code x.1)

/-! One attention row (R84, R85). -/

structure AttnAcc where
  m : Word
  l : Word
  o : List Word
  deriving DecidableEq, Repr

/-- One key block; `stored` = the scale code of P with SCALE_SRC = 1. Each key carries its score (`none` = masked), the draw of its probability and its
value elements. -/
def attnBlock (pf : FmtWord) (stored : Nat → Nat) (d : Nat) (a : AttnAcc)
    (ks : List (Option Word × Nat × List FVal)) : AttnAcc :=
  let scores := ks.filterMap (·.1)
  match scores with
  | [] => a
  | s0 :: ss =>
    let mNew := fmax a.m (ss.foldl fmax s0)
    let c := vexp2 (fsub a.m mNew)
    let ps := ks.map fun k => (match k.1 with | some s => vexp2 (fsub s mNew) | none => 0)
    let draws := ks.map fun k => k.2.1
    let bsz := if pf.blk = 0 then max 1 ps.length else 2 ^ pf.blk
    let conv := (chunksOf bsz ps.length ((ps.map F32.dec).zip draws)).zipIdx.flatMap fun blk =>
      let r := convertBlock pf (stored blk.2) blk.1
      r.2.map fun bits => arrElem pf.fmt bits r.1
    let pm := (ks.zip conv).map fun x => match x.1.1 with | some _ => x.2 | none => .fin false 0 0
    let lBlk := arraySum 1 pm
    let oBlk (i : Nat) : Word :=
      arraySum 1 ((ks.zip pm).map fun x => FVal.mul x.2 (x.1.2.2.getD i (.fin false 0 0)))
    { m := mNew, l := ffma a.l c lBlk
      o := (List.range d).map fun i => ffma (a.o.getD i 0) c (oBlk i) }

/-- The whole row over its keys in ascending order, `2^b` keys a block; the output and `l`. -/
def attnRow (b d : Nat) (pf : FmtWord) (stored : Nat → Nat → Nat) (ks : List (Option Word × Nat × List FVal)) :
    List Word × Word :=
  let a := (chunksOf (2 ^ b) (ks.length + 1) ks).zipIdx.foldl
    (fun a blk => attnBlock pf (stored blk.2) d a blk.1)
    { m := F32.negInf, l := 0, o := List.replicate d 0 }
  if ks.all fun k => k.1.isNone then (List.replicate d 0, 0)
  else (a.o.map fun x => fmul x (vrcp a.l), a.l)

/-! The logprob (R87). -/

def log2e : Word := 0x3FB8AA3B
def ln2 : Word := 0x3F317218

def maxOf (zs : List Word) : Word :=
  match zs with
  | [] => F32.negInf
  | z :: r => r.foldl fmax z

/-- `e_i` of R87 under the maximum `m`. -/
def lpTerm (m z : Word) : Word := vexp2 (fmul (fsub z m) log2e)

/-- The last line of R87. -/
def lpLast (zt m s : Word) : Word := fsub (fsub zt m) (fmul (vlog2 s) ln2)

/-! Collective sums (R99 to R101). -/

/-- The largest exponent a member sends for a chunk, `none` as its marker. -/
def collExpLocal (xs : List Word) : Option Int := blockExp (xs.map F32.dec)

def collExp (locals : List (Option Int)) : Int :=
  let best := locals.foldl (fun a x => match x, a with
    | none, a => a
    | some v, none => some v
    | some v, some w => some (max v w)) none
  match best with
  | none => -126
  | some x => max (x + 1) (-126)

/-- A carried element: the integer N and the class tag 0 finite, 1 +Inf, 2 −Inf, 3 NaN (R100). -/
structure CollElem where
  n : Int
  tag : Nat
  deriving DecidableEq, Repr

def collElem (E : Int) (x : Word) : CollElem :=
  match F32.dec x with
  | .nan => ⟨0, 3⟩
  | .inf s => ⟨0, if s then 2 else 1⟩
  | .fin s m e => ⟨windowTerm (E - 55) (.fin s m e), 0⟩

def collTag (a b : Nat) : Nat :=
  if a = 3 ∨ b = 3 then 3 else if a = 0 then b else if b = 0 then a else if a = b then a else 3

def collAdd (a b : CollElem) : CollElem := ⟨a.n + b.n, collTag a.tag b.tag⟩

/-- The rounded result of an element (R101). -/
def collResult (E : Int) (c : CollElem) : Word :=
  match c.tag with
  | 0 => F32.rnd (.fin (decide (c.n < 0)) c.n.natAbs (E - 55))
  | 1 => F32.posInf
  | 2 => F32.negInf
  | _ => F32.nan

end Sys2Proof
end

