-- ==== Sys2Proof/Machine/StLink.lean ====
section
/-! DEFINITION. Peer links (R243 to R258), groups (R259 to R265) and collectives in progress (R266 to
R285). -/

namespace Sys2Proof

/-- A flit: the fields of its header and its 240 bytes of payload (R243, R244). -/
structure Flit where
  kind : BitVec 4        -- TYPE
  vc : BitVec 2
  seq : BitVec 12
  ack : BitVec 12
  dest : BitVec 8
  src : BitVec 8
  stream : BitVec 4
  part : BitVec 4
  group : BitVec 12
  len : BitVec 8
  reason : BitVec 8
  rsv : BitVec 14
  payload : List Byte
  deriving DecidableEq, Repr

/-- A peer link (R245 to R248, R257, R258). -/
structure Link where
  state : BitVec 3 := 0
  lanes : BitVec 2 := 0
  spared : Bool := false
  spareIdx : Bool := false
  sparedLane : Bool := false
  /-- Spare lanes of the tile that this link has taken, the last one in use (R247). -/
  took : List Nat := []
  /-- Trainings that have failed in a row (R248). -/
  fails : Nat := 0
  /-- In quarantine until PL_QCLR, whatever else happens to the link (R257). -/
  quar : Bool := false
  peerCoord : BitVec 8 := 0
  peerLink : BitVec 6 := 0
  disable : Bool := false
  ceLog2 : BitVec 5 := 0x18
  crcFail : BitVec 16 := 0
  replays : BitVec 16 := 0
  fecCorr : BitVec 32 := 0
  viol : BitVec 16 := 0
  violLast : BitVec 8 := 0
  /-- Violations counted in the present 1 ms window. -/
  window : Nat := 0
  /-- The partner is disabled or in quarantine, as its link control said (R257, R258). -/
  partnerOut : Bool := false
  /-- Replay buffer: unacknowledged flits, oldest first, at most 1,024. -/
  sent : List Flit := []
  /-- Flits that wait for room or for the end of a retraining. -/
  held : List Flit := []
  nextSeq : BitVec 12 := 0
  /-- Next sequence number expected from the partner. -/
  rxNext : BitVec 12 := 0
  /-- A flit has failed its CRC and everything until its replay is discarded. -/
  rxDiscard : Bool := false
  /-- Replays of the oldest flit since it was sent (R246). -/
  replayCount : Nat := 0
  /-- A lane taken out of use and not replaced (R247): lane 0, lane 1. -/
  lane0Bad : Bool := false
  lane1Bad : Bool := false
  /-- Management mode only, before S8 (R449). -/
  mgmtMode : Bool := false
  mated : Bool := true
  deriving DecidableEq, Repr

/-- A member of a group: module coordinate byte and partition (R260). -/
structure Member where
  coord : BitVec 8
  part : BitVec 4
  deriving DecidableEq, Repr

inductive GroupState where
  | forming | formed | broken
  deriving DecidableEq, Repr

/-- A group id in use on this module (R259 to R264). -/
structure Group where
  part : Nat := 0
  members : List Member := []
  rank : Nat := 0
  epoch : BitVec 8 := 0
  state : GroupState := .forming
  /-- Rank lost, when a lost member broke it (R264). -/
  lostRank : Nat := 0xFFFF
  deriving DecidableEq, Repr

/-- A GROUP_FORM exchange in progress (R261). -/
structure Forming where
  group : Nat
  epoch : BitVec 8
  members : List Member
  rank : Nat
  hash : Dword
  reform : Bool
  /-- Hashes received, by rank. -/
  got : List (Nat × Dword)
  deriving DecidableEq, Repr

inductive CollPhase where
  | waiting | header | data
  deriving DecidableEq, Repr

/-- A header as a member sends it (R276). -/
structure CollHeader where
  rank : Nat
  hash : Dword
  stepEn : Bool
  step : Word
  /-- e_loc of chunks 0 to 255 as signed 16-bit values, 0x8000 = none. -/
  elocs : List (BitVec 16)
  deriving DecidableEq, Repr

/-- What a collective chunk carries (R276): partial sums with the ranks they include, FP32 partial
maxima or minima, one rank's native bits, the OR of the non-finite flags that ranks raise for their whole
sources (R270), elements of a Loom move (tensor, then global index, bits and scale code), or a rank's
wish for units of a tensor, each named by its first element (R382). -/
inductive ChunkData where
  | sum (ranks : List (Fin 256)) (elems : List CollElem)
  | flag (ranks : List (Fin 256)) (nf : Bool)
  | fold (ranks : List (Fin 256)) (elems : List Word)
  | bits (rank : Fin 256) (elems : List Nat)
  | tensor (t : Nat) (elems : List (Nat × Nat × Nat))
  | ask (t : Nat) (rank : Fin 256) (elems : List Nat)
  deriving DecidableEq, Repr

/-- A COLLECTIVE (or the collective side of a LOOM_MOVE, R378) from its dispatch to its outcome. -/
structure Coll where
  group : Nat
  ordinal : Nat
  hash : Dword
  phase : CollPhase := .waiting
  headers : List CollHeader := []
  /-- Chunk exponents agreed so far, by chunk (R99). -/
  exps : SMap Int := []
  /-- Exponent batches agreed: chunks below 256 times this number. -/
  batches : Nat := 0
  /-- Movement: by chunk, the ranks whose elements have been written. -/
  got : SMap (List Nat) := []
  /-- Reductions: by chunk, the ranks included and the elements as the engine last staged them (R280; of
  MAX and MIN, FP32 bits in `n`). -/
  partials : SMap (List Nat × List CollElem) := []
  /-- Chunks that this member has read from its source and sent. -/
  sent : SMap Bool := []
  /-- Non-finite flags OR-reduced so far, and the ranks whose flag is in (R270). -/
  nf : Bool := false
  flags : List Nat := []
  /-- The staging slot that its admission reserved (R274, R280). -/
  slot : Nat := 0
  /-- RESULT, once the commit point is passed while chunks of the own source are still to send (R279). -/
  committed : Option Nat := none
  /-- Chunks and exponent batches that came before this member could take them. -/
  inbox : List (Nat × ChunkData) := []
  batchIn : List (Nat × List (BitVec 16)) := []
  /-- Chunks of this member's destination that are written. -/
  written : SMap Bool := []
  /-- FEED: length of the leading run already credited (R271). -/
  credited : Nat := 0
  deriving DecidableEq, Repr

/-- One staging entry of PAR_COL_STAGE (R280). -/
structure ColStage where
  core : BitVec 8 := 0
  off : BitVec 11 := 0
  slots : BitVec 5 := 0
  deriving DecidableEq, Repr

structure ColRegs where
  stage0 : ColStage := {}
  stage1 : ColStage := {}
  stage2 : ColStage := {}
  stage3 : ColStage := {}
  hdrMs : BitVec 16 := 0x2710
  last : BitVec 48 := 0
  lastHi : BitVec 16 := 0
  /-- An ordinal has been admitted since the last reset. -/
  any : Bool := false
  deriving DecidableEq, Repr

end Sys2Proof
end

