-- ==== Sys2Proof/Machine/StMod.lean ====
section
/-! DEFINITION. The module-wide state: identity and core map (R6, R30 to R36, R62), bring-up and
resets (R452, R456, R467), the Chart (R457 to R463), power and clocks (R472 to R490), host-link
ports (R496), the I3C port (R497, R498), the persistent store (R502 to R507), the Logbook (R508 to
R517), the security engine (R435 to R446) and what stands on the board. Every default is the value
after a module reset unless its docstring says that no reset clears it. -/

namespace Sys2Proof

/-! The agents that reach registers, as their point of entry (R61, R509). -/

inductive Agent where
  | host (port : Fin 2)
  | relay (link : Fin 64)
  | mgmt
  | helm (h : Fin 20)
  deriving DecidableEq, Repr

/-- The unit id that a record about an access names (R509, R49); the management core's index comes
with the state. -/
def Agent.unitId (mgmtT1 : Bool) : Agent → BitVec 16
  | .host p => BitVec.ofNat 16 (0xC000 + p.val)
  | .relay l => BitVec.ofNat 16 (0xB000 + l.val)
  | .mgmt => if mgmtT1 then 0x4001 else 0x4000
  | .helm h => BitVec.ofNat 16 (0x3000 + h.val)

/-! The Logbook. -/

/-- The 32 bytes of a fixed record (R509), field by field. -/
structure LogRec where
  code : BitVec 16 := 0
  unit : BitVec 16 := 0
  seq : BitVec 48 := 0
  flags : BitVec 16 := 0
  time : BitVec 64 := 0
  arg0 : BitVec 64 := 0
  arg1 : BitVec 32 := 0
  deriving DecidableEq, Repr

structure LogState where
  /-- The fixed ring by slot, 262,144 slots (R508, R511). -/
  fixed : SMap LogRec := []
  /-- The variable region by byte, 4 MiB (R508). -/
  var : SMap Byte := []
  varPos : Nat := 0
  /-- The persistent ring by slot, 4,096 slots; survives every reset (R508, R513). -/
  pring : SMap LogRec := []
  /-- Records of severity 3 or more not yet in the persistent ring (R513). -/
  pwait : List LogRec := []
  /-- Next sequence number, and the end of the reserved range (R511). -/
  nextSeq : Nat := 0
  top : Nat := 0
  floor : Nat := 0
  bucket : Nat := 64
  mirror : Bool := false
  pdrop : BitVec 16 := 0
  fwin : BitVec 9 := 0
  src : Bool := false
  vwin : BitVec 7 := 0
  headHi : BitVec 16 := 0
  oldestHi : BitVec 16 := 0
  pfloorHi : BitVec 16 := 0
  optimeHi : BitVec 8 := 0
  /-- The operating time as the module last knew it, in units of 2⁻¹² hour; kept in words 1,040 to
  1,047 over a power loss (R506). -/
  optime : BitVec 40 := 0
  deriving DecidableEq, Repr

/-! The persistent store (R502 to R507). All of it but the held halves and the two error bits
survives every reset. -/

structure PrsState where
  words : SMap Dword := []
  count : SMap Nat := []
  /-- Index → 1 + the spare word it is directed to; 0 = not remapped (R505). -/
  remap : SMap Nat := []
  sparesUsed : Nat := 0
  /-- Held halves: half index 2·i (LO) or 2·i + 1 (HI) and its value (R503). -/
  held : List (Nat × Word) := []
  idx : BitVec 12 := 0
  writeErr : Bool := false
  remapErr : Bool := false
  deriving DecidableEq, Repr

/-! What stands on the board and in the fuses: inputs of the module, changed by nothing it does. -/

structure Board where
  /-- MOD_MEM_CODE: 1 = ZK64-1T4, 2 = ZK64-0T9 (R6). -/
  memCode : BitVec 4 := 1
  revLetter : BitVec 4 := 1
  revDigit : BitVec 4 := 0
  /-- The descriptor flash, from address 0 (R499). -/
  flash : List Byte := []
  /-- Unit ids the fused map marks bad (R457). -/
  fusedBad : List Nat := []
  /-- The fused map's row repairs (R457): unit id, and the row as SUB of R458 names it. -/
  fusedRows : List (Nat × Nat) := []
  /-- The fused map's digest and the fused row's CRC-32 pass (R457). -/
  fusedMapOk : Bool := true
  fusedRowOk : Bool := true
  /-- Fused hashes of the two signer slots (R442). -/
  slotHash0 : List Byte := []
  slotHash1 : List Byte := []
  serial : BitVec 48 := 0
  deriving DecidableEq, Repr

/-! Identity, core map, bridges (R33 to R36, R62), coordinates (R242). -/

structure ModRegs where
  lcores : BitVec 8 := 0
  sparesFree : BitVec 8 := 0
  holes : BitVec 8 := 0
  lcoreSel : BitVec 8 := 0
  /-- Logical number → 1 + physical core, 0 = a hole; valid below `lcores` (R30, R31). -/
  lmap : SMap Nat := []
  /-- Physical core numbers of the enabled cores and of the unused spares (R461). -/
  spareCores : List Nat := []
  bridgeUp : BitVec 4 := 0
  bridgeFailed : BitVec 4 := 0
  ringChain : Bool := false
  tileCut : BitVec 4 := 0
  coordX : BitVec 2 := 0
  coordY : BitVec 2 := 0
  coordZ : BitVec 2 := 0
  coordW : BitVec 2 := 0
  sizeX : BitVec 2 := 3
  sizeY : BitVec 2 := 3
  sizeZ : BitVec 2 := 3
  sizeW : BitVec 2 := 0
  coordLock : Bool := false
  /-- The T1 management core is the active one (R40). -/
  mgmtT1 : Bool := false
  deriving DecidableEq, Repr

/-! Bring-up (R452, R456). -/

structure BuState where
  done : BitVec 4 := 0xF
  run : BitVec 4 := 0
  busy : Bool := true
  failed : Bool := false
  abbreviated : Bool := false
  resetReq : Bool := false
  descBad : Bool := false
  code : BitVec 8 := 0
  uid : BitVec 16 := 0
  /-- MOD_BU_TEST of the request that runs (R452). -/
  test : BitVec 2 := 0
  /-- The running step has done its work: the code it ends with (0 = completes) and the unit. -/
  outcome : Option (Nat × Nat) := none
  fwAddr : BitVec 56 := 0
  fwLen : BitVec 26 := 0
  mtRows : BitVec 16 := 0
  mtGranules : BitVec 16 := 0
  capBd : BitVec 32 := 0
  capLpOff : BitVec 16 := 0
  capLpGran : BitVec 16 := 0
  /-- Record words that stood in the field-repair map when S3 loaded it. -/
  mapAt : Nat := 0
  /-- Every bonded-DRAM line has been written since the last module reset (R434). -/
  bdWritten : Bool := false
  /-- S10 has completed: patrol scrub runs and the module is ready. -/
  ready : Bool := false
  /-- The descriptor's body as accepted at S0; empty when it failed (R451, R501). -/
  desc : List Byte := []
  /-- SHA-256 of the descriptor as read (R445). -/
  descHash : List Byte := []
  /-- Host direction 0 to 7, or 0xFF for a direct UL connection (R501); `none` = not known. -/
  hostDir : Option Nat := none
  /-- Management mode is offered on every peer direction (R451). -/
  offering : Bool := false
  deriving DecidableEq, Repr

/-! The Chart's per-unit entries (R463), by unit id; kept for units of classes 1 to 0xE. -/

structure UnitEntry where
  fusedBad : Bool := false
  repairBad : Bool := false
  testBad : Bool := false
  tested : Bool := false
  role : BitVec 2 := 0
  testCode : BitVec 8 := 0
  deriving DecidableEq, Repr

structure ChtState where
  fuseOk : Bool := false
  loaded : Bool := false
  mapFull : Bool := false
  mapUsed : BitVec 11 := 0
  disagree : BitVec 10 := 0
  uid : BitVec 16 := 0
  units : SMap UnitEntry := []
  /-- Units failed in service without a spare (R469). -/
  lost : List Nat := []
  /-- Units that failed while a partition was being enabled, which take effect after it (R420, R461). -/
  late : List Nat := []
  deriving DecidableEq, Repr

/-! Resets (R464 to R467). -/

inductive ResetKind where
  | core | cluster | partition | module
  deriving DecidableEq, Repr

structure RunningReset where
  kind : ResetKind
  target : Nat
  scrub : Bool
  /-- The unit id that asked for it (R466). -/
  requester : BitVec 16
  /-- Requested by the host: MOD_RST_BUSY follows it. -/
  byHost : Bool
  deriving DecidableEq, Repr

structure RstState where
  kind : BitVec 2 := 0
  scrub : Bool := false
  target : BitVec 8 := 0
  err : BitVec 3 := 0
  last : BitVec 2 := 0
  running : List RunningReset := []
  deriving DecidableEq, Repr

/-! Power (R472 to R486) and clocks (R490). -/

/-- The input level of R528; `good` = power good has been reached. -/
inductive InputState where
  | off | standby | good
  deriving DecidableEq, Repr

/-- The droop response of R480, in sixteenths of the nominal clock: held at 8 or 4, or restoring by
steps of 1/16. -/
inductive DroopPhase where
  | none | held (sixteenths : Nat) | restoring (sixteenths : Nat)
  deriving DecidableEq, Repr

/-- A stretch episode (R484); `ending` = the stretch is over, and its end is not recorded yet, since a
stretch within 1 ms continues it. -/
inductive Episode where
  | none | running | ending
  deriving DecidableEq, Repr

/-- What the last 10 ms window asks of a power limit (R476, R482). -/
inductive LimitDir where
  | hold | raise | release
  deriving DecidableEq, Repr

structure Rail where
  volts : BitVec 8 := 0
  /-- Phases retired, by number (R475). -/
  retired : List Nat := []
  /-- Sixteenths that a rail on fewer than N phases takes from its islands (R476). -/
  steps : Nat := 0
  dir : LimitDir := .hold
  deriving DecidableEq, Repr

structure PwrState where
  input : InputState := .standby
  vin : BitVec 16 := 0
  iin : BitVec 16 := 0
  pin : BitVec 16 := 0
  pmax : BitVec 16 := 0
  capW : BitVec 16 := 0x0E10
  idleUs : BitVec 10 := 0x014
  epDroop : BitVec 16 := 0
  epTherm : BitVec 16 := 0
  capOver : BitVec 16 := 0
  epCap : BitVec 16 := 0
  railIdx : BitVec 5 := 0
  rails : SMap Rail := []
  railsOn : Bool := false
  /-- PWR_CAUSE: no reset clears it (R485). -/
  cause : BitVec 3 := 0
  tmax : BitVec 16 := 0
  tmaxIsl : BitVec 7 := 0
  /-- Last reading of each island's sensor, in units of 0.125 °C; `none` = not read yet. -/
  temps : SMap (Option (BitVec 16)) := []
  droop : DroopPhase := .none
  droopEp : Episode := .none
  /-- Sixteenths taken by the power cap from every cluster island of an unsealed partition (R482). -/
  capSteps : Nat := 0
  capDir : LimitDir := .hold
  capEp : Episode := .none
  /-- Sixteenths that each island's temperature takes (R483). -/
  therm : SMap Nat := []
  thermEp : Episode := .none
  /-- A thermal trip holds the rails off until every sensor reads below 85 °C (R483). -/
  tripHold : Bool := false
  mgmtVio : Bool := true
  deriving DecidableEq, Repr

structure Island where
  state : BitVec 2 := 0
  local_ : Bool := false
  localCount : BitVec 16 := 0
  deriving DecidableEq, Repr

structure ClkState where
  islands : SMap Island := []
  /-- Wakes waiting on each tile, in arrival order: island and slots still needed (R479). -/
  wakes : SMap (List (Nat × Nat)) := []
  deriving DecidableEq, Repr

/-! Host-link ports (R491 to R496). -/

structure UlPort where
  state : BitVec 3 := 0
  lanes : BitVec 3 := 0
  routed : BitVec 8 := 0
  disable : Bool := false
  crcFail : BitVec 16 := 0
  replays : BitVec 16 := 0
  viol : BitVec 16 := 0
  violLast : BitVec 8 := 0
  quarCount : BitVec 8 := 0
  /-- Violations in the present 1 ms window (R495). -/
  window : Nat := 0
  /-- In quarantine until UL_QCLR, whatever else happens to the port (R495). -/
  quar : Bool := false
  /-- The cable is mated (R519): no reset changes it. -/
  mated : Bool := true
  deriving DecidableEq, Repr

/-! The I3C target (R497, R498). -/

structure I3cState where
  dyn : Option (BitVec 7) := none
  ibi : Bool := false
  addr : BitVec 32 := 0
  /-- Shadow registers of RS reads over I3C, by register address (R498). -/
  shadow : SMap Word := []
  deriving DecidableEq, Repr

/-! The security engine (R435 to R446). -/

/-- An operation waiting for its turn (R439). -/
inductive SecOp where
  | keyGen (p : Nat)
  | keyDestroy (p : Nat)
  | report (kind : Nat) (part : Nat)
  deriving DecidableEq, Repr

structure SecState where
  /-- The active engine has failed in service (R440). -/
  failed : Bool := false
  activeT1 : Bool := false
  fwState : BitVec 2 := 0
  fwReason : BitVec 3 := 0
  fwSlot : Bool := false
  svnRun : BitVec 16 := 0
  /-- SHA-256 of the running image's header and body (R441). -/
  measurement : List Byte := []
  /-- Revocation is permanent (R443); exhaustion is kept in persistent word 1,060. -/
  slot0Revoked : Bool := false
  /-- Next leaf and reserved top (R436). -/
  leaf : Nat := 0
  leafTop : Nat := 0
  leafHi : BitVec 8 := 0
  kind : BitVec 2 := 0
  part : BitVec 4 := 0
  busy : Bool := false
  err : BitVec 3 := 0
  nonce : SMap Word := []
  outLen : BitVec 16 := 0
  out : List Byte := []
  /-- Position of the frame of 17 turns (R439). -/
  turn : Nat := 0
  waiting : List SecOp := []
  deriving DecidableEq, Repr

/-- What the module sends outward, oldest first: the part of its behaviour that no register holds. -/
inductive Out where
  /-- A host interrupt of a partition's vector (R232). -/
  | irq (part vec : Nat)
  /-- An I3C in-band interrupt with its data byte (R497). -/
  | ibi (severity : Nat)
  /-- The answer to a register read. -/
  | read (agent : Agent) (addr : Nat) (value : Word)
  /-- Bytes answered to an I3C private read (R498). -/
  | i3c (bytes : List Byte)
  /-- The target refused an I3C transfer (R498). -/
  | i3cNack
  /-- A NACK on a peer link or host-link port with its reason (R256, R494), and on a peer link the
  sequence number that it carries (R245). -/
  | nack (unit : Nat) (seq : Option Nat) (reason : Nat)
  /-- An ACK on a peer link: the highest sequence number received correctly (R245). -/
  | ack (link seq : Nat)
  /-- The 256 bytes of a flit sent on a peer link (R243, R244). -/
  | packet (link : Nat) (wire : List Byte)
  /-- This module's links out of service, in management flits to the other modules (R253). -/
  | linkStates (mask : BitVec 64)
  /-- A message to a partition of another module, by kind (R261, R264, R276, R281, R382, R391, R400);
  group 0 outside groups. Its flits follow as packets. -/
  | message (kind coord part group : Nat) (payload : List Byte)
  /-- Link control to the partner of a peer link: out of service, and whether by a disable (R257, R258). -/
  | control (link : Nat) (out disabled : Bool)
  /-- Replay of a link's buffer from a sequence number (R245). -/
  | replay (link seq : Nat)
  /-- The management-mode offer (R451). -/
  | offer (direction : Nat)
  /-- The coordinate and the dimension sizes that a module in management mode is told (R451). -/
  | place (link coord sizes : Nat)
  deriving DecidableEq, Repr

end Sys2Proof
end

