-- ==== Sys2Proof/Syntax.lean ====
section
/-! DEFINITION. The commands and events of spec/opcode_table.json, one constructor a row. A command
row names the partition, queue and ring slot of the descriptor it carries out; a core instruction
names the core and its 64-bit word (R144); a register row names the accessing agent (R61) and the
value written. What the outside world decides (a flit, a sensor reading, a training result) is an
operand. -/

namespace Sys2Proof

/-- An error that a memory line (R190; in LPDDR6 when `lp`) or a 64-bit scratchpad word (R124) has
picked up and that no read has found yet: 1 = correctable, 2 = uncorrectable; of a line also 3 = three
or more bad symbols that the code takes for one, 4 = for none. -/
inductive Upset where
  | line (lp : Bool) (line : Nat) (err : Fin 5)
  | word (core : Fin 192) (word : Nat) (err : Fin 3)
  deriving DecidableEq, Repr

/-- A memory row: a bonded-DRAM port's bank and row, or an LPDDR6 controller's package, bank and row. -/
structure RowId where
  lp : Bool
  unit : Nat
  pkg : Nat
  bank : Nat
  row : Nat
  deriving DecidableEq, Repr

/-- What the memory test saw of a row (R455): for each phase in order, the numbers of wrong 4-bit symbols
of its lines that compared wrong. -/
structure RowTest where
  row : RowId
  wrong : List (List Nat)
  deriving DecidableEq, Repr

/-- What a training shows of the partner. -/
structure Partner where
  /-- Spare lanes that it has free for this link (R247). -/
  spares : Fin 3
  /-- It trains in management mode only (R449, R451). -/
  mgmt : Bool
  /-- Its module's coordinate and its link number (R258). -/
  coord : BitVec 8
  link : BitVec 6
  deriving DecidableEq, Repr

/-- What a link's training showed (R247 to R249, R258): links 0 to 63, host-link ports 64 and 65. -/
structure LinkTraining where
  link : Fin 66
  /-- Working lanes, bit by bit (two for a peer link, four for a port). -/
  lanes : BitVec 4
  /-- The training succeeded, on the lanes that work (R248). -/
  ok : Bool
  partner : Partner
  deriving DecidableEq, Repr

/-- A group as the messages of its members name it (R275). -/
structure GroupName where
  id : BitVec 12
  epoch : BitVec 8
  deriving DecidableEq, Repr

inductive Instr where
  /-- KERNEL (R147). -/
  | kernel (p : Fin 16) (q : Fin 64) (slot : BitVec 16)
  /-- COPY (R224). -/
  | copy (p : Fin 16) (q : Fin 64) (slot : BitVec 16)
  /-- MIGRATE (R178). -/
  | migrate (p : Fin 16) (q : Fin 64) (slot : BitVec 16)
  /-- FILL (R225). -/
  | fill (p : Fin 16) (q : Fin 64) (slot : BitVec 16)
  /-- SCRUB (R225). -/
  | scrub (p : Fin 16) (q : Fin 64) (slot : BitVec 16)
  /-- ATTEND (R306). -/
  | attend (p : Fin 16) (q : Fin 64) (slot : BitVec 16)
  /-- SAMPLE (R311). -/
  | sample (p : Fin 16) (q : Fin 64) (slot : BitVec 16)
  /-- VERIFY_HEADS (R315). -/
  | verifyHeads (p : Fin 16) (q : Fin 64) (slot : BitVec 16)
  /-- UPDATE (R355). -/
  | update (p : Fin 16) (q : Fin 64) (slot : BitVec 16)
  /-- SOUND_READ (R340). -/
  | soundRead (p : Fin 16) (q : Fin 64) (slot : BitVec 16)
  /-- ALL_REDUCE (R267). -/
  | allReduce (p : Fin 16) (q : Fin 64) (slot : BitVec 16)
  /-- REDUCE_SCATTER (R267). -/
  | reduceScatter (p : Fin 16) (q : Fin 64) (slot : BitVec 16)
  /-- ALL_GATHER (R267). -/
  | allGather (p : Fin 16) (q : Fin 64) (slot : BitVec 16)
  /-- REDUCE (R267). -/
  | reduce (p : Fin 16) (q : Fin 64) (slot : BitVec 16)
  /-- BROADCAST (R267). -/
  | broadcast (p : Fin 16) (q : Fin 64) (slot : BitVec 16)
  /-- ALL_TO_ALL (R267). -/
  | allToAll (p : Fin 16) (q : Fin 64) (slot : BitVec 16)
  /-- FORM (R262). -/
  | form (p : Fin 16) (q : Fin 64) (slot : BitVec 16)
  /-- REFORM (R262). -/
  | reform (p : Fin 16) (q : Fin 64) (slot : BitVec 16)
  /-- DISSOLVE (R262). -/
  | dissolve (p : Fin 16) (q : Fin 64) (slot : BitVec 16)
  /-- LOOM_MOVE (R374). -/
  | loomMove (p : Fin 16) (q : Fin 64) (slot : BitVec 16)
  /-- LOAD (R390). -/
  | load (p : Fin 16) (q : Fin 64) (slot : BitVec 16)
  /-- ADOPT (R395). -/
  | adopt (p : Fin 16) (q : Fin 64) (slot : BitVec 16)
  /-- RETIRE (R396). -/
  | retire (p : Fin 16) (q : Fin 64) (slot : BitVec 16)
  /-- FENCE (R226). -/
  | fence (p : Fin 16) (q : Fin 64) (slot : BitVec 16)
  /-- SIGNAL_ADD (R226). -/
  | signalAdd (p : Fin 16) (q : Fin 64) (slot : BitVec 16)
  /-- SIGNAL_SET (R226). -/
  | signalSet (p : Fin 16) (q : Fin 64) (slot : BitVec 16)
  /-- WAIT (R226). -/
  | wait (p : Fin 16) (q : Fin 64) (slot : BitVec 16)
  /-- MARK (R227). -/
  | mark (p : Fin 16) (q : Fin 64) (slot : BitVec 16)
  /-- ABORT_COMMAND (R233). -/
  | abortCommand (p : Fin 16) (q : Fin 64) (slot : BitVec 16)
  /-- ABORT_QUEUE (R233). -/
  | abortQueue (p : Fin 16) (q : Fin 64) (slot : BitVec 16)
  /-- ABORT_CLUSTER (R233). -/
  | abortCluster (p : Fin 16) (q : Fin 64) (slot : BitVec 16)
  /-- ABORT_PARTITION (R233). -/
  | abortPartition (p : Fin 16) (q : Fin 64) (slot : BitVec 16)
  /-- NOP (R222). -/
  | nop (p : Fin 16) (q : Fin 64) (slot : BitVec 16)
  /-- DESCRIPTOR_FETCH (R207). -/
  | descriptorFetch (p : Fin 16) (q : Fin 64)
  /-- COMMAND_DISPATCH (R219). -/
  | commandDispatch (p : Fin 16)
  /-- COMMAND_COMPLETE (R228). -/
  | commandComplete (p : Fin 16) (q : Fin 64) (slot : BitVec 16)
  /-- QUEUE_DOORBELL (R205). -/
  | queueDoorbell (a : Agent) (p : Fin 16) (q : Fin 64) (v : Word)
  /-- QUEUE_ENABLE (R203). -/
  | queueEnable (a : Agent) (p : Fin 16) (q : Fin 64) (v : Word)
  /-- QUEUE_DISABLE (R210). -/
  | queueDisable (a : Agent) (p : Fin 16) (q : Fin 64) (v : Word)
  /-- PAR_Q_STOP (R210). -/
  | parQStop (a : Agent) (p : Fin 16) (q : Fin 64) (v : Word)
  /-- PAR_Q_RESUME (R209). -/
  | parQResume (a : Agent) (p : Fin 16) (q : Fin 64) (v : Word)
  /-- QUEUE_HEAD_WRITE (R210). -/
  | queueHeadWrite (a : Agent) (p : Fin 16) (q : Fin 64) (v : Word)
  /-- EVC_ADD (R218). -/
  | evcAdd (a : Agent) (p : Fin 16) (v : Word)
  /-- XLT_ROOT_WRITE (R171). -/
  | xltRootWrite (a : Agent) (p : Fin 16) (r : Fin 3) (v : Word)
  /-- XLT_INVALIDATE (R172). -/
  | xltInvalidate (a : Agent) (p : Fin 16) (v : Word)
  /-- INVALIDATION_DONE (R173). -/
  | invalidationDone (p : Fin 16)
  /-- MIGRATION_COPY_DONE (R174). -/
  | migrationCopyDone (p : Fin 16) (q : Fin 64) (slot : BitVec 16)
  /-- PILOT_ENABLE (R189). -/
  | pilotEnable (a : Agent) (p : Fin 16) (v : Word)
  /-- PILOT_DISABLE (R188). -/
  | pilotDisable (a : Agent) (p : Fin 16) (v : Word)
  /-- PILOT_OCCURRENCE (R184). -/
  | pilotOccurrence (p : Fin 16)
  /-- PILOT_STAGE_DONE (R183). -/
  | pilotStageDone (p : Fin 16) (n : Nat)
  /-- PATROL_SCRUB (R193). -/
  | patrolScrub (u : Fin 40) (line : Nat) (err : Fin 5) (latent : List Upset) (last : Bool)
  /-- HOST_MEMORY_RESPONSE (R160). -/
  | hostMemoryResponse (via : Agent) (addr : BitVec 56) (data : List Byte) (poison : Bool) (reason : BitVec 8)
  /-- GEN_ENABLE (R290). -/
  | genEnable (a : Agent) (p : Fin 16) (v : Word)
  /-- GEN_DISABLE (R328). -/
  | genDisable (a : Agent) (p : Fin 16) (v : Word)
  /-- GEN_PARK (R328). -/
  | genPark (a : Agent) (p : Fin 16) (v : Word)
  /-- GEN_UNPARK (R328). -/
  | genUnpark (a : Agent) (p : Fin 16) (v : Word)
  /-- GEN_REQ_DOORBELL (R318). -/
  | genReqDoorbell (a : Agent) (p : Fin 16) (v : Word)
  /-- SUBMIT (R321). -/
  | submit (p : Fin 16)
  /-- CANCEL (R325). -/
  | cancel (p : Fin 16)
  /-- PAUSE (R324). -/
  | pause (p : Fin 16)
  /-- RESUME (R323). -/
  | resume (p : Fin 16)
  /-- GEN_STEP_START (R299). -/
  | genStepStart (p : Fin 16) (late : List Word)
  /-- GEN_STEP_COMMIT (R302). -/
  | genStepCommit (p : Fin 16)
  /-- PAUSE_TIMEOUT (R324). -/
  | pauseTimeout (p : Fin 16) (id : Word)
  /-- SND_ENABLE (R339). -/
  | sndEnable (a : Agent) (p : Fin 16) (v : Word)
  /-- SOUNDINGS_RECORD (R337). -/
  | soundingsRecord (c : Fin 192)
  /-- PARTITION_ENABLE (R418). -/
  | partitionEnable (a : Agent) (p : Fin 16) (v : Word)
  /-- PARTITION_TEARDOWN (R432). -/
  | partitionTeardown (a : Agent) (p : Fin 16) (v : Word)
  /-- CORE_RESET (R155). -/
  | coreReset (a : Agent) (c : Fin 192)
  /-- CLUSTER_RESET (R464). -/
  | clusterReset (a : Agent) (cl : Fin 32)
  /-- PARTITION_RESET (R465). -/
  | partitionReset (a : Agent) (p : Fin 16) (scrub : Bool)
  /-- MODULE_RESET (R464). -/
  | moduleReset (a : Agent)
  /-- SEC_TURN (R439). -/
  | secTurn
  /-- PARTITION_REPORT (R444). -/
  | partitionReport (a : Agent) (p : Fin 16)
  /-- MODULE_REPORT (R444). -/
  | moduleReport (a : Agent)
  /-- SEC_REVOKE0 (R443). -/
  | secRevoke0 (a : Agent)
  /-- SEC_SVN_MIN_WRITE (R443). -/
  | secSvnMinWrite (a : Agent) (v : BitVec 16)
  /-- POWER_GOOD (R528). -/
  | powerGood
  /-- S1 (R449). -/
  | s1 (via : Agent) (lanes : BitVec 3)
  /-- S2 (R442). -/
  | s2
  /-- S3 (R457). -/
  | s3 (bridges : BitVec 4) (bad : List (Fin 100))
  /-- S4 (R447). -/
  | s4 (ports : BitVec 32) (channels : BitVec 16)
  /-- S5 (R454). -/
  | s5 (rows : List RowTest)
  /-- S6 (R447). -/
  | s6 (bad : List (BitVec 16 × BitVec 8))
  /-- S7 (R460). -/
  | s7 (ppr : List Bool)
  /-- S8 (R249). -/
  | s8 (links : List LinkTraining)
  /-- S9 (R447). -/
  | s9
  /-- S10 (R447). -/
  | s10
  /-- BU_STEP_DONE (R453). -/
  | buStepDone
  /-- MGMT_OFFER (R451). -/
  | mgmtOffer (l : Fin 64) (coord sizes : BitVec 8)
  /-- DESCRIPTOR_FALLBACK_TIMEOUT (R451). -/
  | descriptorFallbackTimeout
  /-- PRS_LO_WRITE (R503). -/
  | prsLoWrite (a : Agent) (i : Fin 4096) (v : Word)
  /-- PRS_HI_WRITE (R503). -/
  | prsHiWrite (a : Agent) (i : Fin 4096) (v : Word)
  /-- PRS_REMAP_GO (R505). -/
  | prsRemapGo (a : Agent)
  /-- LOG_CLR (R515). -/
  | logClr (a : Agent)
  /-- LOG_PCLEAR (R515). -/
  | logPclear (a : Agent)
  /-- PERSISTENT_RING_WRITE (R513). -/
  | persistentRingWrite
  /-- PDROP_BUCKET_REFILL (R513). -/
  | pdropBucketRefill
  /-- LOG_RING_FAIL (R517). -/
  | logRingFail
  /-- OPTIME_COMMIT (R506). -/
  | optimeCommit (t : BitVec 40)
  /-- I3C_ADDRESS_WRITE (R498). -/
  | i3cAddressWrite (bytes : List Byte)
  /-- I3C_READ (R498). -/
  | i3cRead (n : Nat)
  /-- I3C_SETDASA (R497). -/
  | i3cSetdasa (d : BitVec 7)
  /-- I3C_ENTDAA (R497). -/
  | i3cEntdaa (d : BitVec 7)
  /-- I3C_ENEC (R497). -/
  | i3cEnec
  /-- MGMT_VIO_APPEAR (R526). -/
  | mgmtVioAppear
  /-- INPUT_SAMPLE (R480). -/
  | inputSample (vin iin : BitVec 16)
  /-- INPUT_LOW_TIMEOUT (R480). -/
  | inputLowTimeout
  /-- INPUT_RECOVERY_TIMEOUT (R480). -/
  | inputRecoveryTimeout
  /-- CLOCK_RESTORE_TICK (R480). -/
  | clockRestoreTick
  /-- BROWNOUT_TIMEOUT (R480). -/
  | brownoutTimeout
  /-- POWER_LOSS (R528). -/
  | powerLoss
  /-- PHASE_FAULT (R475). -/
  | phaseFault (rail : Fin 25) (phase : BitVec 8)
  /-- RAIL_FAULT (R476). -/
  | railFault (rail : Fin 25) (phase : Option (BitVec 8))
  /-- LOCAL_DROOP (R481). -/
  | localDroop (cl : Fin 32)
  /-- LOCAL_DROOP_RELEASE (R481). -/
  | localDroopRelease (cl : Fin 32)
  /-- POWER_WINDOW (R482). -/
  | powerWindow (watts : BitVec 16)
  /-- STRETCH_STEP_TICK (R483). -/
  | stretchStepTick
  /-- THERMAL_SAMPLE (R483). -/
  | thermalSample (isl : Fin 100) (t : BitVec 16)
  /-- CLUSTER_IDLE_TIMEOUT (R478). -/
  | clusterIdleTimeout (cl : Fin 32)
  /-- MEMORY_IDLE_TIMEOUT (R478). -/
  | memoryIdleTimeout (u : Fin 40)
  /-- WAKE_REQUEST (R47). -/
  | wakeRequest (isl : Fin 100)
  /-- WAKE_SLOT (R479). -/
  | wakeSlot (t : Fin 4)
  /-- MGMT_WATCHDOG (R485). -/
  | mgmtWatchdog
  /-- HELM_HEARTBEAT_TIMEOUT (R470). -/
  | helmHeartbeatTimeout (h : Fin 20)
  /-- CORE_HW_FAULT (R470). -/
  | coreHwFault (c : Fin 192)
  /-- BRIDGE_FAIL (R26). -/
  | bridgeFail (b : Fin 4)
  /-- SEC_ENGINE_FAIL (R440). -/
  | secEngineFail
  /-- UNIT_FAIL (R469). -/
  | unitFail (u : BitVec 16)
  /-- CABLE_UNMATE (R519). -/
  | cableUnmate (k : Fin 10)
  /-- DATA_PACKET (R251): the 252 bytes of a flit's header and payload and the CRC-32 with them (R243). -/
  | dataPacket (l : Fin 64) (body : List Byte) (crc : Word) (credit : Bool)
  /-- ACK_NACK (R245). -/
  | ackNack (l : Fin 64) (seq : BitVec 12) (nack : Bool)
  /-- ACK_TIMEOUT (R245). -/
  | ackTimeout (l : Fin 64)
  /-- LINK_RETRAIN_DONE (R246). -/
  | linkRetrainDone (l : Fin 66) (lanes : BitVec 4) (ok : Bool) (x : Partner)
  /-- LANE_FEC_WINDOW (R247). -/
  | laneFecWindow (l : Fin 64) (lane : Bool) (corr : BitVec 32) (spares : Fin 3)
  /-- LINK_STATE_EXCHANGE (R253). -/
  | linkStateExchange (coord : BitVec 8) (mask : BitVec 64)
  /-- LINK_CONTROL (R257). -/
  | linkControl (l : Fin 64) (out : Bool) (disabled : Bool)
  /-- PL_DISABLE (R258). -/
  | plDisable (a : Agent) (l : Fin 64) (v : Word)
  /-- PL_RETRAIN (R248). -/
  | plRetrain (a : Agent) (l : Fin 64)
  /-- PL_QCLR (R257). -/
  | plQclr (a : Agent) (l : Fin 64)
  /-- UL_DISABLE (R496). -/
  | ulDisable (a : Agent) (u : Fin 2) (v : Word)
  /-- UL_RETRAIN (R493). -/
  | ulRetrain (a : Agent) (u : Fin 2)
  /-- UL_QCLR (R495). -/
  | ulQclr (a : Agent) (u : Fin 2)
  /-- COLLECTIVE_ADMIT (R274). -/
  | collectiveAdmit (p : Fin 16)
  /-- COLLECTIVE_HEADER (R276). -/
  | collectiveHeader (p : Fin 16) (g : GroupName) (ord : BitVec 48) (h : CollHeader)
  /-- EXPONENT_BATCH (R276). -/
  | exponentBatch (p : Fin 16) (g : GroupName) (ord : BitVec 48) (batch : Nat) (elocs : List (BitVec 16))
  /-- COLLECTIVE_CHUNK (R276). -/
  | collectiveChunk (p : Fin 16) (g : GroupName) (ord : BitVec 48) (chunk : Nat) (data : ChunkData)
  /-- COLLECTIVE_STALL_TIMEOUT (R281). -/
  | collectiveStallTimeout (p : Fin 16) (g : BitVec 12) (ord : BitVec 48)
  /-- HEADER_TIMEOUT (R282). -/
  | headerTimeout (p : Fin 16) (g : BitVec 12) (ord : BitVec 48)
  /-- ABANDON (R281). -/
  | abandon (p : Fin 16) (g : GroupName) (ord : BitVec 48) (rank : Fin 256)
  /-- LEAVE (R264). -/
  | leave (g : BitVec 12) (rank : Fin 256)
  /-- LIST_HASH (R261). -/
  | listHash (g : BitVec 12) (coord : BitVec 8) (hash : Dword)
  /-- GROUP_FORM_TIMEOUT (R263). -/
  | groupFormTimeout (p : Fin 16) (q : Fin 64) (slot : BitVec 16)
  /-- KEEP_ALIVE (R382). -/
  | keepAlive (p : Fin 16) (g : BitVec 12) (ord : BitVec 48) (rank : Fin 256)
  /-- LOAD_CHUNK (R390). -/
  | loadChunk (p : Fin 16) (g : BitVec 12) (ord : BitVec 48) (shard : Nat) (chunk : Nat) (bytes : List Byte) (crc : Dword)
  /-- LOAD_END (R392). -/
  | loadEnd (p : Fin 16) (g : BitVec 12) (ord : BitVec 48)
  /-- LOAD_REREQUEST (R391). -/
  | loadRerequest (p : Fin 16) (g : BitVec 12) (ord : BitVec 48) (shard : Nat) (chunk : Nat)
  /-- LOAD_DEADLINE (R392). -/
  | loadDeadline (p : Fin 16) (g : BitVec 12) (ord : BitVec 48)
  /-- LOAD_FAIL (R393). -/
  | loadFail (p : Fin 16) (g : BitVec 12) (ord : BitVec 48) (rank : Fin 256) (status : BitVec 8) (shard : Nat)
  /-- LOAD_SUCCESS (R393). -/
  | loadSuccess (p : Fin 16) (g : BitVec 12) (ord : BitVec 48) (rank : Fin 256)
  /-- RECOVERY_FETCH (R400). -/
  | recoveryFetch (p : Fin 16) (set : Fin 16) (shard : Nat) (chunk : Nat) (coord : BitVec 8)
  /-- RECOVERY_ANSWER (R401). -/
  | recoveryAnswer (p : Fin 16) (set : Fin 16) (shard : Nat) (chunk : Nat) (bytes : Option (List Byte))
  /-- REPLICA_TIMEOUT (R400). -/
  | replicaTimeout (p : Fin 16) (set : Fin 16) (shard : Nat) (chunk : Nat)
  /-- RECOVERY_TIMEOUT (R402). -/
  | recoveryTimeout (p : Fin 16) (set : Fin 16) (shard : Nat) (chunk : Nat)
  /-- CORE_NOP (R144). -/
  | coreNop (c : Fin 192) (w : Dword)
  /-- END (R141). -/
  | coreEnd (c : Fin 192) (w : Dword)
  /-- JMP (R142). -/
  | jmp (c : Fin 192) (w : Dword)
  /-- BR (R144). -/
  | br (c : Fin 192) (w : Dword)
  /-- LOOP (R142). -/
  | loop (c : Fin 192) (w : Dword)
  /-- LI (R144). -/
  | li (c : Fin 192) (w : Dword)
  /-- LIH (R144). -/
  | lih (c : Fin 192) (w : Dword)
  /-- ALU (R144). -/
  | alu (c : Fin 192) (w : Dword)
  /-- ALUI (R144). -/
  | alui (c : Fin 192) (w : Dword)
  /-- SYS (R144). -/
  | sys (c : Fin 192) (w : Dword)
  /-- ARG (R149). -/
  | arg (c : Fin 192) (w : Dword)
  /-- DMAIN (R145). -/
  | dmain (c : Fin 192) (w : Dword)
  /-- DMAOUT (R145). -/
  | dmaout (c : Fin 192) (w : Dword)
  /-- DMAPEER (R140). -/
  | dmapeer (c : Fin 192) (w : Dword)
  /-- DMAWAIT (R144). -/
  | dmawait (c : Fin 192) (w : Dword)
  /-- DMA_COMPLETE (R141). -/
  | dmaComplete (c : Fin 192)
  /-- TLD (R126). -/
  | tld (c : Fin 192) (w : Dword)
  /-- TST (R126). -/
  | tst (c : Fin 192) (w : Dword)
  /-- SLD (R144). -/
  | sld (c : Fin 192) (w : Dword)
  /-- SST (R144). -/
  | sst (c : Fin 192) (w : Dword)
  /-- AMM (R113). -/
  | amm (c : Fin 192) (w : Dword)
  /-- AFDSET (R112). -/
  | afdset (c : Fin 192) (w : Dword)
  /-- ADRAIN (R119). -/
  | adrain (c : Fin 192) (w : Dword)
  /-- VADD (R127). -/
  | vadd (c : Fin 192) (w : Dword)
  /-- VSUB (R127). -/
  | vsub (c : Fin 192) (w : Dword)
  /-- VMUL (R127). -/
  | vmul (c : Fin 192) (w : Dword)
  /-- VFMA (R127). -/
  | vfma (c : Fin 192) (w : Dword)
  /-- VMIN (R127). -/
  | vmin (c : Fin 192) (w : Dword)
  /-- VMAX (R127). -/
  | vmax (c : Fin 192) (w : Dword)
  /-- VCMP (R127). -/
  | vcmp (c : Fin 192) (w : Dword)
  /-- VSEL (R127). -/
  | vsel (c : Fin 192) (w : Dword)
  /-- VMOV (R127). -/
  | vmov (c : Fin 192) (w : Dword)
  /-- VEXP2 (R127). -/
  | vexp2 (c : Fin 192) (w : Dword)
  /-- VLOG2 (R127). -/
  | vlog2 (c : Fin 192) (w : Dword)
  /-- VRSQRT (R127). -/
  | vrsqrt (c : Fin 192) (w : Dword)
  /-- VRCP (R127). -/
  | vrcp (c : Fin 192) (w : Dword)
  /-- VTANH (R127). -/
  | vtanh (c : Fin 192) (w : Dword)
  /-- VSIG (R127). -/
  | vsig (c : Fin 192) (w : Dword)
  /-- VGELU (R127). -/
  | vgelu (c : Fin 192) (w : Dword)
  /-- RSUM (R128). -/
  | rsum (c : Fin 192) (w : Dword)
  /-- RMAX (R128). -/
  | rmax (c : Fin 192) (w : Dword)
  /-- RMIN (R128). -/
  | rmin (c : Fin 192) (w : Dword)
  /-- BADD (R129). -/
  | badd (c : Fin 192) (w : Dword)
  /-- BSUB (R129). -/
  | bsub (c : Fin 192) (w : Dword)
  /-- BMUL (R129). -/
  | bmul (c : Fin 192) (w : Dword)
  /-- BMAX (R129). -/
  | bmax (c : Fin 192) (w : Dword)
  /-- BMIN (R129). -/
  | bmin (c : Fin 192) (w : Dword)
  /-- VLD (R144). -/
  | vld (c : Fin 192) (w : Dword)
  /-- VST (R144). -/
  | vst (c : Fin 192) (w : Dword)
  /-- VVOP (R144). -/
  | vvop (c : Fin 192) (w : Dword)
  /-- VEXT (R144). -/
  | vext (c : Fin 192) (w : Dword)
  /-- VINS (R144). -/
  | vins (c : Fin 192) (w : Dword)
  /-- CVST (R130). -/
  | cvst (c : Fin 192) (w : Dword)
  /-- CVLD (R130). -/
  | cvld (c : Fin 192) (w : Dword)
  /-- CVT (R132). -/
  | cvt (c : Fin 192) (w : Dword)
  /-- CVCTX (R130). -/
  | cvctx (c : Fin 192) (w : Dword)
  /-- STBIND (R133). -/
  | stbind (c : Fin 192) (w : Dword)
  /-- STACC (R133). -/
  | stacc (c : Fin 192) (w : Dword)
  /-- STEMIT (R133). -/
  | stemit (c : Fin 192) (w : Dword)
  /-- STLP (R135). -/
  | stlp (c : Fin 192) (w : Dword)
  /-- CORE_FENCE (R144). -/
  | coreFence (c : Fin 192) (w : Dword)
  /-- KBAR (R143). -/
  | kbar (c : Fin 192) (w : Dword)
  /-- EVINC (R141). -/
  | evinc (c : Fin 192) (w : Dword)
  /-- EVWAIT (R144). -/
  | evwait (c : Fin 192) (w : Dword)
  /-- CRPOST (R143). -/
  | crpost (c : Fin 192) (w : Dword)
  /-- CRWAIT (R143). -/
  | crwait (c : Fin 192) (w : Dword)
  /-- INSTRUCTION_COMPLETE (R137). -/
  | instructionComplete (c : Fin 192) (u : Fin 3)
  /-- CORE_CYCLES_READ (R156). -/
  | coreCyclesRead (a : Agent) (c : Fin 192)
  /-- EVC_VAL_READ (R218). -/
  | evcValRead (a : Agent) (p : Fin 16)
  /-- GEN_STEP_READ (R290). -/
  | genStepRead (a : Agent) (p : Fin 16)
  /-- COL_LAST_READ (R280). -/
  | colLastRead (a : Agent) (p : Fin 16)
  /-- LOOM_BYTES_READ (R383). -/
  | loomBytesRead (a : Agent) (t : Fin 4)
  /-- SEC_LEAF_READ (R443). -/
  | secLeafRead (a : Agent)
  /-- LOG_VALUE_READ (R516). -/
  | logValueRead (a : Agent) (r : Fin 4)
  /-- RESERVED_ADDRESS_ACCESS (R60). -/
  | reservedAddressAccess (a : Agent) (addr : BitVec 24) (v : Option Word)
  /-- REGISTER_WRITE (R17). -/
  | registerWrite (a : Agent) (addr : BitVec 24) (v : Word)
  /-- PARTNER_LINK_TRAINING (R249). -/
  | partnerLinkTraining (t : LinkTraining)
  /-- RESET_END (R466). -/
  | resetEnd (k : ResetKind) (target : Nat)
  /-- MGMT_VIO_LOSS (R526). -/
  | mgmtVioLoss
  /-- ALWAYS_ON_RAIL_UP (R528). -/
  | alwaysOnRailUp
  deriving DecidableEq, Repr

end Sys2Proof
end

