-- ==== Sys2Proof/Decode.lean ====
section
/-! DEFINITION. The commands that words spell. The rows of spec/opcode_table.json give no bits, so no
word spells a command; a core instruction's own 64-bit word (R144) is an operand of its row. -/

namespace Sys2Proof

/-- The command that the low `nbits` bits of `w` spell by the table: none. -/
def decodeTableWord (_nbits _w : Nat) : Option Instr := none

end Sys2Proof
end

