-- ==== Sys2Proof/Machine/StCore.lean ====
section
/-! DEFINITION. The state of one core (R107), its queues of uncompleted instructions (R137), the Soundings
slots (R332) and the CORE_ registers (R156). Defaults are the state after a core reset (R155). -/

namespace Sys2Proof

/-- A tile register by 128·row + column, or a vector register by element; unlisted elements are +0. -/
abbrev Elems := SMap Word

/-- A feed descriptor (R110). -/
structure FeedDesc where
  data : BitVec 23 := 0
  scale : BitVec 23 := 0
  stride : Dword := 0
  sstride : Dword := 0
  fmt : BitVec 16 := 0
  ext : Nat := 1
  layout : Bool := false
  deriving DecidableEq, Repr

/-- An accumulator bank (R113 to R118). -/
structure Bank where
  isInt : Bool := false
  count : Nat := 0
  vals : Elems := []
  rowCodes : SMap Nat := []
  colCodes : SMap Nat := []
  /-- Rows and columns whose codes were latched at ZERO (R118). -/
  rows : Nat := 0
  cols : Nat := 0
  deriving DecidableEq, Repr

structure ConvCtx where
  seed : Dword := 0
  tensor : Word := 0
  pitch : Dword := 0
  /-- COLS, 1 to 128 once CVCTX has written it, 0 at a kernel's start (R108). -/
  cols : Nat := 0
  slot : BitVec 3 := 0
  deriving DecidableEq, Repr

/-- A Soundings slot or record (R332); MAXEXP 0x8000 = none. -/
structure SndRec where
  bound : Bool := false
  tensor : Word := 0
  elems : Nat := 0
  zero : Nat := 0
  sat : Nat := 0
  nan : Nat := 0
  inf : Nat := 0
  maxExp : Option Int := none
  hist : SMap Nat := []
  unit : Nat := 0
  deriving DecidableEq, Repr

structure LoopEntry where
  first : Nat
  last : Nat
  left : Nat
  deriving DecidableEq, Repr

/-- An instruction that a unit has not completed: registers and scratchpad ranges (start, length) it
reads and writes. Registers: D r = r, X r = 32 + r, V r = 48 + r, bank a.b = 56 + 2·a + b. -/
structure UEntry where
  /-- Its place in the core's order of issue. -/
  no : Nat := 0
  rd : List Nat := []
  wr : List Nat := []
  srd : List (Nat × Nat) := []
  swr : List (Nat × Nat) := []
  /-- The Soundings slot it adds counts to. -/
  slot : Option Nat := none
  deriving DecidableEq, Repr

inductive DmaKind where
  | into | out | peer
  deriving DecidableEq, Repr

/-- An outstanding DMA (R145): its tag, the scratchpad range on this core, the memory range or the
peer core and range it writes. -/
structure DmaEntry where
  no : Nat
  /-- Index of its instruction (CORE_FPC). -/
  pc : Nat := 0
  kind : DmaKind
  tag : Nat
  local_ : Nat
  len : Nat
  /-- Destination address of a DMAOUT, or remote scratchpad address of a DMAPEER. -/
  dst : Nat
  /-- Target rank and physical core of a DMAPEER. -/
  rank : Nat
  core : Nat
  /-- Staged writes of an atomic kernel's DMAOUT: the first one's place and how many (R235). -/
  stg : Nat × Nat := (0, 0)
  deriving DecidableEq, Repr

structure CoreRegs where
  state : BitVec 2 := 0
  rank : BitVec 8 := 0
  /-- Index of the next instruction; 8,192 = past the last one of a full program (R142). -/
  pc : BitVec 14 := 0
  cause : BitVec 8 := 0
  funit : BitVec 3 := 0
  fpc : BitVec 13 := 0
  faddr : BitVec 56 := 0
  eccCorr : BitVec 16 := 0
  eccUncorr : BitVec 16 := 0
  cycles : Dword := 0
  cyclesHi : BitVec 32 := 0
  deriving DecidableEq, Repr

structure Core where
  regs : CoreRegs := {}
  d : SMap Dword := []
  x : SMap Elems := []
  v : SMap Elems := []
  banks : SMap Bank := []
  feeds : SMap FeedDesc := []
  ctx : ConvCtx := {}
  slots : SMap SndRec := []
  cc : SMap Nat := []
  loops : List LoopEntry := []
  ibuf : SMap Dword := []
  count : Nat := 0
  args : List Dword := []
  argVa : Nat := 0
  /-- Scratchpad bytes, and per 64-bit word the poison mark and an error no read has found yet:
  1 correctable, 2 uncorrectable (R124). -/
  scratch : List Host.Cell := []
  /-- What an unlisted scratchpad byte holds: 0 = zero, else the occasion of a free value (R153). -/
  blank : Nat := 0
  poison : SMap Bool := []
  err : SMap Nat := []
  /-- Word addresses found uncorrectable since the last bring-up (R470). -/
  badWords : List Nat := []
  qa : List UEntry := []
  qb : List UEntry := []
  qv : List UEntry := []
  dmas : List DmaEntry := []
  /-- Instructions issued since the kernel started. -/
  issued : Nat := 0
  /-- Soundings records passed to the helm core and not merged yet (R133, R337), oldest first. -/
  emitted : List SndRec := []
  /-- The command that runs on it: partition, queue and ring index; `none` = idle. -/
  job : Option (Nat × Nat × Nat) := none
  deriving DecidableEq, Repr

end Sys2Proof
end

