-- ==== Sys2Proof/Machine/StMem.lean ====
section
/-! DEFINITION. The three memory tiers (R157 to R160), what the module knows of each 64-byte line
(R190, R191, R199), and the registers of the memory ports and controllers (R197, R198). -/

namespace Sys2Proof

inductive Tier where
  | bd | lp | host
  deriving DecidableEq, Repr

/-- A line beside its bytes: the poison mark (R191; for host memory the adapter's marking, R160), the
serial of the key it is encrypted under (0 = plain text, R199), and an error not yet found by a read
(R190): 0 none, 1 one bad symbol, 2 two, and of three or more: 3 taken for one, 4 undetected. -/
structure LineInfo where
  poison : Bool := false
  key : Nat := 0
  err : Nat := 0
  deriving DecidableEq, Repr

/-- The key serial of undefined contents. -/
def undefKey : Nat := 1

/-- One tier: bytes by address and lines by line number. An unlisted byte reads as `unlistedByte`; an
unlisted line has the key serial `base`: 0 after S5, else `undefKey`, the serial of contents that the
spec calls undefined, which no access carries and which read as free values. -/
structure TierMem where
  base : Nat := undefKey
  bytes : List Host.Cell := []
  lines : SMap LineInfo := []
  /-- Withdrawn 4 KiB granules (R196). -/
  gone : SMap Bool := []
  deriving DecidableEq, Repr

/-- What a byte of memory holds when nothing is listed for it: zero, as the final pass of S5 leaves
bonded DRAM and LPDDR6 (R454). Before that, and in host memory that nothing has supplied, the line's
key serial makes it read as a free value instead: log entry 5. -/
def unlistedByte : Byte := 0

/-- A bonded-DRAM port's registers and repair state (R194, R197). -/
structure BdPort where
  corr : BitVec 16 := 0
  uncorr : BitVec 16 := 0
  rows : BitVec 16 := 0
  granules : BitVec 16 := 0
  passes : BitVec 16 := 0
  hours : BitVec 5 := 0x18
  thr : BitVec 4 := 2
  /-- S4 has trained the port (BDP_SPARE is valid after S4). -/
  trained : Bool := false
  /-- Spare rows used, by bank. -/
  used : SMap Nat := []
  /-- Corrected errors of the 64 most recently affected rows, newest first: row (as in SUB of R458) and
  count. -/
  tracked : List (Nat × Nat) := []
  /-- Rows already in a spare row: bank and row. -/
  spared : List (Nat × Nat) := []
  deriving DecidableEq, Repr

/-- An LPDDR6 controller's registers and repair state (R195, R198). -/
structure LpCtrl where
  corr : BitVec 16 := 0
  uncorr : BitVec 16 := 0
  rows : BitVec 16 := 0
  granules : BitVec 16 := 0
  passes : BitVec 16 := 0
  hours : BitVec 5 := 0x18
  thr : BitVec 4 := 2
  softUsed : BitVec 7 := 0
  pprPending : BitVec 7 := 0
  pkgs : BitVec 2 := 0
  /-- Soft-remapped rows: package, bank and row as in SUB of R458. -/
  soft : List (Nat × Nat × Nat) := []
  tracked : List (Nat × Nat) := []
  deriving DecidableEq, Repr

structure MemState where
  bd : TierMem := {}
  lp : TierMem := {}
  host : TierMem := {}
  ports : SMap BdPort := []
  ctrls : SMap LpCtrl := []
  /-- Serial of the next partition key (R199). -/
  nextKey : Nat := 2
  deriving DecidableEq, Repr

end Sys2Proof
end

