-- ==== Sys2Proof/Machine/StGen.lean ====
section
/-! DEFINITION. The state of a partition's serving engine (R288 to R328), its Soundings table registers
(R339), update-engine registers (R343), weight sets (R384 to R402), Tack registers (R413), and the
progress of LOAD and LOOM_MOVE commands. -/

namespace Sys2Proof

/-- The serving descriptor as checked at the enable (R289). -/
structure GenDesc where
  layers : Nat := 0
  hkv : Nat := 0
  klog : Nat := 0
  hdim : Nat := 0
  kvFmt : BitVec 16 := 0
  lstride : Nat := 0
  specHeads : Nat := 0
  specOff : Nat := 0
  windows : Nat := 0
  salt : Dword := 0
  stepQ : Nat := 0
  tplN : Nat := 0
  chunk : Nat := 0
  rowsMax : Nat := 0
  tplVa : Nat := 0
  batchVa : Nat := 0
  outVa : Nat := 0
  sparamVa : Nat := 0
  dirVa : Nat := 0
  dirN : Nat := 0
  profN : Nat := 0
  profVa : Nat := 0
  poolVa : Nat := 0
  poolN : Nat := 0
  reqLog2 : Nat := 0
  evtLog2 : Nat := 0
  pauseMs : Nat := 0
  reqVa : Nat := 0
  evtVa : Nat := 0
  lat : List Nat := []
  deriving DecidableEq, Repr

/-- One extent of the frame pool (R294). -/
structure PoolExtent where
  base : Nat
  lp : Bool
  len : Nat
  deriving DecidableEq, Repr

/-- A page of the cache over all layers: one frame a layer, as (in LPDDR6, DPA); how many windows map
it; whether a directory node owns it (R292, R298). -/
structure KvPage where
  frames : List (Bool × Nat) := []
  refs : Nat := 0
  node : Bool := false
  /-- Its leaves are mapped read-only. -/
  ro : Bool := false
  deriving DecidableEq, Repr

/-- A node of the prefix directory (R295). -/
structure DirNode where
  key : Dword
  parent : Dword
  tokens : List Word
  page : Nat
  refs : Nat
  recency : Nat
  stale : Bool
  deriving DecidableEq, Repr

/-- A live request: one sample (R303 to R325). -/
structure GenReq where
  id : Word
  tag : Word
  window : Nat
  prio : Nat
  score : Bool
  spec : Bool
  noShare : Bool
  stream : Bool
  seed : Dword
  prompt : List Word
  maxNew : Nat
  rollVa : Nat
  tinv : Word
  topP : Word
  topK : Nat
  stop0 : Word
  stop1 : Word
  /-- Its place in a fan-out, and the window that prefills for it until it joins (R321). -/
  sample : Nat
  leader : Option Nat
  /-- Order of admission. -/
  order : Nat
  /-- Positions whose keys and values are in the cache. -/
  valid : Nat
  /-- Rollout records written. -/
  count : Nat := 0
  /-- Last token yielded, once it decodes. -/
  last : Option Word := none
  /-- Guesses for the next step: head and token (R316). -/
  guesses : List (Nat × Word) := []
  zeroRuns : Nat := 0
  specOff : Bool := false
  /-- Reason of the pause, if paused (R326). -/
  paused : Option Nat := none
  /-- Pages in LPDDR6 after PAUSE_MS (R324). -/
  moved : Bool := false
  /-- A CANCEL has won against it while a step that holds its rows ran (R325). -/
  cancelled : Bool := false
  /-- A PAUSE waits for the next step boundary (R324). -/
  pausing : Bool := false
  /-- It is to rejoin a step, which writes its RESUMED event (R323). -/
  resumed : Bool := false
  deriving DecidableEq, Repr

/-- A row of the batch table (R301). -/
structure GenRow where
  target : Word
  pos : Nat
  kind : Nat
  head : Nat
  win : Nat
  token : Word
  deriving DecidableEq, Repr

structure GenStep where
  no : Nat
  rows : List GenRow
  /-- Template commands placed in the step queue so far. -/
  placed : Nat := 0
  /-- Template commands without a record, the ones still to place included. -/
  left : Nat
  /-- First stopping status of a template command and its failing address (R327). -/
  failed : Option (BitVec 8 × Dword) := none
  deriving DecidableEq, Repr

/-- An event that is ready, until the ring takes it (R326). -/
structure GenEvent where
  kind : Nat
  status : Nat := 0
  reason : Nat := 0
  id : Word
  tag : Word
  count : Nat := 0
  step : Nat := 0
  shared : Nat := 0
  deriving DecidableEq, Repr

structure Gen where
  en : Bool := false
  park : Bool := false
  descVa : BitVec 56 := 0
  reqTail : BitVec 17 := 0
  reqHead : BitVec 17 := 0
  evtTail : BitVec 17 := 0
  evtHead : BitVec 17 := 0
  state : BitVec 2 := 0
  err : BitVec 3 := 0
  evtFull : Bool := false
  epoch : BitVec 16 := 0
  stepNo : Dword := 0
  stepHi : BitVec 32 := 0
  desc : GenDesc := {}
  /-- Table pages of the upper half that firmware has linked, by level and prefix (kvTableKey), as page
  numbers, and the leaves it has written there: VA and entry (R162, log entry 8). -/
  tables : SMap Nat := []
  mapped : SMap Nat := []
  extents : List PoolExtent := []
  pages : SMap KvPage := []
  nextPage : Nat := 1
  /-- Pages of each window: page index to page number (0 = none). -/
  wins : SMap (List Nat) := []
  dir : List DirNode := []
  clock : Nat := 0
  reqs : List GenReq := []
  nextOrder : Nat := 0
  step : Option GenStep := none
  /-- Discarded steps in a row, and whether the present step is a retry (R327). -/
  discards : Nat := 0
  retry : Bool := false
  /-- An EN = 0 waits for the current step (R328). -/
  stopping : Bool := false
  /-- Events ready and not yet written, oldest first. -/
  ready : List GenEvent := []
  deriving DecidableEq, Repr

structure Soundings where
  en : Bool := false
  log2n : BitVec 5 := 6
  queue : BitVec 6 := 0
  err : Bool := false
  base : BitVec 56 := 0
  drop : BitVec 32 := 0
  trips : BitVec 32 := 0
  deriving DecidableEq, Repr

structure UpdRegs where
  ctVa : BitVec 56 := 0
  ctN : BitVec 9 := 0
  deriving DecidableEq, Repr

/-- A manifest entry (R388). -/
structure ManEntry where
  copies : Nat
  hostSrc : Bool
  len : Nat
  digest : List Byte
  hostVa : Nat
  dst : List Nat
  repl : List (BitVec 16)
  /-- Index of its first chunk in the CRC table. -/
  crcBase : Nat
  deriving DecidableEq, Repr

/-- A recovery of one chunk (R399 to R402): which page, chunk and source is tried. -/
structure Recovery where
  shard : Nat
  chunk : Nat
  copy : Nat
  /-- 0 to 3: replica entry being asked; 4: HOST_VA. -/
  source : Nat
  deriving DecidableEq, Repr

structure WeightSet where
  state : BitVec 3 := 0
  gen : Bool := false
  last : BitVec 16 := 0
  man : BitVec 56 := 0
  recovered : BitVec 16 := 0
  rejected : BitVec 16 := 0
  entries : List ManEntry := []
  crcVa : Nat := 0
  recoveries : List Recovery := []
  deriving DecidableEq, Repr

structure Tack where
  rekey : Bool := false
  share : BitVec 2 := 1
  salt : Dword := 0
  deriving DecidableEq, Repr

/-- A LOAD from its dispatch to its outcome (R390 to R393). -/
structure LoadRun where
  set : Nat
  coll : Coll
  entries : List ManEntry
  crcVa : Nat
  retVa : Nat
  genFlag : Bool
  /-- Good chunks by shard and chunk number. -/
  good : List (Nat × Nat) := []
  /-- Failed receptions by shard and chunk number, one entry each. -/
  bad : List (Nat × Nat) := []
  /-- The 64 chunks most recently passed on, newest first, with their slot of the region (R391). -/
  kept : List (Nat × Nat × Nat) := []
  passed : Nat := 0
  /-- Chunks (shard, chunk, bytes, CRC-64) and the END that came before this member's data phase. -/
  inbox : List (Nat × Nat × List Byte × Dword) := []
  endIn : Bool := false
  /-- Chunks the head has read, in manifest order (R390). -/
  sent : Nat := 0
  /-- END has arrived, or the deadline has passed with every held shard complete. -/
  ended : Bool := false
  /-- Held shards whose digest is right. -/
  checked : List Nat := []
  /-- This member's own failure: status, DETAIL, shard. -/
  failure : Option (Nat × Nat × Nat) := none
  /-- Outcomes that the members have reported: rank, status (0 = no failure), shard (R393). -/
  reports : List (Nat × Nat × Nat) := []
  deriving DecidableEq, Repr

/-- A layout descriptor (R370). -/
structure Layout where
  rows : Nat
  cols : Nat
  fmt : BitVec 16
  rsplit : Nat
  csplit : Nat
  order : Bool
  split : Bool
  pitch : Nat
  spitch : Nat
  base : Nat
  scale : Nat
  res : Nat
  seed : Dword
  tensor : Nat
  deriving DecidableEq, Repr

/-- What a member reads from a holder as one: the elements of a destination block that lies within one
source part, which the holder's Loom converts, or a single element as it stands (R375, R376). -/
structure MoveUnit where
  conv : Bool
  /-- The source part that holds it. -/
  part : Nat
  /-- Row and column of its elements in the global tensor. -/
  cells : List (Nat × Nat)
  deriving DecidableEq, Repr

/-- A LOOM_MOVE (R377, R378). -/
structure LoomRun where
  coll : Coll
  tensors : List (Layout × Layout)
  /-- Elements received, by tensor, then by global index: bits and 1 + scale code, converted where their
  unit is (R376). -/
  got : SMap (SMap (Nat × Nat)) := []
  /-- Units that other members are to get from this one: tensor, rank, unit. -/
  owed : List (Nat × Nat × MoveUnit) := []
  /-- Units, by tensor and first element, whose own copy is poisoned and another holder has been asked
  for (R382). -/
  asked : List (Nat × Nat) := []
  /-- It waits for a recovery (R382). -/
  waits : Bool := false
  deriving DecidableEq, Repr

end Sys2Proof
end

