-- ==== Sys2Proof/Machine/StPart.lean ====
section
/-! DEFINITION. The state of one partition: composition (R415), translation (R172), Pilot (R189), queues
(R210) and the commands between their fetch and their record (R207, R228), event counters (R213),
the atomic staging region (R235), collectives (R280). Defaults are the reset values. -/

namespace Sys2Proof

/-- Translation registers (R172) and the entries that the requesters' translation caches hold (R169):
requester's unit id · 2⁴⁴ + 4 KiB page number to leaf entry. -/
structure Xlt where
  rootAddr : BitVec 28 := 0
  en : Bool := false
  base : BitVec 27 := 0
  last : BitVec 27 := 0
  invVa : BitVec 56 := 0
  invLog2 : BitVec 6 := 0x0C
  invBusy : Bool := false
  /-- The range of the running invalidation: start and log2 of its size. -/
  runVa : Nat := 0
  runLog2 : Nat := 0
  cache : SMap Dword := []
  deriving DecidableEq, Repr

/-- A route entry as read at the enable (R182). -/
structure RouteEntry where
  va : Nat
  len : Nat
  layer : Nat
  lead : Nat
  release : Bool
  deriving DecidableEq, Repr

/-- A staged leaf: its page, the home leaf and the frame it is staged in (R183). -/
structure StagedLeaf where
  va : Nat
  size : Nat
  home : Dword
  frame : Nat
  deriving DecidableEq, Repr

/-- A page that the module moves: VA, size, destination frame, and the first slot of its leaf once MIG is
set (R174, R178, R183). -/
structure MigPage where
  va : Nat
  size : Nat
  frame : Nat
  slot : Nat := 0
  deriving DecidableEq, Repr

/-- A STAGE occurrence in progress (R184 to R186). -/
structure StageRun where
  entry : Nat
  k : Nat
  /-- Leaves still to copy (VA, size), and the one being copied with its home leaf. -/
  todo : List (Nat × Nat)
  cur : Option (MigPage × Dword)
  /-- Bytes of the entry that are staged. -/
  staged : Nat
  /-- Bytes that were staged when the position reached the occurrence, once it has (R186). -/
  byDeadline : Option Nat
  /-- Its leaves exceed the whole ring: it is never staged (R185). -/
  big : Bool
  deriving DecidableEq, Repr

structure Pilot where
  en : Bool := false
  entries : BitVec 12 := 0
  ctr : BitVec 12 := 0
  period : BitVec 16 := 1
  tableVa : BitVec 56 := 0
  stageBase : BitVec 18 := 0
  stageSize : BitVec 18 := 0
  run : Bool := false
  err : BitVec 3 := 0
  c0 : Dword := 0
  late : BitVec 32 := 0
  route : List RouteEntry := []
  /-- Occurrences of each entry already triggered. -/
  nextK : SMap Nat := []
  active : List StageRun := []
  staged : List StagedLeaf := []
  /-- Next offset in the ring of staged frames. -/
  ringPos : Nat := 0
  deriving DecidableEq, Repr

/-- A queue's registers (R210). -/
structure Queue where
  base : BitVec 56 := 0
  cpl : BitVec 56 := 0
  en : Bool := false
  log2n : BitVec 5 := 4
  prio : BitVec 2 := 0
  vec : BitVec 6 := 0
  tail : BitVec 17 := 0
  head : BitVec 17 := 0
  cplHead : BitVec 17 := 0
  cplTail : BitVec 17 := 0
  state : BitVec 2 := 0
  reason : BitVec 4 := 0
  deriving DecidableEq, Repr

/-- How a command ended (R229, R230). -/
structure CmdEnd where
  status : BitVec 8
  detail : BitVec 16 := 0
  /-- `none` = the partition's helm core. -/
  unit : Option (BitVec 16) := none
  result : Dword := 0
  kept : Bool := false
  logSeq : Option Nat := none
  /-- Ended by an ABORT of its own queue, which never stops for it (R234). -/
  goesOn : Bool := false
  deriving DecidableEq, Repr

/-- A kernel that runs (R147 to R150): its cores in rank order, the ranks past END, the barrier. -/
structure Kernel where
  cores : List Nat
  ended : List Nat := []
  /-- The open barrier: its BID and the ranks that have arrived (R143). -/
  barrier : Option (Nat × List Nat) := none
  /-- Ranges its DMAOUTs have written: start and length (R153). -/
  outs : List (Nat × Nat) := []
  /-- Ranks of the cores that have faulted, each with the end its fault gives (R152). -/
  faults : List (Nat × CmdEnd) := []
  /-- Bytes written to partition memory so far, held against ATM_MAX when atomic (R235). -/
  wrote : Nat := 0
  deriving DecidableEq, Repr

/-- What an executing unit keeps of a dispatched command. -/
inductive Prog where
  | none
  /-- FENCE, WAIT and other commands whose condition is open. -/
  | waiting
  | kernel (k : Kernel)
  /-- Pages to move, pages moved, and the leaf that step 2 wrote for the first page, if it has. -/
  | migrate (todo : List MigPage) (moved : Nat) (marked : Option Dword)
  | coll (c : Coll)
  | form (f : Forming)
  | load (l : LoadRun)
  | loom (l : LoomRun)
  deriving DecidableEq, Repr

/-- A command from its fetch to its record. -/
structure Cmd where
  q : Nat
  idx : Nat
  desc : BitVec 512
  /-- DETAIL of a failed validation (R212). -/
  bad : Option Nat := Option.none
  dispatched : Bool := false
  outcome : Option CmdEnd := Option.none
  /-- Its place among the queue's records that could not be written and are held (R231); 0 = not held. -/
  held : Nat := 0
  /-- Its place in the partition's order of dispatch. -/
  order : Nat := 0
  prog : Prog := .none
  /-- Bytes of the staging region reserved for it, and what it has staged (R235): place (0
  bonded DRAM, 1 LPDDR6, 2 host memory, 3 host memory with ENC), address and bytes within a line; and
  the event increments held. -/
  atm : Nat := 0
  /-- Ranges that a dispatched atomic command is to write, a KERNEL's apart: start and length (R174). -/
  dst : List (Nat × Nat) := []
  staged : List (Nat × Nat × List Byte) := []
  stagedEv : List Nat := []
  /-- Tiles whose Looms it has taken up (R51). -/
  looms : List Nat := []
  deriving DecidableEq, Repr

structure BdShare where
  first : BitVec 6 := 0
  count : BitVec 7 := 0
  deriving DecidableEq, Repr

structure Part where
  en : Bool := false
  sealed : Bool := false
  helm : BitVec 5 := 0
  slots : BitVec 6 := 0
  clMask : BitVec 32 := 0
  chMask : BitVec 16 := 0
  state : BitVec 2 := 0
  err : BitVec 4 := 0
  cores : BitVec 8 := 0
  bd0 : BdShare := {}
  bd1 : BdShare := {}
  bd2 : BdShare := {}
  bd3 : BdShare := {}
  enCount : BitVec 32 := 0
  slotMap : BitVec 64 := 0
  /-- A write of PAR_EN = 0 held until the enable ends (R420). -/
  heldDisable : Bool := false
  /-- The helm core has failed and no other could be bound (R39). -/
  unbound : Bool := false
  /-- Serial of the partition's key; 0 = none (R199). -/
  key : Nat := 0
  /-- The configuration block as it stood when PAR_STATE became 2 (R446). -/
  cfg : List Byte := []
  /-- Partition core index to logical core number (R32). -/
  index : List Nat := []
  /-- A partition reset runs (R465). -/
  resetting : Bool := false
  xlt : Xlt := {}
  plt : Pilot := {}
  queues : SMap Queue := []
  cmds : List Cmd := []
  /-- Commands dispatched so far. -/
  nextOrder : Nat := 0
  /-- Headers that came before this member's own admission: group, epoch, ordinal, header (R275, R276). -/
  early : List (Nat × Nat × Nat × CollHeader) := []
  /-- Commands over a group that another member has abandoned before this member's own exists: group,
  epoch, ordinal (R281, R282). -/
  abandoned : List (Nat × Nat × Nat) := []
  /-- Commands taken in the present round-robin turn, and the queue whose turn it is (R221). -/
  rrQueue : Nat := 0
  rrTaken : Nat := 0
  evc : SMap Dword := []
  evcIdx : BitVec 12 := 0
  evcHi : BitVec 32 := 0
  atmBase : BitVec 18 := 0
  atmSize : BitVec 18 := 0
  col : ColRegs := {}
  gen : Gen := {}
  snd : Soundings := {}
  upd : UpdRegs := {}
  ws : SMap WeightSet := []
  tack : Tack := {}
  deriving DecidableEq, Repr

end Sys2Proof
end

