-- ==== Sys2Proof/Machine/State.lean ====
section
/-! DEFINITION. The whole machine: the queue of waiting commands, and every piece of state that the spec
gives the module. Maps are sparse (SMap): an unlisted key reads as the default of its kind, which is
the reset value. -/

namespace Sys2Proof.Machine

/-- What makes a step stop without a next state. No meaning of this model does: log entry 3. -/
inductive Fault where
  /-- Reserved for an access that the spec says cannot exist; raised by nobody. Safe: it allows
  nothing that the hardware does. -/
  | impossible
  deriving DecidableEq, Repr

inductive Refusal where
  /-- Raised by an arm of `exec` whose command has no meaning yet. Safe: nothing can be proved of
  such a command's effect. -/
  | notModelled (mnemonic : String)
  deriving DecidableEq, Repr

/-- A Loom's registers (R383). -/
structure Loom where
  /-- Partition of the command that it last acted for (R383). -/
  part : BitVec 4 := 0
  bytes : Dword := 0
  bytesHi : BitVec 32 := 0
  deriving DecidableEq, Repr

structure State where
  /-- Commands waiting, first in, first out. -/
  pending : List Instr := []
  /-- The model's own counter of free values: which occasion the next one belongs to. -/
  free : Nat := 0
  board : Board := {}
  mod : ModRegs := {}
  bu : BuState := {}
  cht : ChtState := {}
  rst : RstState := {}
  pwr : PwrState := {}
  clk : ClkState := {}
  ul : SMap UlPort := []
  i3c : I3cState := {}
  prs : PrsState := {}
  log : LogState := {}
  sec : SecState := {}
  mem : MemState := {}
  parts : SMap Part := []
  cores : SMap Core := []
  links : SMap Link := []
  groups : SMap Group := []
  /-- List hashes that came before this member's own GROUP_FORM, by group id: the sender's
  coordinate byte and its hash (R261). -/
  hashes : SMap (List (Nat × Dword)) := []
  looms : SMap Loom := []
  /-- Links out of service on other modules, by coordinate byte, as they last reported (R253). -/
  remote : SMap (BitVec 64) := []
  /-- Interrupts held by a quarantined host-link port, oldest first (R238). -/
  heldIrqs : List (Nat × Nat) := []
  /-- What the module has sent outward, oldest first. -/
  out : List Out := []
  deriving DecidableEq, Repr

/-- The module right after a module reset, with the always-on rail up and power good not yet reached
(R452, R528): every field at its default. -/
def State.reset : State := {}

end Sys2Proof.Machine
end

