-- ==== Sys2Proof/Machine/Ops.lean ====
section
/-! DEFINITION. Shared operations: fields of words, access to the parts of the state, free values, the
persistent store (R502 to R505) and the one way an event enters the Logbook (R508 to R513). -/

namespace Sys2Proof

def Part.queue (x : Part) (q : Nat) : Queue := SMap.get {} x.queues q
def Part.updQueue (x : Part) (q : Nat) (f : Queue → Queue) : Part :=
  { x with queues := SMap.modify {} x.queues q f }

def Part.wset (x : Part) (k : Nat) : WeightSet := SMap.get {} x.ws k
def Part.updWset (x : Part) (k : Nat) (f : WeightSet → WeightSet) : Part :=
  { x with ws := SMap.modify {} x.ws k f }

def prsWorn : Nat := 1000000

/-- Commits one word; its count rises by one (R503, R504). -/
def PrsState.commit (r : PrsState) (i : Nat) (v : Dword) : PrsState :=
  { r with words := SMap.set 0 r.words i v, count := SMap.modify 0 r.count i (· + 1) }

def PrsState.worn (r : PrsState) (i : Nat) : Bool := decide (prsWorn ≤ SMap.get 0 r.count i)

/-- Directs a word to the lowest free spare, whose count starts at 0 (R505). -/
def PrsState.remapWord (r : PrsState) (i : Nat) : PrsState :=
  { r with remap := SMap.set 0 r.remap i (r.sparesUsed + 1), sparesUsed := r.sparesUsed + 1
           count := SMap.set 0 r.count i 0 }

/-- A commit of one of the module's own words (below 2,048): a word that wears out is remapped by the
module itself while a spare is left (R505). -/
def PrsState.commitOwn (r : PrsState) (i : Nat) (v : Dword) : PrsState :=
  if r.worn i then r
  else
    let r := r.commit i v
    if r.worn i && decide (r.sparesUsed < 512) then r.remapWord i else r

/-- The word of a rotating group of eight that holds the largest value, and that value. -/
def rotTop (r : PrsState) (base : Nat) : Nat × Nat :=
  (List.range 8).foldl (fun a k =>
    let v := (SMap.get 0 r.words (base + k)).toNat
    if a.2 < v then (k, v) else a) (7, 0)

/-- Commits a value to the next word of a rotating group of eight. -/
def PrsState.commitNext (r : PrsState) (base : Nat) (v : Dword) : PrsState :=
  r.commitOwn (base + ((rotTop r base).1 + 1) % 8) v

def LogRec.bytes (r : LogRec) : List Byte :=
  leBytes 2 r.code.toNat ++ leBytes 2 r.unit.toNat ++ leBytes 6 r.seq.toNat ++ leBytes 2 r.flags.toNat
  ++ leBytes 8 r.time.toNat ++ leBytes 8 r.arg0.toNat ++ leBytes 4 r.arg1.toNat

def Part.ownsCluster (x : Part) (cl : Nat) : Bool := x.clMask.getLsbD cl

end Sys2Proof

namespace Sys2Proof.Machine

/-! Fields of words. -/

/-- Bits [lo + n − 1 : lo] of a number. -/
def fld (w lo n : Nat) : Nat := w / 2 ^ lo % 2 ^ n

def bit (w i : Nat) : Bool := fld w i 1 == 1

def b2n (b : Bool) : Nat := if b then 1 else 0

/-- A register word from its fields, each as (lowest bit, value). -/
def packWord (fs : List (Nat × Nat)) : Word :=
  BitVec.ofNat 32 (fs.foldl (fun a f => a + f.2 * 2 ^ f.1) 0)

/-- A counter that stops at the top of its field. -/
def satInc {n : Nat} (x : BitVec n) : BitVec n := if x = BitVec.allOnes n then x else x + 1

def satAdd {n : Nat} (x : BitVec n) (k : Nat) : BitVec n :=
  BitVec.ofNat n (min (x.toNat + k) (2 ^ n - 1))

/-! Outcomes. -/

abbrev Ans := Host.Outcome State Fault Refusal

/-! Free values: each occasion has its own number. -/

def State.freeBytes (s : State) (n : Nat) : List Byte :=
  (List.range n).map fun i => Config.freeByte s.free i

def State.freeVal (s : State) : Nat := Config.freeNat s.free

def State.tickFree (s : State) : State := { s with free := s.free + 1 }

/-! Access to the parts of the state. -/

def State.part (s : State) (p : Nat) : Part := SMap.get {} s.parts p
def State.updPart (s : State) (p : Nat) (f : Part → Part) : State :=
  { s with parts := SMap.modify {} s.parts p f }

def State.core (s : State) (c : Nat) : Core := SMap.get {} s.cores c
def State.updCore (s : State) (c : Nat) (f : Core → Core) : State :=
  { s with cores := SMap.modify {} s.cores c f }

def State.link (s : State) (l : Nat) : Link := SMap.get {} s.links l
def State.updLink (s : State) (l : Nat) (f : Link → Link) : State :=
  { s with links := SMap.modify {} s.links l f }

def State.port (s : State) (u : Nat) : UlPort := SMap.get {} s.ul u
def State.updPort (s : State) (u : Nat) (f : UlPort → UlPort) : State :=
  { s with ul := SMap.modify {} s.ul u f }

def State.bdp (s : State) (u : Nat) : BdPort := SMap.get {} s.mem.ports u
def State.updBdp (s : State) (u : Nat) (f : BdPort → BdPort) : State :=
  { s with mem := { s.mem with ports := SMap.modify {} s.mem.ports u f } }

def State.lpc (s : State) (u : Nat) : LpCtrl := SMap.get {} s.mem.ctrls u
def State.updLpc (s : State) (u : Nat) (f : LpCtrl → LpCtrl) : State :=
  { s with mem := { s.mem with ctrls := SMap.modify {} s.mem.ctrls u f } }

def State.island (s : State) (n : Nat) : Island := SMap.get {} s.clk.islands n
def State.updIsland (s : State) (n : Nat) (f : Island → Island) : State :=
  { s with clk := { s.clk with islands := SMap.modify {} s.clk.islands n f } }

def State.loom (s : State) (t : Nat) : Loom := SMap.get {} s.looms t
def State.updLoom (s : State) (t : Nat) (f : Loom → Loom) : State :=
  { s with looms := SMap.modify {} s.looms t f }

/-- The Loom of a tile has written bytes (R383). -/
def State.loomWrote (s : State) (t n : Nat) : State :=
  s.updLoom t fun x => { x with bytes := x.bytes + BitVec.ofNat 64 n }

def State.unit (s : State) (u : Nat) : UnitEntry := SMap.get {} s.cht.units u
def State.updUnit (s : State) (u : Nat) (f : UnitEntry → UnitEntry) : State :=
  { s with cht := { s.cht with units := SMap.modify {} s.cht.units u f } }

def State.updQueue (s : State) (p q : Nat) (f : Queue → Queue) : State :=
  s.updPart p (·.updQueue q f)

def State.emit (s : State) (o : Out) : State := { s with out := s.out ++ [o] }

/-! Unit ids (R49). -/

def uCore (c : Nat) : Nat := 0x1000 + c
def uCluster (c : Nat) : Nat := 0x2000 + c
def uHelm (h : Nat) : Nat := 0x3000 + h
def uBdp (k : Nat) : Nat := 0x6000 + k
def uLpc (k : Nat) : Nat := 0x7000 + k
def uUpd (k : Nat) : Nat := 0x8000 + k
def uLoom (t : Nat) : Nat := 0x9000 + t
def uColl (t : Nat) : Nat := 0xA000 + t
def uLink (l : Nat) : Nat := 0xB000 + l
def uPort (k : Nat) : Nat := 0xC000 + k
def uBridge (b : Nat) : Nat := 0xD000 + b
def uIsland (n : Nat) : Nat := 0xE000 + n
def uRail (n : Nat) : Nat := 0xF000 + n

/-- The active management core (R40) and security engine. -/
def State.uMgmt (s : State) : Nat := if s.mod.mgmtT1 then 0x4001 else 0x4000
def State.uSec (s : State) : Nat := if s.sec.activeT1 then 0x5001 else 0x5000

def State.uid (s : State) (a : Agent) : Nat := (a.unitId s.mod.mgmtT1).toNat

/-- The unit id of a partition's helm core. -/
def State.uPartHelm (s : State) (p : Nat) : Nat := uHelm (s.part p).helm.toNat

/-! The persistent store. -/

def State.prsWord (s : State) (i : Nat) : Dword := SMap.get 0 s.prs.words i

/-! The Logbook. -/

/-- Severity of each code (R532). -/
def severityOf (code : Nat) : Nat :=
  if code ∈ [0x3005, 0x6010, 0x6011, 0x6021, 0x6022, 0x8011, 0xF001, 0xF002] then 0
  else if code ∈ [0x0001, 0x0002, 0x0003, 0x0004, 0x0005, 0x0006, 0x1040, 0x3010, 0x4010, 0x4011,
      0x5001, 0x5010, 0x7003, 0x7005, 0x7012, 0x7020, 0x7021, 0x7032] then 1
  else if code ∈ [0x0012, 0x6032, 0x7014] then 4
  else if code = 0x0020 then 5
  else if code ∈ [0x0010, 0x0011, 0x0013, 0x1010, 0x1020, 0x1021, 0x1050, 0x1051, 0x2001, 0x3001,
      0x3002, 0x3003, 0x3004, 0x3006, 0x4020, 0x6020, 0x6031, 0x7002, 0x7004, 0x7011, 0x7013, 0x7015,
      0x7016, 0x7030, 0x8001, 0x8003, 0x8010, 0xF005] then 3
  else 2

/-- An event as its cause states it. ARG0 and ARG1 are `none` where the spec does not say what they
hold for the code: each is then a free value (log entry 6). `var` is the length and the fields (offset, size, value) of its
variable record (R533). -/
structure Event where
  code : Nat
  unit : Nat
  part : Option Nat := none
  arg0 : Option Nat := none
  arg1 : Option Nat := none
  var : Option (Nat × List (Nat × Nat × Nat)) := none

/-- Power-cycle count (R506), word 1,048. -/
def State.pcycles (s : State) : Nat := (s.prsWord 1048).toNat % 2 ^ 20

def varSize : Nat := 4194304

def overlay (bs : List Byte) (fs : List (Nat × Nat × Nat)) : List Byte :=
  fs.foldl (fun acc f => acc.take f.1 ++ leBytes f.2.1 f.2.2 ++ acc.drop (f.1 + f.2.1)) bs

def putBytes (m : SMap Byte) (at_ : Nat) (bs : List Byte) : SMap Byte :=
  (bs.foldl (fun (a : SMap Byte × Nat) b => (SMap.set 0 a.1 a.2 b, a.2 + 1)) (m, at_)).1

/-- Places a variable record in its ring (R512): the new region, the next position and the record's
offset. -/
def varPlace (l : LogState) (len : Nat) (seq unit : Nat) (code : Nat)
    (fs : List (Nat × Nat × Nat)) : SMap Byte × Nat × Nat :=
  let hdr (n c : Nat) := leBytes 2 n ++ leBytes 2 c ++ leBytes 6 seq ++ leBytes 2 unit ++ leBytes 4 0
  let tail := varSize - l.varPos
  let wraps := decide (tail < len)
  let m := if wraps then
      (if 16 ≤ tail then putBytes l.var l.varPos (hdr tail 0xF0FF)
       else putBytes l.var l.varPos (List.replicate tail 0))
    else l.var
  let off := if wraps then 0 else l.varPos
  let body := overlay (hdr len code ++ List.replicate (len - 16) 0) fs
  (putBytes m off body, off + len, off)

/-- The target answers on its port while the always-on rail and MGMT_VIO are up (R497, R526). -/
def State.i3cUp (s : State) : Bool := s.pwr.mgmtVio && s.pwr.input != .off

/-- Enters one event under the next sequence number (R509, R511, R512). -/
def State.recordCore (s : State) (e : Event) : State :=
  let l := s.log
  let seq := l.nextSeq
  let sev := severityOf e.code
  let v := if l.mirror then none else e.var
  let placed := v.map fun x => varPlace l x.1 seq e.unit e.code x.2
  let flags := (match e.part with | some p => p % 16 + 16 | none => 0) + sev * 32 + b2n v.isSome * 256
  let r : LogRec :=
    { code := BitVec.ofNat 16 e.code, unit := BitVec.ofNat 16 e.unit, seq := BitVec.ofNat 48 seq
      flags := BitVec.ofNat 16 flags
      time := BitVec.ofNat 64 (l.optime.toNat + s.pcycles * 2 ^ 40)
      arg0 := BitVec.ofNat 64 (e.arg0.getD (Config.freeNat s.free))
      arg1 := BitVec.ofNat 32 (match placed with
        | some x => x.2.2
        | none => e.arg1.getD (Config.freeNat (s.free + 1))) }
  let l := { l with
    fixed := SMap.set {} l.fixed (seq % 262144) r
    var := (match placed with | some x => x.1 | none => l.var)
    varPos := (match placed with | some x => x.2.1 | none => l.varPos)
    pwait := if 3 ≤ sev then l.pwait ++ [r] else l.pwait
    nextSeq := seq + 1 }
  let s := { s with log := l, free := s.free + 2 }
  if decide (3 ≤ sev) && s.i3c.ibi && s.i3cUp then s.emit (.ibi sev) else s

/-- Commits a new reservation of 2²⁰ sequence numbers (R511). -/
def State.reserveSeq (s : State) : State :=
  let top := (rotTop s.prs 1032).2
  let top' := top + 2 ^ 20
  { s with prs := s.prs.commitNext 1032 (BitVec.ofNat 64 top')
           log := { s.log with nextSeq := max s.log.nextSeq top, top := top' } }

/-- The Logbook registers an event. -/
def State.record (s : State) (e : Event) : State :=
  (if s.log.top ≤ s.log.nextSeq then s.reserveSeq else s).recordCore e

/-- The sequence number the next event will take. -/
def State.seqNext (s : State) : Nat :=
  if s.log.top ≤ s.log.nextSeq then max s.log.nextSeq (rotTop s.prs 1032).2 else s.log.nextSeq

/-- An event whose ARG0 and ARG1 the spec leaves open. -/
def State.event (s : State) (code unit : Nat) : State := s.record { code, unit }

def State.eventA (s : State) (code unit arg0 arg1 : Nat) : State :=
  s.record { code, unit, arg0 := some arg0, arg1 := some arg1 }

def State.eventP (s : State) (code unit p : Nat) : State := s.record { code, unit, part := some p }

def State.eventPA (s : State) (code unit p arg0 arg1 : Nat) : State :=
  s.record { code, unit, part := some p, arg0 := some arg0, arg1 := some arg1 }

/-- The events of a module word's commit, given the store before it: the write discarded, the word now
worn, and remapped (R504, R505). -/
def State.wearEvents (s : State) (before : PrsState) (i : Nat) : State :=
  let remapped := decide (before.sparesUsed < s.prs.sparesUsed)
  if before.worn i then
    ({ s with prs := { s.prs with writeErr := true } }).event 0x7031 s.uMgmt
  else
    let s := if remapped || s.prs.worn i then s.event 0x7030 s.uMgmt else s
    if remapped then s.event 0x7032 s.uMgmt else s

/-- A commit of a module word with the events of its wear. -/
def State.prsOwn (s : State) (i : Nat) (v : Dword) : State :=
  ({ s with prs := s.prs.commitOwn i v }).wearEvents s.prs i

/-! Cores, clusters and partitions. -/

/-- Cluster of a physical core (R28). -/
def clusterOf (c : Nat) : Nat := c / 6
def tileOfCluster (cl : Nat) : Nat := cl / 8

/-- Island of a cluster (R46). -/
def islandOfCluster (cl : Nat) : Nat := 25 * (cl / 8) + cl % 8

/-! Wakes (R47, R479). -/

/-- Slots that a wake takes: one from STOP, ten from GATE. -/
def wakeSlots (state : Nat) : Nat := if state = 3 then 10 else 1

/-- An island that is stopped or gated joins its tile's FIFO, once. -/
def State.queueWake (s : State) (isl : Nat) : State :=
  let t := isl / 25
  let st := (s.island isl).state.toNat
  let q := SMap.get [] s.clk.wakes t
  if st < 2 || q.any fun e => e.1 == isl then s
  else
    let ws := SMap.set [] s.clk.wakes t (q ++ [(isl, wakeSlots st)])
    { s with clk := { s.clk with wakes := ws } }

def State.awake (s : State) (isl : Nat) : Bool := decide ((s.island isl).state.toNat < 2)

/-- The partition that owns a cluster: the lowest-numbered one in a state other than disabled. -/
def State.ownerOf (s : State) (cl : Nat) : Option Nat :=
  (List.range 16).find? fun p => (s.part p).state != 0 && (s.part p).ownsCluster cl

/-- The physical core of a logical number; `none` for a hole or beyond the last (R30, R31). -/
def State.physOf (s : State) (l : Nat) : Option Nat :=
  if l < s.mod.lcores.toNat then
    match SMap.get 0 s.mod.lmap l with
    | 0 => none
    | k + 1 => some k
  else none

/-- The physical core of a partition core index; `none` where the index is absent (R32). -/
def State.coreAt (s : State) (p i : Nat) : Option Nat :=
  match (s.part p).index[i]? with
  | some l => s.physOf l
  | none => none

/-- Logical cores of a partition's clusters in ascending number, holes left out (R32). -/
def State.indexCores (s : State) (mask : BitVec 32) : List Nat :=
  (List.range s.mod.lcores.toNat).filter fun l =>
    match s.physOf l with
    | some c => mask.getLsbD (clusterOf c)
    | none => false

/-- The tile set in service (R27). -/
def State.tileCut (s : State) (t : Nat) : Bool := s.mod.tileCut.getLsbD t

/-- Commands and events of a partition take effect only while it is enabled (R416). -/
def State.enabled (s : State) (p : Nat) : Bool := (s.part p).state == 2

end Sys2Proof.Machine
end

