-- ==== Sys2Proof/Machine/Flags.lean ====
section
/-! DEFINITION. The status codes of a command (R230), which of them continue (R228), and the flags of
a completion record (R208, R229). -/

namespace Sys2Proof.Machine

def stDone : Nat := 0x00
def stAborted : Nat := 0x01
def stAbortNothing : Nat := 0x02
def stProtection : Nat := 0x10
def stTranslation : Nat := 0x11
def stPoison : Nat := 0x12
def stDescMismatch : Nat := 0x20
def stStepSkew : Nat := 0x21
def stMemberLost : Nat := 0x22
def stOrderStall : Nat := 0x23
def stShardCorrupt : Nat := 0x30
def stShardMissing : Nat := 0x31
def stNonfiniteSkip : Nat := 0x40
def stBusy : Nat := 0x50
def stNoPages : Nat := 0x51
def stWeightLost : Nat := 0x60
def stCancelled : Nat := 0x70
def stDeviceFault : Nat := 0x7F

/-- Every status of R230. -/
def statuses : List Nat :=
  [stDone, stAborted, stAbortNothing, stProtection, stTranslation, stPoison, stDescMismatch, stStepSkew,
   stMemberLost, stOrderStall, stShardCorrupt, stShardMissing, stNonfiniteSkip, stBusy, stNoPages,
   stWeightLost, stCancelled, stDeviceFault]

/-- DONE, ABORT_NOTHING, NONFINITE_SKIP and CANCELLED let the queue continue (R228). -/
def statusContinues (st : Nat) : Bool :=
  st == stDone || st == stAbortNothing || st == stNonfiniteSkip || st == stCancelled

/-- The PHASE bit of the record that goes to completion index `i` of a ring of `n` slots: 1 on the
first pass, alternating (R208). -/
def phaseOf (i n : Nat) : Bool := i / n % 2 == 0

/-- FLAGS of a record: PHASE, LOGGED, DST_KEPT (R229). -/
def recordFlags (phase logged kept : Bool) : Nat := b2n phase + 2 * b2n logged + 4 * b2n kept

/-- An event counter after an addition: it never wraps (R213). -/
def ctrAdd (v : Dword) (n : Nat) : Dword := BitVec.ofNat 64 (min (v.toNat + n) (2 ^ 64 - 1))

/-- The addition would pass 2⁶⁴ − 1. -/
def ctrSaturates (v : Dword) (n : Nat) : Bool := decide (2 ^ 64 - 1 < v.toNat + n)

end Sys2Proof.Machine
end

