-- ==== Sys2Proof/Machine/Mem.lean ====
section
/-! DEFINITION. Memory below translation: frames (R158 to R160), the bytes and marks of lines, line
errors with the retirement of rows (R190 to R196), encryption (R199) and the page walk (R161 to
R170). -/

namespace Sys2Proof

def TierMem.byte (m : TierMem) (a : Nat) : Byte := SMap.get unlistedByte m.bytes a
def TierMem.line (m : TierMem) (l : Nat) : LineInfo := SMap.get { key := m.base } m.lines l
def TierMem.withdrawn (m : TierMem) (l : Nat) : Bool := SMap.get false m.gone (l / 64)
def TierMem.setByte (m : TierMem) (a : Nat) (b : Byte) : TierMem :=
  { m with bytes := SMap.set unlistedByte m.bytes a b }
def TierMem.updLine (m : TierMem) (l : Nat) (f : LineInfo → LineInfo) : TierMem :=
  { m with lines := SMap.modify { key := m.base } m.lines l f }

/-- The line reads as poisoned, or will once it is read: withdrawn, marked, or uncorrectable. -/
def TierMem.bad (m : TierMem) (l : Nat) : Bool :=
  m.withdrawn l || (m.line l).poison || (m.line l).err == 2

def TierMem.setBytes (m : TierMem) (a : Nat) (bs : List Byte) : TierMem :=
  (bs.foldl (fun (x : TierMem × Nat) b => (x.1.setByte x.2 b, x.2 + 1)) (m, a)).1

def MemState.tier (m : MemState) : Tier → TierMem
  | .bd => m.bd | .lp => m.lp | .host => m.host

def MemState.updTier (m : MemState) (t : Tier) (f : TierMem → TierMem) : MemState :=
  match t with
  | .bd => { m with bd := f m.bd }
  | .lp => { m with lp := f m.lp }
  | .host => { m with host := f m.host }

def tierOf : Nat → Tier
  | 0 => .bd | 1 => .lp | _ => .host

/-- A frame's key: 0 for plain text, else the partition's (R199). -/
def frameKey (t : Tier) (enc : Bool) (key : Nat) : Nat :=
  match t with
  | .bd => 0
  | .lp => key
  | .host => if enc then key else 0

/-- A line through the cipher or its inverse. -/
def xtsBytes (f : Equiv.Perm (BitVec 512)) (bs : List Byte) : List Byte :=
  leBytes 64 (f (BitVec.ofNat 512 (leNat bs))).toNat

def TierMem.lineBytes (m : TierMem) (l : Nat) : List Byte := (List.range 64).map fun i => m.byte (64 * l + i)

/-- A line as an access under `key` reads it (R199): the bits that the line holds, deciphered under that
key; 0 reads the bits themselves. -/
def TierMem.view (m : TierMem) (key l : Nat) : List Byte :=
  let k := (m.line l).key
  if k = key then m.lineBytes l
  else
    let bits := if k = 0 then m.lineBytes l else xtsBytes (Config.xts k (64 * l)) (m.lineBytes l)
    if key = 0 then bits else xtsBytes (Config.xts key (64 * l)).symm bits

/-- Zero with valid check codes in every line of a frame range (R432). -/
def TierMem.zeroRange (m : TierMem) (a n : Nat) : TierMem :=
  let inside := fun (k : Nat) => decide (a ≤ k ∧ k < a + n)
  let rest := m.lines.filter fun e => !inside (64 * e.1)
  { m with
    bytes := m.bytes.filter fun e => !inside e.1
    lines := if m.base = 0 then rest
      else (List.range (n / 64)).foldl (fun ls i => SMap.set { key := m.base } ls (a / 64 + i) {}) rest }

/-! The bank range that a partition owns on a tile (R54). -/

def Part.bdShare (x : Part) : Nat → BdShare
  | 0 => x.bd0 | 1 => x.bd1 | 2 => x.bd2 | _ => x.bd3

def Part.ownsBank (x : Part) (t b : Nat) : Bool :=
  decide ((x.bdShare t).first.toNat ≤ b ∧ b < (x.bdShare t).first.toNat + (x.bdShare t).count.toNat)

/-! The cache's geometry (R291 to R293). -/

def log2Up (n : Nat) : Nat := if n ≤ 1 then 0 else (n - 1).log2 + 1

/-- RB of R292. -/
def GenDesc.rowBytes (d : GenDesc) : Nat :=
  let f := FmtWord.of d.kvFmt
  d.hdim * fmtBits f.fmt / 8 + (if fmtNarrow f.fmt then d.hdim / 2 ^ f.blk else 0)

/-- PB of R292. -/
def GenDesc.pageBytes (d : GenDesc) : Nat := 2 * d.hkv * 2 ^ d.klog * d.rowBytes

/-- log2 of F (R292). -/
def GenDesc.fLog (d : GenDesc) : Nat := max 12 (log2Up d.pageBytes)

end Sys2Proof

namespace Sys2Proof.Machine

/-! Frames. -/

/-- Bytes of bonded DRAM on a tile: 96 GiB. -/
def bdTileBytes : Nat := 0x1800000000
def bankBytes : Nat := 0x60000000

def bdTile (a : Nat) : Nat := a / 2 ^ 37
def bdOff (a : Nat) : Nat := a % 2 ^ 37
def bdBank (a : Nat) : Nat := bdOff a / bankBytes
/-- Port 8·t + p that holds the granule (R158). -/
def bdPortOf (a : Nat) : Nat := 8 * bdTile a + bdOff a / 4096 % 8
/-- Row of the port's bank: its granules in ascending order, two rows of 2 KiB each (DEDUCED, log
entry 7). -/
def bdRow (a : Nat) : Nat := bdOff a % bankBytes / 32768 * 2 + a / 2048 % 2

/-- Controller 2·t + k, channel 4·t + 2·k + p (R159). -/
def lpCtrlOf (a : Nat) : Nat := a / 2 ^ 37
def lpChannel (a : Nat) : Nat := a / 2 ^ 36
/-- Package, bank and row: rows of 8 KiB, banks interleaved by row (DESIGN CHOICE, log entry 7). -/
def lpRow (a : Nat) : Nat × Nat × Nat := (a / 2 ^ 36 % 2, a / 8192 % 32, a % 2 ^ 36 / 2 ^ 18)

/-- The frame address lies within its tier (R158, R159). -/
def State.frameOk (s : State) (t : Tier) (a : Nat) : Bool :=
  match t with
  | .bd => decide (a < 2 ^ 39 ∧ bdOff a < bdTileBytes)
  | .lp => decide (a < 2 ^ 40) && (s.board.memCode == 1 || !bit a 36)
  | .host => true

def State.tier (s : State) (t : Tier) : TierMem := s.mem.tier t
def State.updTier (s : State) (t : Tier) (f : TierMem → TierMem) : State :=
  { s with mem := s.mem.updTier t f }

/-! The way to host memory (R160, R492): the first of UL0 and UL1 in service, else the torus. -/

def portLive (u : UlPort) : Bool := u.state == 2 || u.state == 3 || u.state == 4

def State.hostPort (s : State) : Option Nat :=
  if portLive (s.port 0) then some 0 else if portLive (s.port 1) then some 1 else none

/-- Traffic to host memory is held in a port's quarantine (R238, R495). -/
def State.hostHeld (s : State) : Bool :=
  match s.hostPort with
  | some u => (s.port u).state == 4
  | none => false

/-! Repair records (R458, R459). -/

def repairWord (unit sub kind cause : Nat) : Dword :=
  let w := unit + sub * 2 ^ 16 + kind * 2 ^ 40 + cause * 2 ^ 44
  BitVec.ofNat 64 (w + crc8 (leBytes 7 w) * 2 ^ 56)

def State.freeRepairSlot (s : State) : Option Nat :=
  (List.range 1024).find? fun i => s.prsWord i == 0

def State.repairsUsed (s : State) : Nat :=
  ((List.range 1024).filter fun i => s.prsWord i != 0).length

/-- All record words are in use (R459): CHT_MAP_FULL is set, with its event when it was clear. -/
def State.noteMapFull (s : State) : State :=
  if s.cht.mapFull then s
  else ({ s with cht := { s.cht with mapFull := true } }).event 0x7015 s.uMgmt

/-- Appends a record at the lowest empty word; with none left the repair lasts until the next module
reset only. -/
def State.repairRec (s : State) (unit sub kind cause : Nat) : State :=
  match s.freeRepairSlot with
  | none => s.noteMapFull
  | some i =>
    let s := (s.prsOwn i (repairWord unit sub kind cause)).event 0x7012 s.uMgmt
    let n := s.repairsUsed
    let s := { s with cht := { s.cht with mapUsed := BitVec.ofNat 11 n } }
    if n = 1024 then s.noteMapFull else s

/-! Row retirement (R194 to R196). -/

def spareRows : Nat := 1966

/-- Withdraws the granules from `g` on, `n` of them. -/
def State.withdraw (s : State) (t : Tier) (g n : Nat) : State :=
  s.updTier t fun m =>
    { m with gone := (List.range n).foldl (fun acc i => SMap.set false acc (g + i) true) m.gone }

/-- The partition that owns a bank of a tile. -/
def State.bankOwner (s : State) (t b : Nat) : Option Nat :=
  (List.range 16).find? fun p => (s.part p).state != 0 && (s.part p).ownsBank t b

def State.sealedChannel (s : State) (ch : Nat) : Option Nat :=
  (List.range 16).find? fun p =>
    (s.part p).state != 0 && (s.part p).sealed && (s.part p).chMask.getLsbD ch

def State.lineUnit (s : State) (t : Tier) (line : Nat) : Nat :=
  match t with
  | .bd => uBdp (bdPortOf (line * 64))
  | .lp => uLpc (lpCtrlOf (line * 64))
  | .host => match s.hostPort with
    | some u => uPort u
    -- which peer link delivers the data is left open (log entry 19)
    | none => uLink (Config.freePick s.free (2 * line) % 64)

/-- An event that locates a line of this module (R191): `found` is the partition and VA of a translated
access, `none` for any other reader; `low` fills ARG1[29:0]. -/
def State.lineEvent (s : State) (code : Nat) (t : Tier) (line : Nat) (found : Option (Nat × Nat))
    (low : Nat) : State :=
  let a := line * 64
  let u := s.lineUnit t line
  match found with
  | some (p, va) => s.eventPA code u p va low
  | none =>
    match t with
    | .bd =>
      match s.bankOwner (bdTile a) (bdBank a) with
      | some p =>
        let base := ((s.part p).bdShare (bdTile a)).first.toNat * bankBytes
        s.eventPA code u p (bdOff a - base) (2 ^ 30 + low)
      | none => s.eventA code u 0 (3 * 2 ^ 30 + low)
    | _ =>
      match s.sealedChannel (lpChannel a) with
      | some p => s.eventPA code u p (a % 2 ^ 36) (2 * 2 ^ 30 + low)
      | none => s.eventA code u 0 (3 * 2 ^ 30 + low)

/-- Event 0x1010 for a line (R191). -/
def State.poisonEvent (s : State) (t : Tier) (line : Nat) (found : Option (Nat × Nat)) : State :=
  s.lineEvent 0x1010 t line found 0

/-- Event 0x1021 names the granules that a row served: the first as R191 locates a line, and their number
in ARG1[29:0] (DEDUCED, log entry 46). -/
def State.granuleEvent (s : State) (t : Tier) (g n : Nat) : State := s.lineEvent 0x1021 t (64 * g) none n

/-- Counts a corrected line. -/
def State.countCorr (s : State) (t : Tier) (a : Nat) : State :=
  match t with
  | .bd => s.updBdp (bdPortOf a) fun x => { x with corr := satInc x.corr }
  | .lp => s.updLpc (lpCtrlOf a) fun x => { x with corr := satInc x.corr }
  | .host => s

/-- Counts an uncorrectable line. -/
def State.countUncorr (s : State) (t : Tier) (a : Nat) : State :=
  match t with
  | .bd => s.updBdp (bdPortOf a) fun x => { x with uncorr := satInc x.uncorr }
  | .lp => s.updLpc (lpCtrlOf a) fun x => { x with uncorr := satInc x.uncorr }
  | .host => s

/-- The line reads as any data at all: an error beyond what the code sees (R190). -/
def State.garble (s : State) (t : Tier) (line : Nat) : State :=
  (s.updTier t fun m => m.setBytes (line * 64)
    ((List.range 64).map fun i => Config.freeByte s.free (line * 64 + i))).tickFree

/-- The line's error is gone: `wrong` when the code has taken it for something else. -/
def State.settleLine (s : State) (t : Tier) (line : Nat) (wrong : Bool) : State :=
  let s := s.updTier t fun m => m.updLine line fun i => { i with err := 0 }
  if wrong then s.garble t line else s

/-- Marks an uncorrectable line, and counts and records it (R191). -/
def State.poisonLine (s : State) (t : Tier) (line : Nat) (found : Option (Nat × Nat)) : State :=
  let s := s.updTier t fun m => m.updLine line fun i => { i with err := 0, poison := true }
  (s.poisonEvent t line found).countUncorr t (line * 64)

/-- One line that a retirement copies through the code: written corrected, or poisoned (R194, R195). -/
def State.moveLine (s : State) (t : Tier) (line : Nat) : State :=
  match ((s.tier t).line line).err with
  | 1 => (s.settleLine t line false).countCorr t (line * 64)
  | 3 => (s.settleLine t line true).countCorr t (line * 64)
  | 2 => s.poisonLine t line none
  | 4 => s.settleLine t line true
  | _ => s

/-- Lines of the row that holds `a`. -/
def rowLines (t : Tier) (a : Nat) : List Nat :=
  let n := match t with | .lp => 8192 | _ => 2048
  (List.range (n / 64)).map (a / n * (n / 64) + ·)

/-- The port or controller copies the row's lines into the row that takes its place. -/
def State.moveRow (s : State) (t : Tier) (a : Nat) : State :=
  (rowLines t a).foldl (fun s l => s.moveLine t l) s

/-- BDP_ROWS, LPC_ROWS and the granule counts begin with service, after S10 (R197, R469). -/
def countFrom {n : Nat} (on : Bool) (x : BitVec n) (k : Nat) : BitVec n := if on then satAdd x k else x

/-- A row's number as in SUB of R458. -/
def bdRowKey (a : Nat) : Nat := bdBank a + bdRow a * 64
def lpRowKey (a : Nat) : Nat := let k := lpRow a; k.1 + k.2.1 * 2 + k.2.2 * 64

/-- Retires the bonded-DRAM row that holds address `a`; `cause` as in R458. -/
def State.retireBd (s : State) (a cause : Nat) : State :=
  let u := bdPortOf a
  let b := bdBank a
  let r := bdRow a
  if SMap.get 0 (s.bdp u).used b < spareRows then
    let s := (s.repairRec (uBdp u) (bdRowKey a) 2 cause).moveRow .bd a
    let s := s.updBdp u fun x => { x with
      used := SMap.modify 0 x.used b (· + 1), spared := (b, r) :: x.spared
      rows := countFrom s.bu.ready x.rows 1
      tracked := x.tracked.filter fun e => !(e.1 == bdRowKey a) }
    s.event 0x1020 (uBdp u)
  else if SMap.get false s.mem.bd.gone (a / 4096) then s
  else
    let s := s.repairRec (uBdp u) 0 6 cause
    let s := (s.withdraw .bd (a / 4096) 1).updBdp u fun x =>
      { x with granules := countFrom s.bu.ready x.granules 1 }
    s.granuleEvent .bd (a / 4096) 1

/-- Retires the LPDDR6 row that holds address `a`. -/
def State.retireLp (s : State) (a cause : Nat) : State :=
  let u := lpCtrlOf a
  let k := lpRow a
  if (s.lpc u).softUsed.toNat < 64 then
    let s := (s.repairRec (uLpc u) (lpRowKey a) 3 cause).moveRow .lp a
    let s := s.updLpc u fun x => { x with
      softUsed := x.softUsed + 1, pprPending := x.pprPending + 1, soft := k :: x.soft
      rows := countFrom s.bu.ready x.rows 1
      tracked := x.tracked.filter fun e => !(e.1 == lpRowKey a) }
    s.event 0x1020 (uLpc u)
  else if SMap.get false s.mem.lp.gone (a / 4096) then s
  else
    let s := s.repairRec (uLpc u) 0 6 cause
    let s := (s.withdraw .lp (a / 8192 * 2) 2).updLpc u fun x =>
      { x with granules := countFrom s.bu.ready x.granules 2 }
    s.granuleEvent .lp (a / 8192 * 2) 2

/-- One more corrected error of a row in the list of the 64 most recently affected ones: the new
list and the row's count. -/
def trackRow (l : List (Nat × Nat)) (key : Nat) : List (Nat × Nat) × Nat :=
  let n := match l.find? fun e => e.1 == key with
    | some e => e.2 + 1
    | none => 1
  (((key, n) :: l.filter fun e => !(e.1 == key)).take 64, n)

/-- Retires the row that holds `a`. -/
def State.retireRow (s : State) (t : Tier) (a cause : Nat) : State :=
  match t with
  | .bd => s.retireBd a cause
  | .lp => s.retireLp a cause
  | .host => s

/-- A corrected line of bonded DRAM or LPDDR6: counted and written back; the row's threshold retires it
(R190, R194). With three or more bad symbols the correction is wrong. -/
def State.corrected (s : State) (t : Tier) (line : Nat) (wrong : Bool) : State :=
  let a := line * 64
  let s := (s.settleLine t line wrong).countCorr t a
  match t with
  | .bd =>
    let u := bdPortOf a
    let tr := trackRow (s.bdp u).tracked (bdRowKey a)
    let s := s.updBdp u fun x => { x with tracked := tr.1 }
    if (s.bdp u).thr.toNat ≤ tr.2 then s.retireBd a 5 else s
  | .lp =>
    let u := lpCtrlOf a
    let tr := trackRow (s.lpc u).tracked (lpRowKey a)
    let s := s.updLpc u fun x => { x with tracked := tr.1 }
    if (s.lpc u).thr.toNat ≤ tr.2 then s.retireLp a 5 else s
  | .host => s

/-- A line found uncorrectable: marked, counted, recorded, its row retired (R191, R194, R195). -/
def State.uncorrectable (s : State) (t : Tier) (line : Nat) (found : Option (Nat × Nat)) : State :=
  (s.poisonLine t line found).retireRow t (line * 64) 4

def tileOfFrame (t : Tier) (a : Nat) : Nat :=
  match t with
  | .bd => a / 2 ^ 37
  | .lp => a / 2 ^ 38
  | .host => 0

/-- The frame lies on a tile that is cut off (R27). -/
def State.cutFrame (s : State) (t : Tier) (a : Nat) : Bool :=
  t != .host && s.mod.tileCut.getLsbD (tileOfFrame t a)

/-- Reads a line as far as its errors go; the answer says that it has just been poisoned. -/
def State.senseLine (s : State) (t : Tier) (line : Nat) (found : Option (Nat × Nat)) :
    State × Bool :=
  if t == .host || (s.tier t).withdrawn line || s.cutFrame t (line * 64) then (s, false)
  else match (s.tier t).line line |>.err with
    | 1 => (s.corrected t line false, false)
    | 2 => (s.uncorrectable t line found, true)
    | 3 => (s.corrected t line true, false)
    | 4 => (s.settleLine t line true, false)
    | _ => (s, false)

/-! Bytes of a frame under a key (R199). -/

/-- `n` bytes at `a`, all within one line or several, as an access under `key` reads them; undefined
contents are free bytes. -/
def State.rawRead (s : State) (t : Tier) (key a n : Nat) : List Byte :=
  (List.range n).map fun i =>
    let k := ((s.tier t).line ((a + i) / 64)).key
    if k = key then (s.tier t).byte (a + i)
    else if k = undefKey then Config.freeByte s.free (a + i)
    else ((s.tier t).view key ((a + i) / 64)).getD ((a + i) % 64) 0

/-- Writes bytes that lie within one line. A whole line clears poison and takes the key; a part of a
line under another key leaves around it what that key reads there. -/
def State.rawWriteLine (s : State) (t : Tier) (key a : Nat) (bs : List Byte) : State :=
  let line := a / 64
  let whole := a % 64 = 0 ∧ bs.length = 64
  let info := (s.tier t).line line
  if (s.tier t).withdrawn line then s
  else if whole then
    s.updTier t fun m => (m.updLine line fun _ => { key := key }).setBytes a bs
  else if info.key = key then s.updTier t (·.setBytes a bs)
  else
    let rest := s.rawRead t key (line * 64) 64
    (s.updTier t fun m =>
      ((m.updLine line fun i => { i with key := key }).setBytes (line * 64) rest).setBytes a bs).tickFree

/-- Cuts [a, a + n) at line boundaries: start and length of each piece; `fuel` bounds their number. -/
def linePieces : Nat → Nat → Nat → List (Nat × Nat)
  | 0, _, _ => []
  | fuel + 1, a, n =>
    if n = 0 then []
    else
      let k := min n (64 - a % 64)
      (a, k) :: linePieces fuel (a + k) (n - k)

def piecesOf (a n : Nat) : List (Nat × Nat) := linePieces (n / 64 + 2) a n

/-- Writes a run of bytes, line by line. -/
def State.rawWrite (s : State) (t : Tier) (key a : Nat) (bs : List Byte) : State :=
  ((piecesOf a bs.length).foldl (fun (x : State × List Byte) pc =>
    (x.1.rawWriteLine t key pc.1 (x.2.take pc.2), x.2.drop pc.2)) (s, bs)).1

/-- Marks a line poisoned with nothing recorded: a copied poison mark (R176). -/
def State.markPoison (s : State) (t : Tier) (line key : Nat) : State :=
  s.updTier t fun m => m.updLine line fun _ => { poison := true, key := key }

/-! The walk (R163 to R167). -/

def State.rd64 (s : State) (a : Nat) : Nat :=
  leNat ((List.range 8).map fun i => s.mem.bd.byte (a + i))

def State.wr64 (s : State) (a v : Nat) : State := s.updTier .bd (·.setBytes a (leBytes 8 v))

/-- How an access can fail: held (R175, R238), or a status, with event 0x1011 where R167 says so. -/
inductive XErr where
  | held
  | status (st : Nat) (ev : Bool)
  deriving DecidableEq, Repr

/-- An answer, or how the access failed. -/
inductive Rs (α : Type) where
  | ok (a : α)
  | err (e : XErr)
  deriving DecidableEq, Repr

/-- A translated address: its place, the leaf it came through and the leaf's VA. -/
structure Hit where
  tier : Tier
  addr : Nat
  leaf : Nat
  deriving DecidableEq, Repr

def leafPs (e : Nat) : Nat := fld e 58 5
def leafTier (e : Nat) : Nat := fld e 56 2
def leafFrame (e : Nat) : Nat := fld e 12 44 * 4096
def leafSize (e : Nat) : Nat := 2 ^ (leafPs e + 12)
def leafPin (e : Nat) : Bool := bit e 2
def leafRo (e : Nat) : Bool := bit e 3
def leafFrz (e : Nat) : Bool := bit e 4
def leafEnc (e : Nat) : Bool := bit e 5
def leafPsn (e : Nat) : Bool := bit e 6
def leafMig (e : Nat) : Bool := bit e 7

/-- PS matches the level of the leaf (R165). -/
def psAtLevel (lvl ps : Nat) : Bool :=
  match lvl with
  | 0 => decide (ps ≤ 8)
  | 1 => decide (9 ≤ ps ∧ ps ≤ 17)
  | 2 => ps == 18
  | _ => false

/-- Check 6 of R167 for a leaf at a level. -/
def State.leafOk (s : State) (lvl e : Nat) : Bool :=
  psAtLevel lvl (leafPs e) && leafTier e != 3 && leafFrame e % leafSize e == 0
  && s.frameOk (tierOf (leafTier e)) (leafFrame e)

/-- The table at [a, a + n) lies in the partition's table region (R166). -/
def xltIn (x : Xlt) (a n : Nat) : Bool :=
  decide (x.base.toNat * 4096 ≤ a ∧ a + n ≤ (x.last.toNat + 1) * 4096)

/-- The walk from a table: the lines it reads, then the level, slot address and leaf. -/
def State.walkFrom (s : State) (x : Xlt) (va : Nat) :
    Nat → Nat → List Nat → List Nat × Rs (Nat × Nat × Nat)
  | lvl, tbl, seen =>
    let idx := if lvl = 4 then fld va 48 8 else fld va (12 + 9 * lvl) 9
    let a := tbl + 8 * idx
    let e := s.rd64 a
    let seen := seen ++ [a / 64]
    if s.mem.bd.bad (a / 64) then (seen, .err (.status stPoison false))
    else if !bit e 0 then (seen, .err (.status stTranslation false))
    else if bit e 1 then
      if s.leafOk lvl e then (seen, .ok (lvl, a, e)) else (seen, .err (.status stTranslation false))
    else match lvl with
      | 0 => (seen, .err (.status stTranslation false))
      | l + 1 =>
        if leafTier e != 0 || !xltIn x (leafFrame e) 4096 then
          (seen, .err (.status stTranslation true))
        else walkFrom s x va l (leafFrame e) seen

/-- Slots that a leaf of level `lvl` fills (R165). -/
def leafSlots (lvl e : Nat) : Nat := 2 ^ (leafPs e - 9 * lvl)

/-- Address of the first of the slots that hold the leaf found at slot `a`. -/
def leafBase (lvl a e : Nat) : Nat := a - a / 8 % leafSlots lvl e * 8

/-- Replicas that differ: which one a requester uses is undefined, so a free value picks it (R165). -/
def State.pickReplica (s : State) (lvl a e : Nat) : Rs (Nat × Nat × Nat) :=
  let n := leafSlots lvl e
  let k := if n = 1 then 0 else Config.freePick s.free (2 * a + 1) % n
  let e' := s.rd64 (leafBase lvl a e + 8 * k)
  if bit e' 0 && bit e' 1 && s.leafOk lvl e' then .ok (lvl, a, e')
  else .err (.status stTranslation false)

/-- Checks 1 to 6 of R167 by a fresh walk: lines read, then level, slot address and leaf. -/
def State.walk (s : State) (p va : Nat) : List Nat × Rs (Nat × Nat × Nat) :=
  let x := (s.part p).xlt
  let root := x.rootAddr.toNat * 2048
  if !x.en then ([], .err (.status stTranslation false))
  else if !xltIn x root 2048 then ([], .err (.status stTranslation true))
  else
    match s.walkFrom x va 4 root [] with
    | (seen, .ok (lvl, a, e)) => (seen, s.pickReplica lvl a e)
    | r => r

/-- The leaf of a fresh walk. -/
def State.walkLeaf (s : State) (p va : Nat) : Rs Nat :=
  match (s.walk p va).2 with
  | .ok k => .ok k.2.2
  | .err e => .err e

/-- Key of a translation cache's entry: the requester that keeps it and the page (R169). -/
def cacheKey (unit va : Nat) : Nat := unit * 2 ^ 44 + va / 4096 % 2 ^ 44

/-- The leaf that a requester uses for a VA: the one it has cached or, as a free value decides, the
walked one (R170). -/
def State.leafFor (s : State) (p unit va : Nat) : List Nat × Rs Nat :=
  let c := (SMap.get 0 (s.part p).xlt.cache (cacheKey unit va)).toNat
  if (s.part p).xlt.en && c != 0 && Config.freePick s.free (2 * (va / 4096)) % 2 == 1 then ([], .ok c)
  else
    ((s.walk p va).1, s.walkLeaf p va)

inductive Access where
  | read | write | update
  deriving DecidableEq, Repr

/-- Checks 7 and 8 of R167, and the holds: a write to a migrating page (R175), host memory behind a
quarantined port (R238). -/
def State.leafCheck (s : State) (acc : Access) (e : Nat) : Option XErr :=
  if leafPsn e then some (.status stPoison false)
  else if acc != .read && leafRo e then some (.status stProtection false)
  else if acc == .update && leafFrz e then some (.status stProtection false)
  else if acc != .read && leafMig e then some .held
  else if leafTier e == 2 && s.hostHeld then some .held
  else none

/-- Checks 7 and 8 of R167 for the leaf of an access, then its place. -/
def State.placeAt (s : State) (acc : Access) (va : Nat) (leaf : Rs Nat) : Rs Hit :=
  match leaf with
  | .err e => .err e
  | .ok e =>
    match s.leafCheck acc e with
    | some x => .err x
    | none => .ok ⟨tierOf (leafTier e), leafFrame e + va % leafSize e, e⟩

/-- Where a requester's access goes, through check 8. -/
def State.place (s : State) (p unit : Nat) (acc : Access) (va : Nat) : Rs Hit :=
  s.placeAt acc va (s.leafFor p unit va).2

/-- Check 9: a read or a partial write of a poisoned line; every access to a withdrawn one (R196) or
to a tile that is cut off (R27). -/
def State.lineRefused (s : State) (acc : Access) (h : Hit) (n : Nat) : Bool :=
  (s.tier h.tier).withdrawn (h.addr / 64) || s.cutFrame h.tier h.addr
  || ((s.tier h.tier).bad (h.addr / 64) && (acc == .read || n != 64))

/-- A requester's cache keeps the leaf it used (R169); an entry already there stays until it is
invalidated. -/
def State.cacheLeaf (s : State) (p unit va leaf : Nat) : State :=
  let k := cacheKey unit va
  s.updPart p fun x =>
    if SMap.get 0 x.xlt.cache k = 0 then
      { x with xlt := { x.xlt with cache := SMap.set 0 x.xlt.cache k (BitVec.ofNat 64 leaf) } }
    else x

/-- Removes every requester's entries that overlap [va, va + n) (R170). -/
def xltDrop (x : Xlt) (va n : Nat) : Xlt :=
  { x with cache := x.cache.filter fun e =>
      let page := e.1 % 2 ^ 44
      !(decide (page * 4096 < va + n ∧ va < (page + 1) * 4096)) }

def State.invalidate (s : State) (p va n : Nat) : State :=
  s.updPart p fun x => { x with xlt := xltDrop x.xlt va n }

/-- Writes a leaf into every slot of the page and invalidates it: a leaf change by the module
itself (R165, R170). -/
def State.setLeaf (s : State) (p va lvl slot old new : Nat) : State :=
  let n := leafSlots lvl old
  let base := leafBase lvl slot old
  let s := (List.range n).foldl (fun s i => s.wr64 (base + 8 * i) new) s
  s.invalidate p (va / leafSize old * leafSize old) (leafSize old)

/-- Every replica still holds `e` (R177). -/
def State.replicasHold (s : State) (lvl slot e : Nat) : Bool :=
  (List.range (leafSlots lvl e)).all fun i => s.rd64 (leafBase lvl slot e + 8 * i) == e

end Sys2Proof.Machine
end

