-- ==== Sys2Proof/Machine/Access.lean ====
section
/-! DEFINITION. Translated accesses with all their effects (R160, R167, R190, R191), without what a
poisoned line means to a weight set (Recover.lean). Every access answers with the lines that it found
uncorrectable. -/

namespace Sys2Proof.Machine

/-- Where a translated access failed, whose it was, and the Logbook record about it, if any (R167,
R191, R229). -/
structure Miss where
  va : Nat
  unit : Nat
  log : Option Nat
  deriving DecidableEq, Repr

/-- How a translated access ends: held with no effect, or failed with a status. -/
inductive XR (α : Type) where
  | ok (a : α)
  | held
  | fail (st : Nat) (at_ : Miss)
  deriving DecidableEq, Repr

/-- Who accesses: partition, and the unit id of the requester (R167). -/
structure Req where
  part : Nat
  unit : Nat
  deriving DecidableEq, Repr

/-- The fabric DMA engine of a tile, which has no unit id of its own and is named by its clock island
(R46, R49; DESIGN CHOICE, log entry 47). -/
def uDma (t : Nat) : Nat := uIsland (25 * t + 22)

/-- What the helm core of a partition reads and writes itself goes through the DMA engine of its tile
(R169; DESIGN CHOICE, log entry 47). -/
def State.helmReq (s : State) (p : Nat) : Req := ⟨p, uDma ((s.part p).helm.toNat / 5)⟩

abbrev Found := List (Tier × Nat)

/-- What a chain of accesses comes to: its end, or the state in which one of them is held. -/
inductive Went (α : Type) where
  | on (a : α)
  | wait (s : State)
  deriving DecidableEq, Repr

/-- Reads each line's errors in turn. -/
def State.senseLines (s : State) (t : Tier) (ls : List Nat) (found : Option (Nat × Nat)) :
    State × Found :=
  ls.foldl (fun x l =>
    let r := x.1.senseLine t l found
    (r.1, if r.2 then x.2 ++ [(t, l)] else x.2)) (s, [])

/-- The clock island of the port or controller behind a frame address (R46). -/
def homeIsland (t : Tier) (a : Nat) : Option Nat :=
  match t with
  | .bd => some (25 * bdTile a + 8 + bdPortOf a % 8)
  | .lp => some (25 * (lpCtrlOf a / 2) + 20 + lpCtrlOf a % 2)
  | .host => none

/-- The first stopped island among those of some lines: a request to it is held there (R47). -/
def State.asleep (s : State) (ls : List (Tier × Nat)) : Option Nat :=
  ls.findSome? fun l => match homeIsland l.1 (64 * l.2) with
    | some i => if s.awake i || s.cutFrame l.1 (64 * l.2) then none else some i
    | none => none

/-- The state when a request is held: only the wake that it has asked for is new. -/
def State.waking (s t : State) : State := { s with clk := t.clk }

/-- The table lines of a walk are read in order; the answer's last part is the record of the one found
uncorrectable, which is the last of them (R191). -/
def State.senseTables (s : State) (ls : List Nat) (p va : Nat) : State × Found × Option Nat :=
  let x := s.senseLines .bd ls.dropLast (some (p, va))
  let y := x.1.senseLines .bd (ls.drop (ls.length - 1)) (some (p, va))
  (y.1, x.2 ++ y.2, if y.2.isEmpty then none else some x.1.seqNext)

/-- The leaf that a requester uses, once the lines that its walk reads have been sensed. -/
def State.senseLeaf (s : State) (p unit va : Nat) : State × Rs Nat × Found × Option Nat :=
  let r := s.leafFor p unit va
  let x := s.senseTables r.1 p va
  (x.1, if r.1.isEmpty then r.2 else x.1.walkLeaf p va, x.2.1, x.2.2)

/-- One translated access of `n` bytes within a line, up to the data itself. -/
def State.xpiece (s : State) (r : Req) (acc : Access) (va n : Nat) : State × XR Hit × Found :=
  let x := s.senseLeaf r.part r.unit va
  let w := x.1.placeAt acc va x.2.1
  let tables := (s.leafFor r.part r.unit va).1
  let target := match w with
    | .ok h => [(h.tier, h.addr / 64)]
    | .err _ => []
  match s.asleep (tables.map ((Tier.bd, ·)) ++ target) with
  | some isl => (s.queueWake isl, .held, [])
  | none =>
  match w with
  | .err .held => (s, .held, [])
  | .err (.status st ev) =>
    (if ev then x.1.eventP 0x1011 r.unit r.part else x.1,
      .fail st ⟨va, r.unit, if ev then some x.1.seqNext else x.2.2.2⟩, x.2.2.1)
  | .ok h =>
    let line := h.addr / 64
    let refused := x.1.lineRefused acc h n
    let touches := acc == .read || n != 64
    let y := if touches then x.1.senseLines h.tier [line] (some (r.part, va)) else (x.1, [])
    let s1 := y.1.cacheLeaf r.part r.unit va h.leaf
    let byHost := refused && h.tier == .host
    (if byHost then s1.poisonEvent .host line (some (r.part, va)) else s1,
      if refused then .fail stPoison ⟨va, r.unit,
        if byHost then some s1.seqNext else if y.2.isEmpty then none else some x.1.seqNext⟩ else .ok h,
      x.2.2.1 ++ y.2)

/-- The key a partition's access uses at a place. -/
def State.keyAt (s : State) (p : Nat) (h : Hit) : Nat :=
  frameKey h.tier (leafEnc h.leaf) (s.part p).key

/-- Reads pieces in ascending address; the first failure ends the read. -/
def xreadGo (r : Req) : List (Nat × Nat) → State → List Byte → Found → State × XR (List Byte) × Found
  | [], s, acc, f => (s.tickFree, .ok acc, f)
  | (va, n) :: ps, s, acc, f =>
    match s.xpiece r .read va n with
    | (s', .ok h, f') =>
      xreadGo r ps s' (acc ++ s'.rawRead h.tier (s'.keyAt r.part h) h.addr n) (f ++ f')
    | (s', .held, _) => (s', .held, [])
    | (s', .fail st a, f') => (s', .fail st a, f ++ f')

def State.xreadBase (s : State) (r : Req) (va n : Nat) : State × XR (List Byte) × Found :=
  xreadGo r (piecesOf va n) s [] []

/-- With every island awake: an access inside a larger operation waits for its island's wake, which
costs only time there (R47). -/
def State.lit (s : State) : State := { s with clk := { s.clk with islands := [] } }

/-- A read that only a quarantine still holds. -/
def State.xreadLit (s : State) (r : Req) (va n : Nat) : State × XR (List Byte) × Found :=
  let x := s.xreadBase r va n
  match x.2.1 with
  | .held =>
    let y := s.lit.xreadBase r va n
    ({ y.1 with clk := x.1.clk }, y.2)
  | _ => x

/-- Writes pieces in ascending address; `upd` = by an update engine. The first failure ends it. -/
def xwriteGo (r : Req) (acc : Access) :
    List (Nat × Nat) → State → List Byte → Found → State × XR Unit × Found
  | [], s, _, f => (s.tickFree, .ok (), f)
  | (va, n) :: ps, s, bs, f =>
    match s.xpiece r acc va n with
    | (s', .ok h, f') =>
      xwriteGo r acc ps (s'.rawWriteLine h.tier (s'.keyAt r.part h) h.addr (bs.take n)) (bs.drop n)
        (f ++ f')
    | (s', .held, _) => (s', .held, [])
    | (s', .fail st a, f') => (s', .fail st a, f ++ f')

def State.xwriteBase (s : State) (r : Req) (acc : Access) (va : Nat) (bs : List Byte) :
    State × XR Unit × Found :=
  xwriteGo r acc (piecesOf va bs.length) s bs []

/-- Where each piece of a write would go, nothing written: the check of a staged write (R235) and of
a range that is checked first. -/
def xcheckGo (r : Req) (acc : Access) :
    List (Nat × Nat) → State → List (Hit × Nat) → Found → State × XR (List (Hit × Nat)) × Found
  | [], s, hs, f => (s.tickFree, .ok hs, f)
  | (va, n) :: ps, s, hs, f =>
    match s.xpiece r acc va n with
    | (s', .ok h, f') => xcheckGo r acc ps s' (hs ++ [(h, n)]) (f ++ f')
    | (s', .held, _) => (s', .held, [])
    | (s', .fail st a, f') => (s', .fail st a, f ++ f')

def State.xcheckBase (s : State) (r : Req) (acc : Access) (va n : Nat) :
    State × XR (List (Hit × Nat)) × Found :=
  xcheckGo r acc (piecesOf va n) s [] []

/-- A destination whose contents are undefined: every byte that can be written takes a free value. -/
def State.scramble (s : State) (p va n : Nat) : State :=
  ((piecesOf va n).foldl (fun s pc =>
    match s.placeAt .write pc.1 (s.walkLeaf p pc.1) with
    | .ok h =>
      if s.lineRefused .write h pc.2 then s
      else s.rawWriteLine h.tier (s.keyAt p h) h.addr
        ((List.range pc.2).map fun i => Config.freeByte s.free (pc.1 + i))
    | .err _ => s) s).tickFree

/-! Pages of a range. -/

/-- A page as the walk finds it. -/
structure PageRef where
  va : Nat
  lvl : Nat
  slot : Nat
  leaf : Nat
  deriving DecidableEq, Repr

/-- The pages that overlap [va, lim), ascending, or the first failure. -/
def State.pagesGo (s : State) (p lim : Nat) : Nat → Nat → List PageRef → Rs (List PageRef)
  | 0, _, acc => .ok acc
  | fuel + 1, va, acc =>
    if lim ≤ va then .ok acc
    else match (s.walk p va).2 with
      | .err e => .err e
      | .ok (lvl, slot, e) =>
        let start := va / leafSize e * leafSize e
        pagesGo s p lim fuel (start + leafSize e) (acc ++ [⟨start, lvl, slot, e⟩])

def State.pages (s : State) (p va n : Nat) : Rs (List PageRef) :=
  s.pagesGo p (va + n) (n / 4096 + 2) va []

/-- Every page of the range is mapped, pinned, without PSN, and in bonded DRAM or (with `host`) in
host memory with ENC = 0 (R166, R203). -/
def State.pinnedRange (s : State) (p va n : Nat) (host : Bool) : Bool :=
  match s.pages p va n with
  | .err _ => false
  | .ok ps => ps.all fun g => leafPin g.leaf && !leafPsn g.leaf
      && (leafTier g.leaf == 0 || (host && leafTier g.leaf == 2 && !leafEnc g.leaf))

end Sys2Proof.Machine
end

