-- ==== Sys2Proof/Machine/GenOps.lean ====
section
/-! DEFINITION. The serving engine's own records: frames of the pool (R294), pages and windows (R292,
R293, R298), the prefix directory (R295 to R297, R410), events that are ready (R326), the end of a
request (R325, R327), and what a weight set means to requests (R401, R402). The only memory
written here is that of the upper half's tables (R162) and of the directory's entries; a frame or
window that the spec lets the engine choose is a free pick (log entry 23). -/

namespace Sys2Proof

def GenDesc.tokens (d : GenDesc) : Nat := 2 ^ d.klog
/-- F of R292. -/
def GenDesc.frame (d : GenDesc) : Nat := 2 ^ d.fLog
/-- POSMAX of R293. -/
def GenDesc.posMax (d : GenDesc) : Nat := min (2 ^ (d.lstride + d.klog) / d.frame) (2 ^ 24) - 1
def GenDesc.pageOf (d : GenDesc) (pos : Nat) : Nat := pos / d.tokens

/-- VA of page `i` of layer `l` in window `w` (R293). -/
def GenDesc.pageVa (d : GenDesc) (w l i : Nat) : Nat :=
  2 ^ 55 + w * 2 ^ 36 + l * 2 ^ d.lstride + i * d.frame

def evAdmitted : Nat := 1
def evRejected : Nat := 2
def evTokens : Nat := 3
def evFinished : Nat := 4
def evPaused : Nat := 5
def evResumed : Nat := 6
def evCancelled : Nat := 7
def evSpecOff : Nat := 8
def evEntryDone : Nat := 9
def evFailed : Nat := 10

/-- The engine runs, is parked, stops, or is in its fault state. -/
def Gen.active (g : Gen) : Bool := g.state != 0

/-! Frames. -/

def Gen.usedFrames (g : Gen) : List (Bool × Nat) := g.pages.flatMap fun e => e.2.frames

/-- Frames of the pool in a tier that hold no page. -/
def Gen.freeFrames (g : Gen) (lp : Bool) : List Nat :=
  let used := g.usedFrames
  ((g.extents.filter fun e => e.lp == lp).flatMap fun e =>
    (List.range (e.len / g.desc.frame)).map fun i => e.base + i * g.desc.frame).filter
    fun a => !used.contains (lp, a)

/-- `n` frames of a tier; `pick` chooses. -/
def pickFrames (pick : Nat → Nat) : Nat → List Nat → List Nat
  | 0, _ => []
  | n + 1, free =>
    match free[pick n % free.length]? with
    | none => []
    | some a => a :: pickFrames pick n (free.erase a)

/-! Pages and windows. -/

def Gen.page (g : Gen) (n : Nat) : KvPage := SMap.get {} g.pages n
def Gen.updPage (g : Gen) (n : Nat) (f : KvPage → KvPage) : Gen :=
  { g with pages := SMap.modify {} g.pages n f }

/-- Page number at an index of a window, 0 = none. -/
def Gen.at_ (g : Gen) (w i : Nat) : Nat := (SMap.get [] g.wins w).getD i 0

def Gen.setAt (g : Gen) (w i n : Nat) : Gen :=
  { g with wins := SMap.modify [] g.wins w fun l =>
      (l ++ List.replicate (i + 1 - l.length) 0).set i n }

def nodeAdd (n : Nat) (k : Int) (x : DirNode) : DirNode :=
  if x.page = n then { x with refs := ((x.refs : Int) + k).toNat } else x

/-- A stale node goes once nothing refers to it (R410). -/
def Gen.dropStale (g : Gen) : Gen :=
  let gone := g.dir.filter fun x => x.stale && x.refs == 0
  { g with
    dir := g.dir.filter fun x => !(x.stale && x.refs == 0)
    pages := gone.foldl (fun m x => SMap.set {} m x.page {}) g.pages }

/-- A window maps a page that exists: it is shared, hence read-only (R296, R298). -/
def Gen.hold (g : Gen) (w i n : Nat) : Gen :=
  let g := g.updPage n fun x => { x with refs := x.refs + 1, ro := true }
  ({ g with dir := g.dir.map (nodeAdd n 1) }).setAt w i n

/-- A window gives up one page: private frames return to the pool. -/
def Gen.drop (g : Gen) (n : Nat) : Gen :=
  let x := g.page n
  let g := { g with dir := g.dir.map (nodeAdd n (-1)) }
  if x.refs ≤ 1 ∧ !x.node then { g with pages := SMap.set {} g.pages n {} }
  else (g.updPage n fun x => { x with refs := x.refs - 1 }).dropStale

/-- A fresh private page of `L` bonded-DRAM frames at an index of a window. -/
def Gen.newPage (g : Gen) (pick : Nat → Nat) (w i : Nat) : Gen :=
  let fs := pickFrames pick g.desc.layers (g.freeFrames false)
  let n := g.nextPage
  ({ g with
    pages := SMap.set {} g.pages n { frames := fs.map ((false, ·)), refs := 1 }
    nextPage := n + 1 }).setAt w i n

def Gen.freeWin (g : Gen) (w : Nat) : Gen :=
  let l := SMap.get [] g.wins w
  let g := l.foldl (fun g n => if n = 0 then g else g.drop n) g
  { g with wins := SMap.erase g.wins w }

/-! The directory. -/

/-- Key of a block (R295). -/
def blockKey (klog : Nat) (prev : Dword) (tokens : List Word) : Dword :=
  sha256Key (leBytes 8 prev.toNat ++ [BitVec.ofNat 8 klog] ++ tokens.flatMap fun t => leBytes 4 t.toNat)

def blockTokens (d : GenDesc) (prompt : List Word) (i : Nat) : List Word :=
  (prompt.drop (i * d.tokens)).take d.tokens

/-- Keys of blocks 0 to n − 1, in order. -/
def blockKeys (d : GenDesc) (prompt : List Word) (n : Nat) : List Dword :=
  ((List.range n).foldl (fun (a : List Dword × Dword) i =>
    let k := blockKey d.klog a.2 (blockTokens d prompt i)
    (a.1 ++ [k], k)) ([], d.salt)).1

/-- Whole blocks within positions 0 to P − 2. -/
def shareBlocks (d : GenDesc) (P : Nat) : Nat := (P - 1) / d.tokens

/-- The lookup of R296: the nodes hit, in order, and whether it stopped at a key with other tokens. -/
def lookupGo (g : Gen) (prompt : List Word) : List Dword → Nat → List DirNode × Bool
  | [], _ => ([], false)
  | k :: ks, i =>
    match g.dir.find? fun x => x.key == k && !x.stale with
    | none => ([], false)
    | some x =>
      if x.tokens = blockTokens g.desc prompt i then
        let r := lookupGo g prompt ks (i + 1)
        (x :: r.1, r.2)
      else ([], true)

def Gen.lookup (g : Gen) (prompt : List Word) : List DirNode × Bool :=
  lookupGo g prompt (blockKeys g.desc prompt (shareBlocks g.desc prompt.length)) 0

/-- Nodes that were looked up are the most recent. -/
def Gen.touch (g : Gen) (hits : List DirNode) : Gen :=
  hits.foldl (fun g h =>
    { g with
      clock := g.clock + 1
      dir := g.dir.map fun x => if x.key = h.key then { x with recency := g.clock + 1 } else x }) g

/-- A node that can be evicted (R297): unreferenced and without a child. -/
def evictable (g : Gen) (x : DirNode) : Bool := x.refs == 0 && !(g.dir.any fun y => y.parent == x.key)

/-- The least recently looked-up node that can be evicted. -/
def Gen.evictee (g : Gen) : Option DirNode :=
  match g.dir.filter (evictable g) with
  | [] => none
  | x :: xs => some (xs.foldl (fun a b => if b.recency < a.recency then b else a) x)

def Gen.evict (g : Gen) (x : DirNode) : Gen :=
  { g with dir := g.dir.filter fun y => y.key != x.key, pages := SMap.set {} g.pages x.page {} }

/-- Evicts until `need` bonded frames are free or nothing is left to evict. -/
def evictGo (need : Nat) : Nat → Gen → Gen
  | 0, g => g
  | fuel + 1, g =>
    if need ≤ (g.freeFrames false).length then g
    else match g.evictee with
      | none => g
      | some x => evictGo need fuel (g.evict x)

/-- Inserts block `i` of a window's prompt under its key, if its key is absent and there is room (R297). -/
def Gen.insert (g : Gen) (w i : Nat) (key parent : Dword) (tokens : List Word) : Gen × Bool :=
  let n := g.at_ w i
  if n = 0 || (g.page n).node || (g.dir.any fun x => x.key == key) then (g, false)
  else
    let room := if g.dir.length < g.desc.dirN then some g
      else match g.evictee with
        | some x => if g.desc.dirN = 0 then none else some (g.evict x)
        | none => none
    match room with
    | none => (g, false)
    | some g =>
      let g := g.updPage n fun x => { x with node := true, ro := true }
      ({ g with
        clock := g.clock + 1
        dir := g.dir ++ [⟨key, parent, tokens, n, (g.page n).refs, g.clock + 1, false⟩] }, true)

/-- Every node becomes stale; unreferenced ones go at once (R410). -/
def Gen.rekey (g : Gen) (salt : Dword) : Gen :=
  let d := { g.desc with salt := salt }
  let nodes := g.dir.map fun x => { x with stale := true }
  ({ g with desc := d, dir := nodes }).dropStale

/-! Requests and events. -/

def Gen.push (g : Gen) (e : GenEvent) : Gen := { g with ready := g.ready ++ [e] }

/-- A live id: from ADMITTED to the final event (R321). -/
def Gen.live (g : Gen) (id : Word) : Option GenReq := g.reqs.find? fun r => r.id == id && !r.cancelled

def Gen.byWin (g : Gen) (w : Nat) : Option GenReq := g.reqs.find? fun r => r.window == w

def Gen.updReq (g : Gen) (w : Nat) (f : GenReq → GenReq) : Gen :=
  { g with reqs := g.reqs.map fun r => if r.window = w then f r else r }

def reqEvent (r : GenReq) (kind : Nat) (status reason step : Nat := 0) : GenEvent :=
  { kind := kind, status := status, reason := reason, id := r.id, tag := r.tag, count := r.count
    step := step }

/-- The request has rows in the running step. -/
def Gen.inStep (g : Gen) (r : GenReq) : Bool :=
  match g.step with
  | some st => st.rows.any fun x => x.win == r.window
  | none => false

/-- Positions before `n` of a window are mapped into another one. -/
def Gen.share (g : Gen) (src dst n : Nat) : Gen :=
  (List.range (ceilDiv n g.desc.tokens)).foldl (fun g i =>
    if g.at_ src i = 0 then g else g.hold dst i (g.at_ src i)) g

/-- Samples whose leader has the prompt but its last token in the cache join (R321). -/
def Gen.join (g : Gen) (r : GenReq) : Gen :=
  if r.prompt.length - 1 ≤ r.valid then
    (g.reqs.filter fun f => f.leader == some r.window && !f.cancelled).foldl (fun g f =>
      (g.share r.window f.window (r.prompt.length - 1)).updReq f.window fun x =>
        { x with leader := none, valid := r.prompt.length - 1 }) g
  else g

/-- A leader that ends before its samples have joined hands the prefill to the first of them (DESIGN
CHOICE, log entry 23). -/
def Gen.handOver (g : Gen) (r : GenReq) : Gen :=
  match g.reqs.filter fun f => f.leader == some r.window && f.window != r.window with
  | [] => g
  | f :: _ =>
    let g := g.share r.window f.window r.valid
    { g with reqs := g.reqs.map fun x =>
        if x.window = f.window then { x with leader := none, valid := r.valid }
        else if x.leader = some r.window then { x with leader := some f.window } else x }

/-- Releases a request's window, frames and node references (R325). -/
def Gen.release (g : Gen) (r : GenReq) : Gen :=
  let g := g.handOver r
  let g := g.freeWin r.window
  { g with reqs := g.reqs.filter fun x => x.window != r.window }

/-- The request ends with a final event; one with rows in a running step keeps its window until that
step ends. -/
def Gen.endReq (g : Gen) (r : GenReq) (kind status reason : Nat) (step : Nat := 0) : Gen :=
  let g := g.push (reqEvent r kind status reason step)
  if g.inStep r then g.updReq r.window fun x => { x with cancelled := true } else g.release r

def Gen.fail (g : Gen) (r : GenReq) (status reason : Nat) : Gen := g.endReq r evFailed status reason

/-- Pauses a request, with its event (R326). A PAUSE of the host that waits for the step's end waits on. -/
def Gen.pause (g : Gen) (r : GenReq) (reason : Nat) : Gen :=
  (g.updReq r.window fun x =>
    { x with paused := some reason, pausing := x.pausing && reason != 1, resumed := false }).push
    (reqEvent r evPaused 0 reason)

/-- Runs: neither paused nor cancelled. -/
def reqRuns (r : GenReq) : Bool := r.paused.isNone && !r.cancelled

/-- Requests of descending priority and, within one, in admission order (R303). -/
def byPriority (rs : List GenReq) : List GenReq :=
  [3, 2, 1, 0].flatMap fun k => rs.filter fun r => r.prio == k

/-- Requests paused with reason 4 end once a set is LOST (R402). -/
def Gen.weightLost (g : Gen) : Gen :=
  (g.reqs.filter fun r => r.paused == some 4 && !r.cancelled).foldl
    (fun g r => g.fail r Machine.stWeightLost 2) g

end Sys2Proof

namespace Sys2Proof.Machine

def State.gen (s : State) (p : Nat) : Gen := (s.part p).gen

/-! The upper half's tables (R162, R163, R293), in the partition's table region; which of its pages the
firmware takes is a free pick among those that nothing else uses (DESIGN CHOICE, log entry 8). -/

/-- Level of the tables that hold a leaf (R165). -/
def leafLevel (e : Nat) : Nat := leafPs e / 9

/-- The leaf of one frame of a page (R293): never pinned, read-only while it is shared. -/
def kvEntry (d : GenDesc) (x : KvPage) (f : Bool × Nat) : Nat :=
  3 + b2n x.ro * 8 + f.2 + b2n f.1 * 2 ^ 56 + (d.fLog - 12) * 2 ^ 58

/-- Every leaf that the engine's windows call for: VA and entry. -/
def kvLeaves (g : Gen) : List (Nat × Nat) :=
  g.wins.flatMap fun w => w.2.zipIdx.flatMap fun n =>
    if n.1 = 0 then []
    else (g.page n.1).frames.zipIdx.map fun f =>
      (g.desc.pageVa w.1 f.2 n.2, kvEntry g.desc (g.page n.1) f.1)

/-- Key of the table of level `lvl` on the way to a VA. -/
def kvTableKey (lvl va : Nat) : Nat := lvl * 2 ^ 44 + va / 2 ^ (21 + 9 * lvl)

/-- Tables that the entries of one lead to, by page number, levels `fuel` deep. -/
def State.tablesBelow (s : State) (x : Xlt) : Nat → Nat → Nat → List Nat
  | 0, _, _ => []
  | fuel + 1, tbl, n =>
    (List.range n).flatMap fun i =>
      let e := s.rd64 (tbl + 8 * i)
      if bit e 0 && !bit e 1 && leafTier e == 0 && xltIn x (leafFrame e) 4096 then
        leafFrame e / 4096 :: tablesBelow s x fuel (leafFrame e) 512
      else []

/-- Pages of the table region that neither the root, nor the host's tables, nor the firmware's own
take. -/
def State.freeTables (s : State) (p : Nat) : List Nat :=
  let x := (s.part p).xlt
  let used := x.rootAddr.toNat / 2 :: s.tablesBelow x 4 (x.rootAddr.toNat * 2048) 128
    ++ (s.gen p).tables.map (·.2)
  ((List.range (x.last.toNat + 1)).drop x.base.toNat).filter fun n => !used.contains n

/-- The table on the way to a VA, `d` levels below the root: linked on demand. -/
def State.kvTable (s : State) (p va : Nat) : Nat → State × Option Nat
  | 0 => (s, some ((s.part p).xlt.rootAddr.toNat * 2048))
  | d + 1 =>
    match kvTable s p va d with
    | (s, none) => (s, none)
    | (s, some up) =>
      let key := kvTableKey (3 - d) va
      let n := SMap.get 0 (s.gen p).tables key
      if n ≠ 0 then (s, some (n * 4096))
      else
        let free := s.freeTables p
        match free[Config.freePick s.free key % free.length]? with
        | none => (s, none)
        | some n =>
          let idx := if d = 0 then fld va 48 8 else fld va (12 + 9 * (4 - d)) 9
          let s := (s.rawWrite .bd 0 (n * 4096) (List.replicate 4096 0)).wr64 (up + 8 * idx) (n * 4096 + 1)
          ((s.updPart p fun x => { x with gen := { x.gen with
              tables := SMap.set 0 x.gen.tables key n } }).tickFree, some (n * 4096))

/-- Writes an entry into every slot of its page (R165). -/
def State.kvSlots (s : State) (tbl va e v : Nat) : State :=
  let lvl := leafLevel e
  (List.range (leafSlots lvl e)).foldl (fun s i => s.wr64 (tbl + 8 * (fld va (12 + 9 * lvl) 9 + i)) v) s

/-- Maps a page; without a free table page it stays unmapped. -/
def State.kvMap (s : State) (p va e : Nat) : State :=
  match s.kvTable p va (4 - leafLevel e) with
  | (s, none) => s
  | (s, some tbl) => (s.kvSlots tbl va e e).updPart p fun x => { x with gen := { x.gen with
      mapped := SMap.set 0 x.gen.mapped va e } }

/-- Unmaps a page: V = 0 in its slots. -/
def State.kvUnmap (s : State) (p va : Nat) : State :=
  let e := SMap.get 0 (s.gen p).mapped va
  let n := SMap.get 0 (s.gen p).tables (kvTableKey (leafLevel e) va)
  (if n = 0 then s else s.kvSlots (n * 4096) va e 0).updPart p fun x => { x with gen := { x.gen with
    mapped := SMap.erase x.gen.mapped va } }

/-- Brings the tables to what the engine's windows call for. -/
def State.kvSync (s : State) (p : Nat) : State :=
  let x := (s.part p).xlt
  if !x.en || !xltIn x (x.rootAddr.toNat * 2048) 2048 then s
  else
    let want := kvLeaves (s.gen p)
    let s := ((s.gen p).mapped.filter fun e => !(want.any fun w => w.1 == e.1)).foldl
      (fun s e => s.kvUnmap p e.1) s
    want.foldl (fun s w =>
      if SMap.get 0 (s.gen p).mapped w.1 = w.2 then s else s.kvMap p w.1 w.2) s

/-- The upper half begins empty: the firmware's root entries are zero and no table is linked. -/
def State.kvClear (s : State) (p : Nat) : State :=
  let x := (s.part p).xlt
  let root := x.rootAddr.toNat * 2048
  let s := if x.en && xltIn x root 2048 then
      (List.range 128).foldl (fun s i => s.wr64 (root + 8 * (128 + i)) 0) s
    else s
  s.updPart p fun x => { x with gen := { x.gen with tables := [], mapped := [] } }

/-- New translation registers with the engine on: its tables are built anew (R171; DEDUCED, log
entry 8). -/
def State.kvRebuild (s : State) (p : Nat) : State :=
  if (s.gen p).active then ((s.kvClear p).kvSync p).invalidate p (2 ^ 55) (2 ^ 55) else s

/-! The directory's entries in memory (R295). -/

/-- NS. -/
def dirEntryBytes (d : GenDesc) : Nat := ceilDiv (64 + 8 * d.layers + 4 * d.tokens) 64 * 64

/-- Entry `i` of the directory has changed: its form is the engine's own, hence free bytes (log
entry 8). -/
def State.dirEntry (s : State) (p i : Nat) : State :=
  let d := (s.gen p).desc
  s.scramble p (d.dirVa + dirEntryBytes d * i) (dirEntryBytes d)

/-- Every entry that differs from `old`. -/
def State.dirSync (s : State) (p : Nat) (old : List DirNode) : State :=
  let now := (s.gen p).dir
  (List.range (max old.length now.length)).foldl (fun s i =>
    if old[i]? == now[i]? then s else s.dirEntry p i) s

/-- A change by the engine: the directory's entries and the upper half's tables follow it, and every leaf
that it may have changed is invalidated (R162, R170, R295, R298). -/
def State.updGen (s : State) (p : Nat) (f : Gen → Gen) : State :=
  let old := (s.gen p).dir
  (((s.updPart p fun x => { x with gen := f x.gen }).dirSync p old).kvSync p).invalidate p
    (2 ^ 55) (2 ^ 55)

/-- Some set that the serving engine reads is in the state. -/
def State.genSets (s : State) (p : Nat) (st : Nat) : Bool :=
  (List.range 16).any fun k => ((s.part p).wset k).gen && ((s.part p).wset k).state.toNat == st

/-- What a set that is LOST now does to requests paused with reason 4 (R402). -/
def State.genWeights (s : State) (p : Nat) : State := s.updGen p (·.weightLost)

end Sys2Proof.Machine
end

