-- ==== Sys2Proof/Machine/Route.lean ====
section
/-! DEFINITION. Coordinates and links of the torus (R239 to R242), the routing of R250 to R253 over the
links that are in service, flits as bytes (R243, R244), and the sending of packets into the links' replay
buffers (R245). -/

namespace Sys2Proof.Machine

/-! Links and directions: X+ X− Y+ Y− Z+ Z− W+ W− are 0 to 7. -/

def dirOf (l : Nat) : Nat := if l < 60 then l / 10 else 6 + (l - 60) / 2
def dirBase (d : Nat) : Nat := if d < 6 then 10 * d else 60 + 2 * (d - 6)
def dirCount (d : Nat) : Nat := if d < 6 then 10 else 2
def dirOpp (d : Nat) : Nat := if d % 2 = 0 then d + 1 else d - 1
/-- The link that link `l` connects to on the neighbour (R240). -/
def partnerLink (l : Nat) : Nat := dirBase (dirOpp (dirOf l)) + (l - dirBase (dirOf l))

/-! Coordinates. -/

def coordDim (c i : Nat) : Nat := fld c (2 * i) 2

/-- This module's coordinate byte (R242). -/
def State.coord (s : State) : Nat :=
  s.mod.coordX.toNat + 4 * s.mod.coordY.toNat + 16 * s.mod.coordZ.toNat + 64 * s.mod.coordW.toNat

def State.dimSize (s : State) : Nat → Nat
  | 0 => s.mod.sizeX.toNat + 1
  | 1 => s.mod.sizeY.toNat + 1
  | 2 => s.mod.sizeZ.toNat + 1
  | _ => s.mod.sizeW.toNat + 1

/-- The byte names a module of the system. -/
def State.coordOk (s : State) (c : Nat) : Bool :=
  (List.range 4).all fun i => decide (coordDim c i < s.dimSize i)

def State.allCoords (s : State) : List Nat := (List.range 256).filter s.coordOk

/-- The neighbour in a direction (R240). -/
def State.neighbour (s : State) (c d : Nat) : Nat :=
  let i := d / 2
  let n := s.dimSize i
  let v := coordDim c i
  c - v * 4 ^ i + (v + (if d % 2 = 0 then 1 else n - 1)) % n * 4 ^ i

/-! Links in service. A link held for a retraining still counts (R246). -/

def linkServes (k : Link) : Bool :=
  (k.state == 2 || k.state == 3 || (k.state == 1 && k.lanes != 0)) && !k.partnerOut && !k.mgmtMode
    && !k.quar

def linkRuns (k : Link) : Bool := k.state == 2 || k.state == 3

/-- This end, or what the module at the other end last reported (R253). -/
def State.endServes (s : State) (c l : Nat) : Bool :=
  if c = s.coord then linkServes (s.link l) else !(SMap.get 0 s.remote c).getLsbD l

def State.linkServed (s : State) (c l : Nat) : Bool :=
  decide (1 < s.dimSize (dirOf l / 2)) && s.endServes c l
    && s.endServes (s.neighbour c (dirOf l)) (partnerLink l)

/-! Routes, as lists of directions. -/

/-- The neighbour in a direction when any of its links is in service. -/
def State.hop (s : State) (c d : Nat) : Option Nat :=
  if (List.range (dirCount d)).any fun j => s.linkServed c (dirBase d + j) then some (s.neighbour c d)
  else none

def State.hops (s : State) (d : Nat) : Nat → Nat → Option Nat
  | 0, c => some c
  | n + 1, c => match s.hop c d with
    | some c' => hops s d n c'
    | none => none

/-- One leg of a route: its directions, where it ends, and whether it is all on VC 2. -/
structure Leg where
  dirs : List Nat
  stop : Nat
  detour : Bool
  deriving DecidableEq, Repr

/-- Dimension `i` up to coordinate `t`: fewer hops, + on a tie; the other way round when that way is
closed (R250, R252). -/
def State.legDim (s : State) (c i t : Nat) : Option Leg :=
  let n := s.dimSize i
  let fwd := (t + n - coordDim c i) % n
  let plus := (2 * i, fwd)
  let minus := (2 * i + 1, n - fwd)
  if fwd = 0 then some ⟨[], c, false⟩
  else
    let a := if fwd ≤ n - fwd then plus else minus
    let b := if fwd ≤ n - fwd then minus else plus
    match s.hops a.1 a.2 c with
    | some e => some ⟨List.replicate a.2 a.1, e, false⟩
    | none => match s.hops b.1 b.2 c with
      | some e => some ⟨List.replicate b.2 b.1, e, true⟩
      | none => none

/-- The dimension after `i`, in order, that has more than one module (log entry 19). -/
def State.nextDim (s : State) (i : Nat) : Option Nat :=
  ([1, 2, 3].map fun k => (i + k) % 4).find? fun e => decide (1 < s.dimSize e)

/-- A detour: one hop aside, dimension `i`, and back (R252). -/
def State.legDetour (s : State) (c i t : Nat) : Option Leg :=
  match s.nextDim i with
  | none => none
  | some e => [2 * e, 2 * e + 1].findSome? fun d =>
    match s.hop c d with
    | none => none
    | some y => match s.legDim y i t with
      | none => none
      | some g => match s.hop g.stop (dirOpp d) with
        | none => none
        | some z => some ⟨[d] ++ g.dirs ++ [dirOpp d], z, true⟩

def State.legOf (s : State) (c i t : Nat) : Option Leg :=
  match s.legDim c i t with
  | some g => some g
  | none => s.legDetour c i t

def State.routeGo (s : State) (dest : Nat) : List Nat → Nat → Option (List Leg)
  | [], _ => some []
  | i :: is, c => match s.legOf c i (coordDim dest i) with
    | none => none
    | some g => (routeGo s dest is g.stop).map (g :: ·)

/-- The route from a module to another in dimension order X, Y, Z, W. -/
def State.route (s : State) (a b : Nat) : Option (List Leg) := s.routeGo b [0, 1, 2, 3] a

def State.reaches (s : State) (c : Nat) : Bool := (s.route s.coord c).isSome

/-- Hops of a route of R250, which goes the shorter way round each ring. -/
def State.hopsTo (s : State) (a b : Nat) : Nat :=
  ((List.range 4).map fun i =>
    let n := s.dimSize i
    let d := (coordDim b i + n - coordDim a i) % n
    min d (n - d)).sum

/-- The first hop: its direction and whether it belongs to a detour. -/
def firstHop (gs : List Leg) : Option (Nat × Bool) :=
  gs.findSome? fun g => g.dirs.head?.map fun d => (d, g.detour)

/-- The link that a stream takes in a direction: its own, or the next one in service (R251, R252). -/
def State.streamLink (s : State) (c d stream : Nat) : Option Nat :=
  let n := dirCount d
  ((List.range n).map fun k => dirBase d + (stream % n + k) % n).find? (s.linkServed c)

/-- The hop from `c` in direction `d` crosses the wrap of its dimension (R250). -/
def State.crossesWrap (s : State) (c d : Nat) : Bool :=
  let v := coordDim c (d / 2)
  if d % 2 = 0 then v + 1 == s.dimSize (d / 2) else v == 0

/-- Virtual channel of a hop: 2 on a detour; else 1 from the crossing of the wrap on, within one
dimension; a packet on VC 2 stays there (R250, R252). `came` is the direction of travel on which the packet arrived with `vc`. -/
def State.hopVc (s : State) (d : Nat) (detour : Bool) (came : Option (Nat × Nat)) : Nat :=
  let kept := match came with
    | some (e, vc) => e / 2 == d / 2 && vc == 1
    | none => false
  let two := match came with
    | some (_, vc) => vc == 2
    | none => false
  if detour || two then 2 else if kept || s.crossesWrap s.coord d then 1 else 0

/-! Flits as bytes. -/

/-- Bytes 0 to 11 (R244). -/
def flitHeader (f : Flit) : List Byte :=
  leBytes 12 (f.kind.toNat + f.vc.toNat * 2 ^ 4 + f.seq.toNat * 2 ^ 6 + f.ack.toNat * 2 ^ 18
    + f.dest.toNat * 2 ^ 30 + f.src.toNat * 2 ^ 38 + f.stream.toNat * 2 ^ 46 + f.part.toNat * 2 ^ 50
    + f.group.toNat * 2 ^ 54 + f.len.toNat * 2 ^ 66 + f.reason.toNat * 2 ^ 74 + f.rsv.toNat * 2 ^ 82)

/-- Header and payload, which the CRC-32 covers. -/
def flitBody (f : Flit) : List Byte := flitHeader f ++ (f.payload ++ List.replicate 240 0).take 240

/-- The 256 bytes of a flit (R243). -/
def flitWire (f : Flit) : List Byte := flitBody f ++ leBytes 4 (crc32 (flitBody f)).toNat

/-- The flit that a header and payload spell. -/
def readFlit (w : List Byte) : Flit :=
  let x (at_ n : Nat) := fld (leNat (w.take 12)) at_ n
  { kind := BitVec.ofNat 4 (x 0 4), vc := BitVec.ofNat 2 (x 4 2), seq := BitVec.ofNat 12 (x 6 12)
    ack := BitVec.ofNat 12 (x 18 12), dest := BitVec.ofNat 8 (x 30 8), src := BitVec.ofNat 8 (x 38 8)
    stream := BitVec.ofNat 4 (x 46 4), part := BitVec.ofNat 4 (x 50 4), group := BitVec.ofNat 12 (x 54 12)
    len := BitVec.ofNat 8 (x 66 8), reason := BitVec.ofNat 8 (x 74 8), rsv := BitVec.ofNat 14 (x 82 14)
    payload := (w.drop 12).take 240 }

/-- The CRC-32 of R243 is that of the header and payload that it came with. -/
def bodyOk (body : List Byte) (crc : Word) : Bool := crc32 body == crc

/-! Sending (R245, R246). -/

def replayMax : Nat := 1024

/-- Flits that wait go into the replay buffer while it has room and the link runs. -/
def sendHeldGo : Nat → List Flit → Link → Link × List Flit
  | _, [], k => ({ k with held := [] }, [])
  | 0, fs, k => ({ k with held := fs }, [])
  | n + 1, f :: fs, k =>
    let f := { f with seq := k.nextSeq, ack := k.rxNext - 1 }
    let r := sendHeldGo n fs { k with sent := k.sent ++ [f], nextSeq := k.nextSeq + 1 }
    (r.1, f :: r.2)

def State.sendHeld (s : State) (l : Nat) : State :=
  let k := s.link l
  if linkRuns k then
    let r := sendHeldGo (replayMax - k.sent.length) k.held k
    let s := s.updLink l fun _ => r.1
    r.2.foldl (fun s f => s.emit (.packet l (flitWire f))) s
  else s

def State.sendFlit (s : State) (l : Nat) (f : Flit) : State :=
  (s.updLink l fun k => { k with held := k.held ++ [f] }).sendHeld l

/-! Packets of this module (R250, R251). -/

/-- Message kinds of `Out.message`. -/
def msgRecFetch : Nat := 1
def msgRecAnswer : Nat := 2
def msgHeader : Nat := 3
def msgExponents : Nat := 4
def msgChunk : Nat := 5
def msgAbandon : Nat := 6
def msgLeave : Nat := 7
def msgListHash : Nat := 8
def msgKeepAlive : Nat := 9
def msgLoadChunk : Nat := 10
def msgLoadEnd : Nat := 11
def msgLoadRerequest : Nat := 12
def msgLoadFail : Nat := 13
def msgLoadSuccess : Nat := 14
def msgFlag : Nat := 15

/-- TYPE of a message's flits (R244; log entry 20). -/
def msgType (kind : Nat) : Nat :=
  if kind = msgHeader then 2
  else if kind = msgChunk ∨ kind = msgExponents ∨ kind = msgFlag ∨ kind = msgLoadChunk then 3
  else if kind = msgRecAnswer then 1
  else 5

/-- The flits that carry a message: its kind, then its bytes (log entry 20). -/
def msgFlits (f : Flit) (bs : List Byte) : List Flit :=
  (List.range (ceilDiv bs.length 240)).map fun i =>
    let part := (bs.drop (240 * i)).take 240
    { f with len := BitVec.ofNat 8 part.length, payload := part }

/-- Sends a message to a partition of another module as a packet of one stream, on the link of the first
hop of its route; toward an unreachable module it is dropped (R253). -/
def State.post (s : State) (kind coord part g stream : Nat) (payload : List Byte) : State :=
  if coord = s.coord then s.emit (.message kind coord part g payload)
  else match (s.route s.coord coord).bind firstHop with
    | none => s.event 0x3011 0
    | some (d, detour) => match s.streamLink s.coord d stream with
      | none => s.event 0x3011 0
      | some l =>
        let type := msgType kind
        let vc := if type = 5 then 3 else s.hopVc d detour none
        let f : Flit := {
          kind := BitVec.ofNat 4 type, vc := BitVec.ofNat 2 vc, seq := 0, ack := 0
          dest := BitVec.ofNat 8 coord, src := BitVec.ofNat 8 s.coord, stream := BitVec.ofNat 4 stream
          part := BitVec.ofNat 4 part, group := if type = 2 ∨ type = 3 then BitVec.ofNat 12 g else 0
          len := 0, reason := 0, rsv := 0, payload := [] }
        (msgFlits f (BitVec.ofNat 8 kind :: payload)).foldl (fun s f => s.sendFlit l f)
          (s.emit (.message kind coord part g payload))

/-- The stream of a packet that no rule assigns one is the sender's choice (R251). -/
def State.anyStream (s : State) (kind : Nat) : Nat := Config.freePick s.free (2000 + kind) % 10

/-! Forwarded packets (R252). -/

/-- The hops of a route from a module: where each starts, its direction, whether it is a detour's. -/
def State.pathGo (s : State) : List (Nat × Bool) → Nat → List (Nat × Nat × Bool)
  | [], _ => []
  | (d, b) :: ds, c => (c, d, b) :: pathGo s ds (s.neighbour c d)

def State.path (s : State) (a b : Nat) : List (Nat × Nat × Bool) :=
  match s.route a b with
  | some gs => s.pathGo (gs.flatMap fun g => g.dirs.map fun d => (d, g.detour)) a
  | none => []

/-- The next hop of a packet that came travelling in direction `came`: the hop that follows on its
source's route, so that a detour goes on as it began, else the first hop of this module's own route. -/
def State.onward (s : State) (src dest came : Nat) : Option (Nat × Bool) :=
  let p := s.path src dest
  match (p.zip (p.drop 1)).find? fun e => e.1.2.1 == came && e.2.1 == s.coord with
  | some e => some e.2.2
  | none => (s.route s.coord dest).bind firstHop

end Sys2Proof.Machine
end

