-- ==== Sys2Proof/Machine/Recover.lean ====
section
/-! DEFINITION. What an uncorrectable line means to a weight set (R192, R399 to R402), and the
translated accesses with all their effects. -/

namespace Sys2Proof.Machine

def chunkBytes : Nat := 1048576

def manChunks (e : ManEntry) : Nat := (e.len + chunkBytes - 1) / chunkBytes

/-- Bytes of chunk `c`: the last one may be shorter (R388). -/
def chunkLen (e : ManEntry) (c : Nat) : Nat := min chunkBytes (e.len - chunkBytes * c)

def manEntry (w : WeightSet) (e : Nat) : ManEntry :=
  w.entries.getD e ⟨0, false, 0, [], 0, [], [], 0⟩

/-- VA of chunk `c` of copy `j`. -/
def chunkVa (e : ManEntry) (j c : Nat) : Nat := e.dst.getD j 0 + chunkBytes * c

/-- The Loom of the tile that holds the page of a VA (R400). -/
def State.loomFor (s : State) (p va : Nat) : Nat :=
  match (s.walk p va).2 with
  | .ok (_, _, e) => uLoom (tileOfFrame (tierOf (leafTier e)) (leafFrame e))
  | .err _ => uLoom 0

/-- The VA at which the range [va, lim) maps a line, if it does. -/
def State.findLineVa (s : State) (p : Nat) (t : Tier) (line lim : Nat) : Nat → Nat → Option Nat
  | 0, _ => none
  | fuel + 1, va =>
    if lim ≤ va then none
    else match (s.walk p va).2 with
      | .err _ => findLineVa s p t line lim fuel ((va / 4096 + 1) * 4096)
      | .ok (_, _, e) =>
        let start := va / leafSize e * leafSize e
        let at_ := start + (line * 64 - leafFrame e)
        if tierOf (leafTier e) = t ∧ leafFrame e ≤ line * 64 ∧ line * 64 < leafFrame e + leafSize e
            ∧ va / 64 ≤ at_ / 64 ∧ at_ < lim then some at_
        else findLineVa s p t line lim fuel (start + leafSize e)

/-- A page-attribute change by the module: `f` of the leaf goes to every slot. -/
def State.changeLeaf (s : State) (p va : Nat) (f : Nat → Nat) : State :=
  match (s.walk p va).2 with
  | .ok (lvl, slot, e) => s.setLeaf p va lvl slot e (f e)
  | .err _ => s

def setPsn (e : Nat) : Nat := if leafPsn e then e else e + 64
def clearPsn (e : Nat) : Nat := if leafPsn e then e - 64 else e

/-- No line of the page at a VA is poisoned. -/
def State.pageClean (s : State) (p va : Nat) : Bool :=
  match (s.walk p va).2 with
  | .ok (_, _, e) =>
    let t := tierOf (leafTier e)
    (List.range (leafSize e / 64)).all fun i => !((s.tier t).bad (leafFrame e / 64 + i))
  | .err _ => false

/-- The chunk's bytes with each staged page read from its home frame (R183, R400). -/
def State.homeBytes (s : State) (p va n : Nat) : Option (List Byte) :=
  let hits := (s.part p).plt.staged.filter fun g =>
    decide (g.va < va + n ∧ va < g.va + g.size)
  if hits.isEmpty then none
  else
    (piecesOf va n).foldl (fun acc pc => match acc with
      | none => none
      | some bs =>
        let place : Option (Tier × Nat × Bool) :=
          match hits.find? fun g => decide (g.va ≤ pc.1 ∧ pc.1 < g.va + g.size) with
          | some g => some (tierOf (leafTier g.home.toNat),
              leafFrame g.home.toNat + (pc.1 - g.va), leafEnc g.home.toNat)
          | none => match (s.walk p pc.1).2 with
            | .ok (_, _, e) => some (tierOf (leafTier e), leafFrame e + pc.1 % leafSize e, leafEnc e)
            | .err _ => none
        match place with
        | none => none
        | some (t, a, enc) =>
          if (s.tier t).bad (a / 64) then none
          else some (bs ++ s.rawRead t (frameKey t enc (s.part p).key) a pc.2)) (some [])

def State.updSet (s : State) (p k : Nat) (f : WeightSet → WeightSet) : State :=
  s.updPart p (·.updWset k f)

/-- Rewrites the poisoned lines of a copy's chunk, clears PSN of each page that has none left, and
counts it (R401). -/
def State.repairChunk (s : State) (p k va : Nat) (bs : List Byte) : State :=
  let s := (linePieces (bs.length / 64 + 2) va bs.length).foldl (fun s pc =>
    match (s.walk p pc.1).2 with
    | .ok (_, _, e) =>
      let t := tierOf (leafTier e)
      let a := leafFrame e + pc.1 % leafSize e
      if (s.tier t).bad (a / 64) && !(s.tier t).withdrawn (a / 64) then
        (s.rawWriteLine t (frameKey t (leafEnc e) (s.part p).key) a ((bs.drop (pc.1 - va)).take pc.2)).loomWrote
          (tileOfFrame t a) pc.2
      else s
    | .err _ => s) s
  match s.pages p va bs.length with
  | .err _ => s
  | .ok gs => gs.foldl (fun s g =>
      if leafPsn g.leaf && s.pageClean p g.va then
        (s.changeLeaf p g.va clearPsn).updSet p k fun w => { w with recovered := satInc w.recovered }
      else s) s

/-- A recovery leaves the set; the last one makes the set READY again unless it is LOST (R401). -/
def State.endRecovery (s : State) (p k : Nat) (r : Recovery) : State :=
  s.updSet p k fun w =>
    let rest := w.recoveries.erase r
    { w with recoveries := rest, state := if rest.isEmpty && w.state == 3 then 2 else w.state }

/-- The set is LOST (R402). -/
def State.loseSet (s : State) (p k : Nat) (r : Recovery) : State :=
  let s := s.updSet p k fun w =>
    { w with state := 4, last := BitVec.ofNat 16 r.shard, recoveries := w.recoveries.erase r }
  (s.eventP 0x1051 (s.loomFor p (chunkVa (manEntry ((s.part p).wset k) r.shard) r.copy r.chunk)) p).genWeights p

/-- A chunk offered to a recovery: accepted when its CRC-64 is the table's (R400, R401). -/
def State.offerChunk (s : State) (p k : Nat) (r : Recovery) (crc : Nat) (bs : List Byte) :
    State × Bool :=
  let e := manEntry ((s.part p).wset k) r.shard
  if (crc64 bs).toNat = crc ∧ bs.length = chunkLen e r.chunk then
    ((s.repairChunk p k (chunkVa e r.copy r.chunk) bs).endRecovery p k r, true)
  else (s.updSet p k fun w => { w with rejected := satInc w.rejected }, false)


/-- The next valid REPL entry from index `i` on: it is asked; with none left the source is 4. -/
def State.askReplica (s : State) (p k : Nat) (r : Recovery) (i : Nat) : State × Recovery :=
  let e := manEntry ((s.part p).wset k) r.shard
  match (List.range 4).find? fun j => decide (i ≤ j) && (e.repl.getD j 0).getLsbD 15 with
  | none => (s, { r with source := 4 })
  | some j =>
    let x := (e.repl.getD j 0).toNat
    (s.post msgRecFetch (fld x 0 8) (fld x 8 4) 0 (s.anyStream msgRecFetch)
      ([BitVec.ofNat 8 k] ++ leBytes 4 r.shard ++ leBytes 4 r.chunk), { r with source := j })

def State.replaceRecovery (s : State) (p k : Nat) (r r' : Recovery) : State :=
  s.updSet p k fun w => { w with recoveries := w.recoveries.map fun x => if x = r then r' else x }

/-- Source 3, HOST_VA; afterwards nothing is left to try and the source is 5. -/
def State.tryHost (s : State) (p k : Nat) (r : Recovery) (crc : Nat) : State × Found :=
  let e := manEntry ((s.part p).wset k) r.shard
  let spent := s.replaceRecovery p k r { r with source := 5 }
  if !e.hostSrc then (spent, [])
  else
    let x := s.xreadLit ⟨p, s.loomFor p (chunkVa e r.copy r.chunk)⟩
      (e.hostVa + chunkBytes * r.chunk) (chunkLen e r.chunk)
    match x.2.1 with
    | .ok bs =>
      let o := x.1.offerChunk p k r crc bs
      (if o.2 then o.1 else o.1.replaceRecovery p k r { r with source := 5 }, x.2.2)
    | .held => (s.replaceRecovery p k r { r with source := 4 }, [])
    | .fail _ _ => (x.1.replaceRecovery p k r { r with source := 5 }, x.2.2)

/-- Goes on from replica index `i`. -/
def State.recoverFrom (s : State) (p k : Nat) (r : Recovery) (crc i : Nat) : State × Found :=
  let a := s.askReplica p k r i
  let s := a.1.replaceRecovery p k r a.2
  if a.2.source = 4 then s.tryHost p k a.2 crc else (s, [])

/-- What a copy of the module's own memory is offered as, once it has been read. -/
def tryEnd (p k : Nat) (r : Recovery) (crc : Nat) (f : Found) (y : State × XR (List Byte) × Found) :
    State × Bool × Found :=
  match y.2.1 with
  | .ok bs =>
    let o := y.1.offerChunk p k r crc bs
    (o.1, o.2, f ++ y.2.2)
  | _ => (y.1, false, f ++ y.2.2)

/-- One copy of the module's own memory, unless one has matched already. -/
def tryCopy (p k : Nat) (r : Recovery) (crc unit : Nat) (e : ManEntry) (acc : State × Bool × Found)
    (j : Nat) : State × Bool × Found :=
  if acc.2.1 || j == r.copy then acc
  else tryEnd p k r crc acc.2.2
    (acc.1.xreadLit ⟨p, unit⟩ (chunkVa e j r.chunk) (chunkLen e r.chunk))

/-- Source 1: another copy on this member, and the home frame of a staged page. -/
def State.tryLocal (s : State) (p k : Nat) (r : Recovery) (crc : Nat) : State × Bool × Found :=
  let e := manEntry ((s.part p).wset k) r.shard
  let unit := s.loomFor p (chunkVa e r.copy r.chunk)
  let n := chunkLen e r.chunk
  let x := (List.range e.copies).foldl (tryCopy p k r crc unit e) (s, false, [])
  if x.2.1 then x
  else match x.1.homeBytes p (chunkVa e r.copy r.chunk) n with
    | none => x
    | some bs =>
      let o := x.1.offerChunk p k r crc bs
      (o.1, o.2, x.2.2)

/-- The CRC-64 that the table holds for a chunk; `none` when its line is poisoned or unmapped. -/
def State.tableCrc (s : State) (p k shard chunk : Nat) : State × Option Nat × Found :=
  let w := (s.part p).wset k
  let x := s.xreadLit ⟨p, uLoom 0⟩ (w.crcVa + 8 * ((manEntry w shard).crcBase + chunk)) 8
  (x.1, match x.2.1 with | .ok bs => some (leNat bs) | _ => none, x.2.2)

/-- A line of chunk `c` of copy `j` has turned uncorrectable at VA `va` (R399). -/
def State.startRecovery (s : State) (p k shard c j va : Nat) : State × Found :=
  let r : Recovery := ⟨shard, c, j, 0⟩
  let s := s.changeLeaf p va setPsn
  let s := s.updSet p k fun w =>
    { w with state := 3, recoveries := w.recoveries ++ [r] }
  let s := s.eventP 0x1050 (s.loomFor p va) p
  let t := s.tableCrc p k shard c
  match t.2.1 with
  | none => (t.1.loseSet p k r, t.2.2)
  | some crc =>
    let l := t.1.tryLocal p k r crc
    if l.2.1 then (l.1, t.2.2 ++ l.2.2)
    else
      let h := l.1.recoverFrom p k r crc 0
      (h.1, t.2.2 ++ l.2.2 ++ h.2)

/-- Every place of a READY or RECOVERING set that a line holds: partition, set, shard, chunk, copy
and VA. -/
def State.setsHolding (s : State) (t : Tier) (line : Nat) :
    List (Nat × Nat × Nat × Nat × Nat × Nat) :=
  (List.range 16).flatMap fun p => (List.range 16).flatMap fun k =>
    let w := (s.part p).wset k
    if w.state == 2 || w.state == 3 then
      (w.entries.zipIdx).flatMap fun ei => (List.range ei.1.copies).filterMap fun j =>
        let va := ei.1.dst.getD j 0
        (s.findLineVa p t line (va + ei.1.len) (ei.1.len / 4096 + 2) va).map fun at_ =>
          (p, k, ei.2, (at_ - va) / chunkBytes, j, at_)
    else []

/-- Every place of a set that lines just found uncorrectable hold. -/
def State.holders (s : State) (f : Found) : List (Nat × Nat × Nat × Nat × Nat × Nat) :=
  f.flatMap fun tl => s.setsHolding tl.1 tl.2

/-- Places of sets that have become uncorrectable start recoveries; those may find further lines, at most
as deep as a shard has copies. -/
def foundGo : Nat → State → List (Nat × Nat × Nat × Nat × Nat × Nat) → State
  | 0, s, _ => s
  | fuel + 1, s, hs =>
    let x := hs.foldl (fun (a : State × Found) h =>
      let y := a.1.startRecovery h.1 h.2.1 h.2.2.1 h.2.2.2.1 h.2.2.2.2.1 h.2.2.2.2.2
      (y.1, a.2 ++ y.2)) (s, [])
    if x.2.isEmpty then x.1 else foundGo fuel x.1 (x.1.holders x.2)

def State.found (s : State) (f : Found) : State := if f.isEmpty then s else foundGo 8 s (s.holders f)

/-! The accesses that the meanings use. -/

def State.xread (s : State) (r : Req) (va n : Nat) : State × XR (List Byte) :=
  let x := s.xreadBase r va n
  (x.1.found x.2.2, x.2.1)

def State.xwrite (s : State) (r : Req) (va : Nat) (bs : List Byte) : State × XR Unit :=
  let x := s.xwriteBase r .write va bs
  (x.1.found x.2.2, x.2.1)

def State.xupdate (s : State) (r : Req) (va : Nat) (bs : List Byte) : State × XR Unit :=
  let x := s.xwriteBase r .update va bs
  (x.1.found x.2.2, x.2.1)

def State.xcheck (s : State) (r : Req) (acc : Access) (va n : Nat) :
    State × XR (List (Hit × Nat)) :=
  let x := s.xcheckBase r acc va n
  (x.1.found x.2.2, x.2.1)

/-- The end of an access, or of the same access in the lit state with the clocks as they are. -/
def litRetry {α : Type} (x y : State × XR α) : State × XR α :=
  match x.2 with
  | .held => ({ y.1 with clk := x.1.clk }, y.2)
  | _ => x

def State.xreadNow (s : State) (r : Req) (va n : Nat) : State × XR (List Byte) :=
  litRetry (s.xread r va n) (s.lit.xread r va n)

def State.xwriteNow (s : State) (r : Req) (va : Nat) (bs : List Byte) : State × XR Unit :=
  litRetry (s.xwrite r va bs) (s.lit.xwrite r va bs)

/-- Bytes as the module's own firmware reads them: `none` on failure. -/
def State.peek (s : State) (p va n : Nat) : State × Option (List Byte) :=
  match s.xreadNow (s.helmReq p) va n with
  | (s', .ok bs) => (s', some bs)
  | (s', _) => (s', none)

/-- Reads the table lines of the walks of a range, before pages are looked up in it; `skip` goes on
behind a page that is not mapped. -/
def touchGo (p lim : Nat) (skip : Bool) : Nat → Nat → State → Found → State × Found
  | 0, _, s, f => (s, f)
  | fuel + 1, va, s, f =>
    if lim ≤ va then (s, f)
    else
      let x := s.senseTables (s.walk p va).1 p va
      match x.1.walkLeaf p va with
      | .err _ => if skip then touchGo p lim skip fuel ((va / 4096 + 1) * 4096) x.1 (f ++ x.2.1)
        else (x.1, f ++ x.2.1)
      | .ok e => touchGo p lim skip fuel (va / leafSize e * leafSize e + leafSize e) x.1 (f ++ x.2.1)

def State.touchTables (s : State) (p va n : Nat) (skip : Bool := false) : State :=
  let x := touchGo p (va + n) skip (n / 4096 + 2) va s []
  x.1.found x.2

end Sys2Proof.Machine
end

