-- ==== Sys2Proof/Machine/Operands.lean ====
section
/-! DEFINITION. The operand forms: the fields of a command descriptor (R211, R223) and the text of its
opcode; the ranges that a virtual address or a length may take. The fields of a core instruction
stand in CoreOps.lean. -/

namespace Sys2Proof

/-- Bits [8·off + n − 1 : 8·off] of the descriptor. -/
def Cmd.f (c : Cmd) (off n : Nat) : Nat := c.desc.toNat / 2 ^ (8 * off) % 2 ^ n

/-- One bit of the byte at an offset. -/
def Cmd.fb (c : Cmd) (off i : Nat) : Bool := c.f off (i + 1) / 2 ^ i == 1

def Cmd.op (c : Cmd) : Nat := c.f 0x00 8
def Cmd.intr (c : Cmd) : Bool := c.fb 0x01 0
def Cmd.atomic (c : Cmd) : Bool := c.fb 0x01 1
def Cmd.barrier (c : Cmd) : Bool := c.fb 0x01 2
def Cmd.cont (c : Cmd) : Bool := c.fb 0x01 3
def Cmd.waitCtr (c : Cmd) : Nat := c.f 0x02 12
def Cmd.waitEn (c : Cmd) : Bool := c.f 0x02 16 / 2 ^ 15 == 1
def Cmd.sigCtr (c : Cmd) : Nat := c.f 0x04 12
def Cmd.sigEn (c : Cmd) : Bool := c.f 0x04 16 / 2 ^ 15 == 1
def Cmd.sigAdd (c : Cmd) : Nat := c.f 0x06 16
def Cmd.waitVal (c : Cmd) : Nat := c.f 0x08 64
def Cmd.tag (c : Cmd) : Nat := c.f 0x10 32

/-- A VA field: bits [55:0] of eight bytes. -/
def Cmd.va (c : Cmd) (off : Nat) : Nat := c.f off 56

/-- The whole of a run of bytes is zero. -/
def Cmd.zeros (c : Cmd) (off len : Nat) : Bool := c.f off (8 * len) == 0

/-- The same command: queue and ring index tell the commands of a partition apart. -/
def Cmd.same (a b : Cmd) : Bool := a.q == b.q && a.idx == b.idx

/-- Ring size N of a queue (R202). -/
def Queue.n (x : Queue) : Nat := 2 ^ x.log2n.toNat

end Sys2Proof

namespace Sys2Proof.Machine

/-! Opcodes (R51). -/

def opKernel : Nat := 0x01
def opCopy : Nat := 0x02
def opFill : Nat := 0x03
def opAttend : Nat := 0x10
def opSample : Nat := 0x11
def opVerify : Nat := 0x12
def opUpdate : Nat := 0x20
def opSoundRead : Nat := 0x21
def opCollective : Nat := 0x30
def opGroupForm : Nat := 0x31
def opLoomMove : Nat := 0x38
def opWeightLoad : Nat := 0x39
def opFence : Nat := 0x40
def opMark : Nat := 0x41
def opAbort : Nat := 0x7E
def opNop : Nat := 0x7F

def opcodes : List Nat :=
  [opKernel, opCopy, opFill, opAttend, opSample, opVerify, opUpdate, opSoundRead, opCollective,
   opGroupForm, opLoomMove, opWeightLoad, opFence, opMark, opAbort, opNop]

/-- COPY, without its MIGRATE mode bit. -/
def isMigrate (c : Cmd) : Bool := c.op == opCopy && c.fb 0x38 0

/-- ATOMIC is honoured, so writes are staged (R222). -/
def atomicHonoured (c : Cmd) : Bool :=
  c.op == opKernel || (c.op == opCopy && !c.fb 0x38 0) || c.op == opFill || c.op == opAttend
  || c.op == opSample || c.op == opVerify || c.op == opSoundRead

/-- ATOMIC fails validation (R222). -/
def atomicRejected (op : Nat) : Bool :=
  op == opUpdate || op == opCollective || op == opGroupForm || op == opLoomMove

def staged (c : Cmd) : Bool := c.atomic && atomicHonoured c

/-! KERNEL, COPY, FILL and the rest of R223. -/

def kImage (c : Cmd) : Nat := c.va 0x18
def kArgs (c : Cmd) : Nat := c.va 0x20
def kCoreBit (c : Cmd) (i : Nat) : Bool := c.desc.getLsbD (8 * 0x28 + i)
/-- Partition core indices of CORE_SET, ascending: index order is rank order (R147). -/
def kCores (c : Cmd) : List Nat := (List.range 160).filter (kCoreBit c)
def kAtmMax (c : Cmd) : Nat := c.f 0x3C 32

def cSrc (c : Cmd) : Nat := c.va 0x18
def cDst (c : Cmd) : Nat := c.va 0x20
def cLen (c : Cmd) : Nat := c.f 0x28 40
def mDstFrame (c : Cmd) : Nat := c.va 0x20
def mDstTier (c : Cmd) : Nat := fld (c.f 0x20 64) 56 2
def mDstLen (c : Cmd) : Nat := c.f 0x30 40

def fDst (c : Cmd) : Nat := c.va 0x18
def fLen (c : Cmd) : Nat := c.f 0x20 40
def fPattern (c : Cmd) : Nat := c.f 0x28 64
def fScrub (c : Cmd) : Bool := c.fb 0x30 0

def sSub (c : Cmd) : Nat := c.f 0x18 8
def sCtr (c : Cmd) : Nat := c.f 0x1A 12
def sValue (c : Cmd) : Nat := c.f 0x20 64

def markTime (c : Cmd) : Nat := c.f 0x18 64
def markLabel (c : Cmd) : Nat := c.f 0x20 32

def aScope (c : Cmd) : Nat := c.f 0x18 8
def aQueue (c : Cmd) : Nat := c.f 0x19 6
def aSlot (c : Cmd) : Nat := c.f 0x1A 16
def aTag (c : Cmd) : Nat := c.f 0x1C 32
def aCluster (c : Cmd) : Nat := c.f 0x20 5

/-! Little-endian fields of a block of bytes. -/

def bAt (bs : List Byte) (off n : Nat) : Nat := leNat ((bs.drop off).take n)

def bVa (bs : List Byte) (off : Nat) : Nat := bAt bs off 8 % 2 ^ 56

/-- Every byte of the listed ranges (offset, length) is zero. -/
def bZero (bs : List Byte) (rs : List (Nat × Nat)) : Bool :=
  rs.all fun r => bAt bs r.1 r.2 == 0

end Sys2Proof.Machine
end

