-- ==== Sys2Proof/Machine/Layout.lean ====
section
/-! DEFINITION. Layout descriptors (R370 to R373): parts, addresses and ranges. -/

namespace Sys2Proof

def Layout.f (x : Layout) : FmtWord := FmtWord.of x.fmt
def Layout.parts (x : Layout) : Nat := 2 ^ (x.rsplit + x.csplit)
def Layout.partRows (x : Layout) : Nat := x.rows / 2 ^ x.rsplit
def Layout.partCols (x : Layout) : Nat := x.cols / 2 ^ x.csplit

/-- Part of rank `r` in a group of `n` (R371). -/
def Layout.partOf (x : Layout) (n r : Nat) : Nat :=
  if x.order then r / (n / x.parts) else r % x.parts

def Layout.row0 (x : Layout) (p : Nat) : Nat := p / 2 ^ x.csplit * x.partRows
def Layout.col0 (x : Layout) (p : Nat) : Nat := p % 2 ^ x.csplit * x.partCols

/-- The part that holds element [i][j]. -/
def Layout.partAt (x : Layout) (i j : Nat) : Nat :=
  i / x.partRows * 2 ^ x.csplit + j / x.partCols

/-- Bits of an element in each of its arrays. -/
def Layout.ebits (x : Layout) : Nat := if x.split then 16 else fmtBits x.f.fmt

/-- Rows and columns of a scale block within the part (R70, R372). -/
def Layout.block (x : Layout) : Nat × Nat :=
  match x.f.dir with
  | 0 => (1, 2 ^ x.f.blk)
  | 1 => (2 ^ x.f.blk, max 1 x.partCols)
  | _ => (2 ^ (x.f.blk / 2), 2 ^ (x.f.blk / 2))

def Layout.scaled (x : Layout) : Bool := x.f.blk != 0

/-- Bytes of a run of columns of a row: start and length, from column `j` on. -/
def Layout.rowRange (x : Layout) (base i j n : Nat) : Nat × Nat :=
  let b := 8 * (base + i * x.pitch) + j * x.ebits
  (b / 8, (b % 8 + n * x.ebits + 7) / 8)

/-- Address of the scale code for row `i`, column `j` of the part. -/
def Layout.scaleAt (x : Layout) (i j : Nat) : Nat :=
  x.scale + i / x.block.1 * x.spitch + j / x.block.2

/-- Every range of the part: rows, residual rows and scale rows. -/
def Layout.ranges (x : Layout) : List (Nat × Nat) :=
  let rows := (List.range x.partRows).map fun i => x.rowRange x.base i 0 x.partCols
  let res := if x.split then (List.range x.partRows).map fun i => x.rowRange x.res i 0 x.partCols
    else []
  let b := x.block
  let scales := if x.scaled then (List.range (ceilDiv x.partRows b.1)).map fun u =>
      (x.scale + u * x.spitch, ceilDiv x.partCols b.2)
    else []
  rows ++ res ++ scales

end Sys2Proof

namespace Sys2Proof.Machine

def layoutOf (bs : List Byte) : Layout :=
  { rows := bAt bs 0 5, cols := bAt bs 8 5, fmt := BitVec.ofNat 16 (bAt bs 0x10 2)
    rsplit := bAt bs 0x12 1, csplit := bAt bs 0x13 1, order := bit (bAt bs 0x14 1) 0
    split := bit (bAt bs 0x14 1) 1, pitch := bAt bs 0x18 5, spitch := bAt bs 0x20 5
    base := bVa bs 0x28, scale := bVa bs 0x30, res := bVa bs 0x38
    seed := BitVec.ofNat 64 (bAt bs 0x40 8), tensor := bAt bs 0x48 4 }

/-- A set reserved bit, or a value out of its range (R370). -/
def layoutBits (bs : List Byte) : Bool :=
  let x := layoutOf bs
  !(bZero bs [(5, 3), (0x0D, 3), (0x15, 3), (0x1D, 3), (0x25, 3), (0x2F, 1), (0x37, 1), (0x3F, 1),
      (0x4C, 52)])
  || decide (4 ≤ bAt bs 0x14 1) || x.rows == 0 || x.cols == 0 || decide (2 ^ 48 < x.rows * x.cols)
  || decide (8 < x.rsplit + x.csplit)

/-- Bits are copied, nothing is converted (R375). -/
def sameForm (a b : Layout) : Bool := a.fmt == b.fmt && a.split == b.split

/-- A reserved layout descriptor (R370, R373). -/
def layoutBad (bs : List Byte) (src converts : Bool) : Bool :=
  let x := layoutOf bs
  let b := x.block
  layoutBits bs || x.f.reserved src || x.rows % 2 ^ x.rsplit != 0 || x.cols % 2 ^ x.csplit != 0
  || (x.scaled && ((decide (0 < x.rsplit) && x.partRows % b.1 != 0)
      || (decide (0 < x.csplit) && (x.f.dir == 1 || x.partCols % b.2 != 0))))
  || (decide (fmtBits x.f.fmt < 8) && x.partCols * fmtBits x.f.fmt % 8 != 0)
  || (x.split && x.fmt != 0)
  || (!src && !converts && (x.f.rnd == 1 || x.f.scaleSrc))

/-- Elements of a run of packed bits, `n` bits each, the first at bit `lo`. -/
def unpackBits (lo n k : Nat) (bs : List Byte) : List Nat :=
  let x := leNat bs / 2 ^ lo
  (List.range k).map fun i => x / 2 ^ (n * i) % 2 ^ n

end Sys2Proof.Machine
end

