-- ==== Sys2Proof/Machine/Queue.lean ====
section
/-! DEFINITION. Commands between their fetch and their record: event counters (R213), interrupts
(R232), outcomes and staged writes (R230, R235), completion records (R228 to R231), queue states
(R209), fetch (R207) and dispatch (R219, R221). -/

namespace Sys2Proof.Machine

/-! Event counters. -/

def State.evc (s : State) (p i : Nat) : Dword := SMap.get 0 (s.part p).evc i

def State.evcSet (s : State) (p i : Nat) (v : Dword) : State :=
  s.updPart p fun x => { x with evc := SMap.set 0 x.evc i v }

/-- An addition never wraps, and saturation is recorded (R213). -/
def State.evcAdd (s : State) (p i n : Nat) : State :=
  let v := s.evc p i
  let s' := s.evcSet p i (ctrAdd v n)
  if ctrSaturates v n then s'.eventP 0x4003 (s.uPartHelm p) p else s'

/-! Interrupts: held while the port is in quarantine (R238). -/

def State.irq (s : State) (p vec : Nat) : State :=
  if s.hostHeld then { s with heldIrqs := s.heldIrqs ++ [(p, vec)] } else s.emit (.irq p vec)

/-! Commands. -/

/-- The oldest command of the partition that a condition picks. -/
def State.pickCmd (s : State) (p : Nat) (f : Cmd → Bool) : Option Cmd := (s.part p).cmds.find? f

def State.updCmd (s : State) (p : Nat) (c : Cmd) (f : Cmd → Cmd) : State :=
  s.updPart p fun x => { x with cmds := x.cmds.map fun y => if y.same c then f y else y }

def State.dropCmd (s : State) (p : Nat) (c : Cmd) : State :=
  s.updPart p fun x => { x with cmds := x.cmds.filter fun y => !y.same c }

/-- The command as it stands now. -/
def State.cmdNow (s : State) (p : Nat) (c : Cmd) : Cmd :=
  ((s.part p).cmds.find? fun y => y.same c).getD c

/-- Dispatched and without an outcome. -/
def cmdLive (c : Cmd) : Bool := c.dispatched && c.outcome.isNone

def cmdSlot (x : Part) (c : Cmd) : Nat := c.idx % (x.queue c.q).n

/-- The command that a row names: live, at that queue and ring slot, of the row's kind. -/
def State.rowCmd (s : State) (p q slot : Nat) (kind : Cmd → Bool) : Option Cmd :=
  if s.enabled p then
    s.pickCmd p fun c => c.q == q && cmdSlot (s.part p) c == slot && cmdLive c && kind c
  else none

/-! Staged writes (R235). -/

def hitCode (h : Hit) : Nat :=
  match h.tier with
  | .bd => 0
  | .lp => 1
  | .host => if leafEnc h.leaf then 3 else 2

/-- Applies one staged write to the frame found at staging. An uncorrectable error that a write to a part
of a line meets poisons the line and changes no status. -/
def State.applyWrite (s : State) (p : Nat) (w : Nat × Nat × List Byte) : State :=
  let t := tierOf (min w.1 2)
  let x := if w.2.1 % 64 = 0 ∧ w.2.2.length = 64 then (s, []) else s.senseLines t [w.2.1 / 64] none
  (x.1.rawWrite t (frameKey t (w.1 == 3) (s.part p).key) w.2.1 w.2.2).found x.2

/-- Staged writes that cannot be applied now: those to host memory, while its port is in quarantine
(R238). -/
def State.heldBack (s : State) (c : Cmd) : List (Nat × Nat × List Byte) :=
  if s.hostHeld then c.staged.filter fun w => decide (2 ≤ w.1) else []

/-- Applies the writes and the event increments that an atomic command holds back. -/
def State.applyStaged (s : State) (p : Nat) (c : Cmd) : State :=
  let now := if s.hostHeld then c.staged.filter fun w => decide (w.1 < 2) else c.staged
  c.stagedEv.foldl (fun s i => s.evcAdd p i 1) (now.foldl (fun s w => s.applyWrite p w) s)

/-- Bytes of a range take free values, whatever the page allows. -/
def State.junkRange (s : State) (t : Tier) (a n : Nat) : State :=
  (s.rawWrite t 0 a (s.freeBytes n)).tickFree

/-- While an atomic command with a part of the staging region is dispatched, what the region holds is
undefined. -/
def State.junkAtm (s : State) (p : Nat) (c : Cmd) : State :=
  if staged c && c.atm != 0 then
    s.junkRange .bd ((s.part p).atmBase.toNat * 2 ^ 21) ((s.part p).atmSize.toNat * 2 ^ 21)
  else s

/-! Looms (R51, R55, R383, R406). A step moves what a command can move now: the Loom acts for one command
at a time, chunk by chunk, and those of other partitions that it has taken up wait their turn. -/

/-- The command carries TACK (R374, R389). -/
def cmdTack (c : Cmd) : Bool :=
  if c.op == opLoomMove then c.fb 0x34 1 else c.op == opWeightLoad && c.fb 0x29 1

/-- Commands in progress on a tile's Loom, with their partitions. -/
def State.loomUsers (s : State) (t : Nat) : List (Nat × Cmd) :=
  (List.range 16).flatMap fun p =>
    ((s.part p).cmds.filter fun c => cmdLive c && c.looms.contains t).map fun c => (p, c)

/-- The Loom's current command: those with TACK come first, among equals the one it last acted for. -/
def State.loomNow (s : State) (t : Nat) : Option (Nat × Cmd) :=
  let us := s.loomUsers t
  let us := if us.any (cmdTack ·.2) then us.filter (cmdTack ·.2) else us
  (us.find? (·.1 == (s.loom t).part.toNat)).or us.head?

/-- The Looms of its tiles act for a command. -/
def State.loomsAct (s : State) (p : Nat) (c : Cmd) : State :=
  c.looms.foldl (fun s t => s.updLoom t fun x => { x with part := BitVec.ofNat 4 p }) s

/-- A command without TACK yields while one with TACK is in progress on a Loom of its own, and goes on
afterwards (R406). -/
def State.loomYields (s : State) (p : Nat) (c : Cmd) : Bool :=
  !cmdTack c && (s.cmdNow p c).looms.any fun t => (s.loomUsers t).any (cmdTack ·.2)

/-- The Looms of these tiles take up a command. -/
def State.loomsTake (s : State) (p : Nat) (c : Cmd) (ts : List Nat) : State :=
  s.updCmd p c fun y => { y with looms := ts }

/-- The cores that a command holds are free for another one (R147). -/
def State.freeCores (s : State) (p : Nat) (c : Cmd) : State :=
  (List.range 192).foldl (fun s i =>
    if (s.core i).job == some (p, c.q, c.idx) then s.updCore i fun x => { x with job := none }
    else s) s

/-- Records one outcome: the first one registered stands (R154, R233). On DONE the staged writes are
applied; those that a quarantine holds follow before the record does. -/
def State.finish (s : State) (p : Nat) (c : Cmd) (e : CmdEnd) : State :=
  let now := s.cmdNow p c
  if now.outcome.isSome then s
  else
    let s := s.junkAtm p now
    let rest := if e.status.toNat = stDone then s.heldBack now else []
    let s := if e.status.toNat = stDone then s.applyStaged p now else s
    let s := (s.freeCores p now).loomsAct p now
    s.updCmd p c fun y => { y with
      outcome := some e, prog := .none, atm := if rest.isEmpty then 0 else y.atm, staged := rest
      stagedEv := [], looms := [] }

def endWith (st : Nat) (detail result : Nat := 0) (kept : Bool := false)
    (unit : Option Nat := none) (logSeq : Option Nat := none) : CmdEnd :=
  { status := BitVec.ofNat 8 st, detail := BitVec.ofNat 16 detail, unit := unit.map (BitVec.ofNat 16)
    result := BitVec.ofNat 64 result, kept := kept, logSeq := logSeq }

/-- The end by a translated access that failed: UNIT is the requester, LOG_SEQ its record (R229). -/
def endAt (st : Nat) (m : Miss) (kept : Bool := false) : CmdEnd :=
  endWith st 0 m.va kept (some m.unit) m.log

/-- DONE: UNIT is the helm core. -/
def endDone (result : Nat) : CmdEnd := endWith stDone 0 result

/-! Stops (R209). -/

/-- Fetched, not dispatched, not ended: returned by a stop. -/
def cmdReturns (q : Nat) (c : Cmd) : Bool := c.q == q && !c.dispatched && c.outcome.isNone

/-- Commands of a queue without a record. -/
def State.inflightOf (s : State) (p q : Nat) : Nat :=
  ((s.part p).cmds.filter fun c => c.q == q).length

/-- Returns what the queue fetched but did not dispatch; PAR_Q_HEAD moves back to the first. -/
def State.returnFetched (s : State) (p q : Nat) : State :=
  match (s.part p).cmds.find? (cmdReturns q) with
  | none => s
  | some c =>
    (s.updPart p fun x => { x with cmds := x.cmds.filter fun y => !cmdReturns q y }).updQueue p q
      fun x => { x with head := BitVec.ofNat 17 c.idx }

/-- The queue stops for a reason. -/
def State.stopQueue (s : State) (p q reason : Nat) : State :=
  (s.returnFetched p q).updQueue p q fun x => { x with state := 2, reason := BitVec.ofNat 4 reason }

/-! The serving engine's step queue (R299, R327). -/

/-- The engine's step, as changed by `f`. -/
def State.updStep (s : State) (p : Nat) (f : GenStep → GenStep) : State :=
  s.updPart p fun x => { x with gen := { x.gen with step := x.gen.step.map f } }

/-- A failed step: its template commands that are not dispatched are skipped, and the queue goes on
(R327). -/
def State.genSkip (s : State) (p : Nat) : State :=
  let q := (s.gen p).desc.stepQ
  let s := s.updPart p fun x => { x with cmds := x.cmds.filter fun y => !cmdReturns q y }
  let n := s.inflightOf p q
  (s.updQueue p q fun x =>
    if x.state = 2 then { x with head := x.tail, state := 1, reason := 0 }
    else { x with head := x.tail }).updStep p fun st => { st with left := n }

/-- Places template commands while the ring has room, TAG replaced by the step number; a template
that cannot be read or placed fails the step. -/
def tplGo (p : Nat) : Nat → State → State
  | 0, s => s
  | fuel + 1, s =>
    let g := s.gen p
    let q := g.desc.stepQ
    let x := (s.part p).queue q
    match g.step with
    | none => s
    | some st =>
      let used := (x.tail.toNat + 2 * x.n - x.head.toNat) % (2 * x.n) + s.inflightOf p q
      let failed := fun (s : State) (status va : Nat) => (s.updStep p fun st => { st with
        failed := some (BitVec.ofNat 8 status, BitVec.ofNat 64 va) }).genSkip p
      if st.failed.isSome || decide (g.desc.tplN ≤ st.placed) || decide (x.n ≤ used) then s
      else match s.xread (s.helmReq p) (g.desc.tplVa + 64 * st.placed) 64 with
        | (w, .held) => s.waking w
        | (s', .fail status m) => failed s' status m.va
        | (s', .ok bs) =>
          match s'.xwrite (s.helmReq p) (x.base.toNat + 64 * (x.tail.toNat % x.n))
              (bs.take 16 ++ leBytes 4 st.no ++ bs.drop 20) with
          | (w, .held) => s.waking w
          | (s', .fail status m) => failed s' status m.va
          | (s', .ok _) =>
            tplGo p fuel ((s'.updQueue p q fun x =>
                { x with tail := BitVec.ofNat 17 ((x.tail.toNat + 1) % (2 * x.n)) }).updStep p
              fun st => { st with placed := st.placed + 1 })

/-- What a record on the step queue leads to. -/
def State.genAfter (s : State) (p q : Nat) : State :=
  let g := s.gen p
  if g.active && q == g.desc.stepQ then
    match g.step with
    | none => s
    | some st => if st.failed.isSome then s.genSkip p else tplGo p 256 s
  else s

/-- The queue stops after this outcome of a command (R228, R234). -/
def endStops (c : Cmd) (e : CmdEnd) : Bool := !statusContinues e.status.toNat && !c.cont && !e.goesOn

/-! Completion records. -/

/-- The 32 bytes of R229. -/
def recordBytes (x : Queue) (helm slot : Nat) (c : Cmd) (e : CmdEnd) : List Byte :=
  let unit := match e.unit with | some u => u.toNat | none => helm
  leBytes 4 c.tag ++ leBytes 2 slot ++ leBytes 1 c.op ++ leBytes 1 e.status.toNat
  ++ leBytes 2 e.detail.toNat ++ leBytes 2 unit
  ++ leBytes 4 (recordFlags (phaseOf x.cplTail.toNat x.n) e.logSeq.isSome e.kept)
  ++ leBytes 8 e.result.toNat ++ leBytes 8 (e.logSeq.getD 0)

/-- The counter addition that follows a record: after a continuing status, or with CONT; none for a
command absorbed by a partition reset (R228, R236). -/
def sigDue (c : Cmd) (e : CmdEnd) : Bool :=
  c.sigEn && (statusContinues e.status.toNat || c.cont) && e.detail != 0x0301

/-- What the serving engine notes of a template command's record (R299, R327). -/
def genNote (g : Gen) (q : Nat) (e : CmdEnd) : Gen :=
  match g.step with
  | none => g
  | some st =>
    if g.active && q == g.desc.stepQ then
      { g with step := some { st with
          left := st.left - 1
          failed := if !statusContinues e.status.toNat && st.failed.isNone then
              some (e.status, e.result) else st.failed } }
    else g

/-- The record is visible: the counter rule, the interrupt, and the end of the command (R215, R228,
R232). A queue that the record's status stops has stopped before. -/
def State.afterRecord (s : State) (p : Nat) (c : Cmd) (e : CmdEnd) : State :=
  let s := s.updQueue p c.q fun x =>
    { x with cplTail := BitVec.ofNat 17 ((x.cplTail.toNat + 1) % (2 * x.n)) }
  let s := s.dropCmd p c
  let s := if sigDue c e then s.evcAdd p c.sigCtr c.sigAdd else s
  let s := if c.intr then s.irq p ((s.part p).queue c.q).vec.toNat else s
  s.updPart p fun x => { x with
    gen := genNote x.gen c.q e
    -- the engine consumes the records of its own step queue (DEDUCED, log entry 9)
    queues := if x.gen.active && c.q == x.gen.desc.stepQ then
        SMap.modify {} x.queues c.q fun y => { y with cplHead := y.cplTail }
      else x.queues }

/-- Writes one record; the answer says whether the write was possible at all. -/
def State.writeRecord (s : State) (p : Nat) (c : Cmd) (e : CmdEnd) : State × XR Unit :=
  let x := (s.part p).queue c.q
  s.xwrite (s.helmReq p) (x.cpl.toNat + 32 * (x.cplTail.toNat % x.n))
    (recordBytes x (s.uPartHelm p) (cmdSlot (s.part p) c) c e)

/-- Held records of a queue, in order. -/
def State.heldCmds (s : State) (p q : Nat) : List Cmd :=
  let cs := (s.part p).cmds.filter fun c => c.q == q && c.held != 0
  (List.range (cs.length + 1)).filterMap fun i => cs.find? fun c => c.held == i

/-- A record that cannot be written now is held behind the earlier ones, and the queue stops with
reason 6 (R231). -/
def State.holdRecord (s : State) (p : Nat) (c : Cmd) : State :=
  let n := (s.heldCmds p c.q).length
  (s.updCmd p c fun y => { y with held := if y.held = 0 then n + 1 else y.held }).stopQueue p c.q 6

/-- Staged writes that a quarantine has held reach host memory. -/
def State.applyRest (s : State) (p : Nat) (c : Cmd) : State :=
  if c.staged.isEmpty then s
  else (s.applyStaged p c).updCmd p c fun y => { y with staged := [], atm := 0 }

/-- The command's outcome becomes its record (R228). -/
def State.completeCmd (s : State) (p : Nat) (c : Cmd) (e : CmdEnd) : State :=
  if !(s.heldBack c).isEmpty then s
  else if !(s.heldCmds p c.q).isEmpty then (s.applyRest p c).holdRecord p c
  else match (s.applyRest p c).writeRecord p c e with
    | (w, .held) => s.waking w
    | (s', .fail _ _) => s'.holdRecord p c
    | (s', .ok _) =>
      let s' := s'.afterRecord p c e
      let s' := if endStops c e && ((s'.part p).queue c.q).state == 1 then s'.stopQueue p c.q 1 else s'
      s'.genAfter p c.q

/-- Writes the held records of a queue in order, until one fails again or has to wait (R231, R238). A
stopping status stops the queue as it does elsewhere (R228). -/
def flushGo : List Cmd → Nat → State → Went State
  | [], _, s => .on s
  | c :: cs, p, s =>
    match c.outcome with
    | none => flushGo cs p s
    | some e =>
      match s.writeRecord p c e with
      | (w, .held) => .wait (s.waking w)
      | (s', .fail _ _) => .on (s'.stopQueue p c.q 6)
      | (s', .ok _) =>
        let s' := s'.afterRecord p c e
        let s' := if endStops c e && ((s'.part p).queue c.q).state == 1 then s'.stopQueue p c.q 1 else s'
        -- the rest move up one place
        flushGo cs p (s'.updPart p fun x => { x with
          cmds := x.cmds.map fun y => if y.q == c.q then { y with held := y.held - 1 } else y })

def State.flushHeld (s : State) (p q : Nat) : State :=
  match flushGo (s.heldCmds p q) p s with
  | .on s' => s'.genAfter p q
  | .wait s' => s'.genAfter p q

/-! Fetch (R207). -/

/-- Records written and not consumed. -/
def unconsumed (x : Queue) : Nat :=
  (x.cplTail.toNat + 2 * x.n - x.cplHead.toNat % (2 * x.n)) % (2 * x.n)

def State.dispatchedCount (s : State) (p : Nat) : Nat :=
  ((s.part p).cmds.filter fun c => c.dispatched).length

def maxDispatched : Nat := 4096

/-- The queue may fetch: descriptors are exposed, a record's room is left, and fewer than 4,096
commands are dispatched (R207, R221). -/
def State.canFetch (s : State) (p q : Nat) : Bool :=
  let x := (s.part p).queue q
  s.enabled p && !(s.part p).resetting && x.state == 1 && x.head != x.tail
  && decide (s.inflightOf p q + unconsumed x < x.n) && decide (s.dispatchedCount p < maxDispatched)

/-- Takes in the descriptor at PAR_Q_HEAD with the outcome of its validation. -/
def State.takeDescriptor (s : State) (p q : Nat) (bytes : List Byte) (bad : Option Nat) : State :=
  let x := (s.part p).queue q
  let c : Cmd := { q := q, idx := x.head.toNat, desc := BitVec.ofNat 512 (leNat bytes), bad := bad }
  (s.updPart p fun y => { y with cmds := y.cmds ++ [c] }).updQueue p q fun y =>
    { y with head := BitVec.ofNat 17 ((y.head.toNat + 1) % (2 * y.n)) }

/-- Reads the 64 bytes at PAR_Q_HEAD; a failure stops the queue with reason 5 and leaves the head
(R203). -/
def State.readSlot (s : State) (p q : Nat) : State × XR (List Byte) :=
  let x := (s.part p).queue q
  match s.xread (s.helmReq p) (x.base.toNat + 64 * (x.head.toNat % x.n)) 64 with
  | (s', .fail st va) => (s'.stopQueue p q 5, .fail st va)
  | r => r

/-! Dispatch (R219, R221, R235). -/

/-- A command of the queue has ended with a status that stops it; the record is still to come (R228). -/
def cmdStops (q : Nat) (c : Cmd) : Bool :=
  c.q == q && match c.outcome with
    | some e => endStops c e
    | none => false

/-- The command of a queue whose turn it is: the first neither dispatched nor ended. Behind an outcome
that stops the queue nothing more is dispatched, though PAR_Q_STATE changes with the record
(DEDUCED, log entry 15). -/
def State.nextOf (s : State) (p q : Nat) : Option Cmd :=
  if (s.part p).cmds.any (cmdStops q) then none else (s.part p).cmds.find? (cmdReturns q)

def State.waitMet (s : State) (p : Nat) (c : Cmd) : Bool :=
  !c.waitEn || decide (c.waitVal ≤ (s.evc p c.waitCtr).toNat)

/-- Every earlier command of the queue has its record (the command's own place is first). -/
def State.barrierMet (s : State) (p : Nat) (c : Cmd) : Bool :=
  !c.barrier || ((s.part p).cmds.find? fun y => y.q == c.q).any fun y => y.same c

/-- Bytes of the region that no dispatched atomic command holds. -/
def State.atmFree (s : State) (p : Nat) : Nat :=
  (s.part p).atmSize.toNat * 2 ^ 21 - ((s.part p).cmds.map fun c => c.atm).sum

/-- The turn of R221: among queues whose next command `can` go, the highest priority; within it the
queue in turn for up to 16 commands, then the next one round. -/
def State.pickQueue (s : State) (p : Nat) (can : Nat → Bool) : Option Nat :=
  let x := s.part p
  let ok := (List.range 64).filter fun q => (x.queue q).state == 1 && can q
  match ok with
  | [] => none
  | q0 :: qs =>
    let top := (qs.map fun q => (x.queue q).prio.toNat).foldl max (x.queue q0).prio.toNat
    let best := ok.filter fun q => (x.queue q).prio.toNat == top
    if best.contains x.rrQueue && decide (x.rrTaken < 16) then some x.rrQueue
    else match (List.range 64).find? fun i => best.contains ((x.rrQueue + 1 + i) % 64) with
      | some i => some ((x.rrQueue + 1 + i) % 64)
      | none => none

/-- Counts a command against its queue's turn. -/
def State.takeTurn (s : State) (p q : Nat) : State :=
  s.updPart p fun x => { x with
    rrTaken := if x.rrQueue = q ∧ x.rrTaken < 16 then x.rrTaken + 1 else 1, rrQueue := q }

end Sys2Proof.Machine
end

