-- ==== Sys2Proof/Machine/Scratch.lean ====
section
/-! DEFINITION. The bytes of a core's scratchpad (R124, R125, R153), below its marks and hazards. -/

namespace Sys2Proof.Machine

def scratchBytes : Nat := 0x600000

def scrBg (x : Core) (a : Nat) : Byte := if x.blank = 0 then 0 else Config.freeByte x.blank a
def scrByte (x : Core) (a : Nat) : Byte := SMap.get (scrBg x a) x.scratch a
def scrPut (x : Core) (a : Nat) (b : Byte) : Core :=
  { x with scratch := if x.blank = 0 then SMap.set 0 x.scratch a b
      else SMap.insert a b (SMap.erase x.scratch a) }
/-- A range of a scratchpad takes free values. -/
def State.freeRange (s : State) (c : Nat) (r : Nat × Nat) : State :=
  (s.updCore c fun x => (List.range r.2).foldl
    (fun x i => scrPut x (r.1 + i) (Config.freeByte s.free (r.1 + i))) x).tickFree

end Sys2Proof.Machine
end

