-- ==== Sys2Proof/Machine/Validate.lean ====
section
/-! DEFINITION. Validation of a descriptor at its fetch (R211, R212, R223 and the parameter tables of
the other chapters): the DETAIL of the first rule it breaks. -/

namespace Sys2Proof.Machine

/-- Assigned bits of the header (R211). -/
def headerBits : List (Nat × Nat) :=
  [(0, 8), (8, 4), (16, 12), (31, 1), (32, 12), (47, 1), (48, 16), (64, 64), (128, 32)]

/-- `n` bits from bit `lo` of the byte at `off`. -/
def pf (off n : Nat) (lo : Nat := 0) : Nat × Nat := (8 * off + lo, n)

def groupMode (c : Cmd) : Nat := c.f 0x24 8
def loadMode (c : Cmd) : Nat := c.f 0x28 8

/-- Assigned bits of the parameters, by opcode and mode. -/
def paramBits (c : Cmd) : List (Nat × Nat) :=
  let op := c.op
  if op == opKernel then [pf 0x18 56, pf 0x20 56, pf 0x28 160, pf 0x3C 32]
  else if op == opCopy then
    if isMigrate c then
      [pf 0x18 56, pf 0x20 44 12, pf 0x20 2 56, pf 0x28 40, pf 0x30 40, pf 0x38 1]
    else [pf 0x18 56, pf 0x20 56, pf 0x28 40, pf 0x38 1]
  else if op == opFill then
    [pf 0x18 56, pf 0x20 40, pf 0x30 1] ++ (if fScrub c then [] else [pf 0x28 64])
  else if op == opAttend then
    [pf 0x18 56, pf 0x20 56, pf 0x28 56, pf 0x30 56, pf 0x38 16, pf 0x3A 5, pf 0x3B 8, pf 0x3C 8]
  else if op == opSample then
    [pf 0x18 56, pf 0x20 56, pf 0x28 56, pf 0x30 56, pf 0x38 32, pf 0x3C 8, pf 0x3D 8]
  else if op == opVerify then [pf 0x18 56, pf 0x20 56, pf 0x28 56, pf 0x30 8]
  else if op == opUpdate then
    [pf 0x18 56, pf 0x20 56, pf 0x28 32, pf 0x2C 32, pf 0x30 32, pf 0x34 16, pf 0x36 2, pf 0x38 56]
  else if op == opSoundRead then [pf 0x18 56, pf 0x20 32, pf 0x24 32, pf 0x28 1]
  else if op == opCollective then
    [pf 0x18 56, pf 0x20 56, pf 0x28 64, pf 0x30 32, pf 0x34 32, pf 0x38 16, pf 0x3A 16, pf 0x3C 5,
     pf 0x3C 20 8]
  else if op == opGroupForm then
    if groupMode c = 2 then [pf 0x18 64, pf 0x20 12, pf 0x22 16, pf 0x24 8]
    else [pf 0x18 56, pf 0x20 12, pf 0x22 9, pf 0x24 8]
  else if op == opLoomMove then [pf 0x18 56, pf 0x20 56, pf 0x28 60, pf 0x30 32, pf 0x34 2]
  else if op == opWeightLoad then
    [if loadMode c = 2 then pf 0x18 64 else pf 0x18 56, pf 0x20 60, pf 0x28 8, pf 0x29 2, pf 0x2A 4]
  else if op == opFence then [pf 0x18 8, pf 0x1A 12, pf 0x20 64]
  else if op == opMark then [pf 0x18 64, pf 0x20 32]
  else if op == opAbort then [pf 0x18 8, pf 0x19 6, pf 0x1A 16, pf 0x1C 32, pf 0x20 5]
  else []

def bits512 (fs : List (Nat × Nat)) : BitVec 512 :=
  fs.foldl (fun a f => a ||| BitVec.ofNat 512 ((2 ^ f.2 - 1) * 2 ^ f.1)) 0

/-! Fields of the collective and learning commands (R266, R353, R374, R389). -/

def colOp (c : Cmd) : Nat := c.f 0x2F 8 / 16
def colGroup (c : Cmd) : Nat := c.f 0x2E 12
def colOrd (c : Cmd) : Nat := c.f 0x28 48
def colCount (c : Cmd) : Nat := c.f 0x30 32
def colStep (c : Cmd) : Nat := c.f 0x34 32
def colIn (c : Cmd) : Nat := c.f 0x38 16
def colOut (c : Cmd) : Nat := c.f 0x3A 16
def colRed (c : Cmd) : Nat := c.f 0x3C 2
def colStepEn (c : Cmd) : Bool := c.fb 0x3C 2
def colNf (c : Cmd) : Bool := c.fb 0x3C 3
def colFeed (c : Cmd) : Bool := c.fb 0x3C 4
def colCc (c : Cmd) : Nat := c.f 0x3D 4
def colFeedCore (c : Cmd) : Nat := c.f 0x3C 20 / 2 ^ 12
def colRoot (c : Cmd) : Nat := c.f 0x3C 28 / 2 ^ 20
/-- The operations that reduce (R268). -/
def colReduces (op : Nat) : Bool := op == 0 || op == 1 || op == 3

def loomLocal (c : Cmd) : Bool := c.fb 0x34 0
def loomN (c : Cmd) : Nat := c.f 0x30 32

def updFirst (c : Cmd) : Nat := c.f 0x28 32
def updN (c : Cmd) : Nat := c.f 0x2C 32
def updStepNo (c : Cmd) : Nat := c.f 0x30 32
def updFmt (c : Cmd) : Nat := c.f 0x34 16
def updSkipNf (c : Cmd) : Bool := c.fb 0x36 0
def updNfCheck (c : Cmd) : Bool := c.fb 0x36 1
def updScalar (c : Cmd) : Nat := c.va 0x38

def sndFirst (c : Cmd) : Nat := c.f 0x20 32
def sndN (c : Cmd) : Nat := c.f 0x24 32
def sndClear (c : Cmd) : Bool := c.fb 0x28 0

def atCoreFirst (c : Cmd) : Nat := c.f 0x3B 8
def atCoreN (c : Cmd) : Nat := c.f 0x3C 8

/-- A plain 32- or 16-bit floating format word: FP32, BF16 or FP16 with every other field 0. -/
def plainFmt (w : Nat) : Bool := decide (w ≤ 2)

/-- A format word that a reduction may carry (R268): FP32, BF16 or FP16, no stochastic rounding. -/
def reduceFmtBad (w : Nat) (src : Bool) : Bool :=
  let f := FmtWord.of (BitVec.ofNat 16 w)
  f.reserved src || decide (2 < f.fmt) || f.rnd == 1

/-- A reserved field value of COLLECTIVE (R266 to R271); FEED outside ALL_GATHER and BROADCAST is
taken as one (DEDUCED, log entry 15). -/
def collReserved (c : Cmd) : Bool :=
  let op := colOp c
  decide (6 ≤ op) || colRed c == 3 || (!colStepEn c && colStep c != 0)
  || (if colReduces op then
        reduceFmtBad (colIn c) true || reduceFmtBad (colOut c) false || colFeed c
        || (colNf c && colRed c != 0)
      else
        colIn c != colOut c || decide (12 ≤ colIn c) || colNf c || (colFeed c && op == 5))

/-- A reserved field value, by opcode. -/
def paramReserved (c : Cmd) : Bool :=
  let op := c.op
  if op == opCopy then isMigrate c && mDstTier c == 3
  else if op == opUpdate then !plainFmt (updFmt c)
  else if op == opCollective then collReserved c
  else if op == opGroupForm then decide (3 ≤ groupMode c)
  else if op == opLoomMove then loomLocal c && c.f 0x28 60 != 0
  else if op == opWeightLoad then
    decide (3 ≤ loadMode c) || (loadMode c != 0 && c.f 0x20 60 != 0)
  else if op == opFence then decide (4 ≤ sSub c)
  else if op == opAbort then decide (4 ≤ aScope c)
  else false

/-- A set reserved bit or a reserved value, the header's included. -/
def descReserved (c : Cmd) : Bool :=
  (c.desc &&& ~~~(bits512 (headerBits ++ paramBits c)) != 0) || (!c.sigEn && c.sigAdd != 0)
  || paramReserved c

/-- Entries of the Soundings table (R335). -/
def sndEntries (x : Part) : Nat := 2 ^ x.snd.log2n.toNat

/-- An address, alignment, length or count outside its range. -/
def rangeBad (x : Part) (c : Cmd) : Bool :=
  let op := c.op
  if op == opKernel then
    kImage c % 64 != 0 || kArgs c % 8 != 0 || (kCores c).isEmpty || (c.atomic && kAtmMax c == 0)
  else if op == opCopy then
    if isMigrate c then
      cLen c == 0 || cLen c % 4096 != 0 || cSrc c % 4096 != 0
    else cLen c == 0 || cLen c % 4 != 0 || cSrc c % 4 != 0 || cDst c % 4 != 0
  else if op == opFill then
    let a := if fScrub c then 64 else 8
    fLen c == 0 || fLen c % a != 0 || fDst c % a != 0
  else if op == opAttend then atCoreN c == 0
  else if op == opUpdate then
    c.va 0x18 % 128 != 0 || updN c == 0 || decide (65536 < updN c) || updStepNo c == 0
    || updScalar c % 16 != 0
  else if op == opSoundRead then
    c.va 0x18 % 128 != 0 || sndN c == 0 || decide (sndEntries x < sndFirst c + sndN c)
  else if op == opCollective then colCount c == 0
  else if op == opGroupForm then
    groupMode c != 2 && (c.va 0x18 % 4 != 0 || c.f 0x22 9 == 0 || decide (256 < c.f 0x22 9))
  else if op == opLoomMove then
    c.va 0x18 % 128 != 0 || c.va 0x20 % 128 != 0 || loomN c == 0 || decide (65536 < loomN c)
  else if op == opWeightLoad then loadMode c != 2 && c.va 0x18 % 64 != 0
  else if op == opAbort then aScope c == 0 && decide ((x.queue (aQueue c)).n ≤ aSlot c)
  else false

/-- Partition core indices that a command names. -/
def cmdCores (c : Cmd) : List Nat :=
  if c.op == opKernel then kCores c
  else if c.op == opAttend then (List.range (atCoreN c)).map (atCoreFirst c + ·)
  else if c.op == opSample then [c.f 0x3D 8]
  else if c.op == opVerify then [c.f 0x30 8]
  else if c.op == opCollective && colFeed c then [colFeedCore c]
  else []

def State.coresAbsent (s : State) (p : Nat) (c : Cmd) : Bool :=
  (cmdCores c).any fun i => (s.coreAt p i).isNone

/-- The DETAIL of R212, or `none` for a descriptor that breaks no rule. -/
def State.descDetail (s : State) (p : Nat) (c : Cmd) : Option Nat :=
  if !opcodes.contains c.op then some 0x0201
  else if descReserved c then some 0x0202
  else if c.atomic && atomicRejected c.op then some 0x0203
  else if rangeBad (s.part p) c then some 0x0204
  else if c.sigEn && c.sigAdd == 0 then some 0x0205
  else if s.coresAbsent p c then some 0x0206
  else if c.op == opAbort && aScope c == 2 && !(s.part p).ownsCluster (aCluster c) then some 0x0207
  else none

end Sys2Proof.Machine
end

