-- ==== Sys2Proof/Machine/Groups.lean ====
section
/-! DEFINITION. Groups (R259 to R265), and the end of a command that runs over a group: COLLECTIVE, a
LOOM_MOVE without LOCAL, and LOAD. -/

namespace Sys2Proof

def Group.inUse (g : Group) : Bool := !g.members.isEmpty
def Group.n (g : Group) : Nat := g.members.length

/-- What the collective side of a command keeps, once its row has run. -/
def Cmd.coll (c : Cmd) : Option Coll :=
  match c.prog with
  | .coll k => some k
  | .load l => some l.coll
  | .loom l => some l.coll
  | _ => none

def Cmd.updColl (f : Coll → Coll) (c : Cmd) : Cmd :=
  { c with prog := match c.prog with
      | .coll k => .coll (f k)
      | .load l => .load { l with coll := f l.coll }
      | .loom l => .loom { l with coll := f l.coll }
      | g => g }

end Sys2Proof

namespace Sys2Proof.Machine

def State.group (s : State) (g : Nat) : Group := SMap.get {} s.groups g
def State.updGroup (s : State) (g : Nat) (f : Group → Group) : State :=
  { s with groups := SMap.modify {} s.groups g f }

/-- Group ids in use, those that a FORM in progress has taken among them (R265). -/
def State.groupsUsed (s : State) : Nat := s.groups.length

/-- The group is formed for the partition; a broken one still is (R262, R264). -/
def State.groupFor (s : State) (p g : Nat) : Bool :=
  (s.group g).inUse && (s.group g).part == p && (s.group g).state != .forming

/-! Commands over a group. -/

def isLoad (c : Cmd) : Bool := c.op == opWeightLoad && loadMode c == 0
def isLoomGroup (c : Cmd) : Bool := c.op == opLoomMove && !loomLocal c
def overGroup (c : Cmd) : Bool := c.op == opCollective || isLoomGroup c || isLoad c

def gGroup (c : Cmd) : Nat := if isLoad c then c.f 0x26 12 else colGroup c
def gOrd (c : Cmd) : Nat := if isLoad c then c.f 0x20 48 else colOrd c
def loadSet (c : Cmd) : Nat := c.f 0x2A 4

def cmdPhase (c : Cmd) : CollPhase := match c.coll with | some k => k.phase | none => .waiting

/-- Admitted and not ended (R274). -/
def cmdAdmitted (c : Cmd) : Bool := overGroup c && cmdLive c && cmdPhase c != .waiting

/-- Dispatched and waiting for admission. -/
def cmdWaiting (c : Cmd) : Bool := overGroup c && cmdLive c && cmdPhase c == .waiting

/-- Tiles of the links that the command's group uses: the first hops of its routes (R51, R250). -/
def State.groupTiles (s : State) (c : Cmd) : List Nat :=
  (((s.group (gGroup c)).members.filterMap fun m =>
    (s.route s.coord m.coord.toNat).bind firstHop).flatMap fun h =>
      (List.range (dirCount h.1)).map fun j => (dirBase h.1 + j) % 4).eraseDups

/-! Elements of a COLLECTIVE (R267). -/

def collBits (w : Nat) : Nat := fmtBits (w % 16)

def collSrcCount (c : Cmd) (n rank : Nat) : Nat :=
  match colOp c with
  | 1 | 5 => n * colCount c
  | 4 => if rank = colRoot c then colCount c else 0
  | _ => colCount c

def collDstCount (c : Cmd) (n rank : Nat) : Nat :=
  match colOp c with
  | 2 | 5 => n * colCount c
  | 3 => if rank = colRoot c then colCount c else 0
  | _ => colCount c

def bitBytes (count bits : Nat) : Nat := (count * bits + 7) / 8

def collDstBytes (c : Cmd) (n rank : Nat) : Nat := bitBytes (collDstCount c n rank) (collBits (colOut c))
def collSrcBytes (c : Cmd) (n rank : Nat) : Nat := bitBytes (collSrcCount c n rank) (collBits (colIn c))

def colSrc (c : Cmd) : Nat := c.va 0x18
def colDst (c : Cmd) : Nat := c.va 0x20

/-- VA of the non-finite word (R270). -/
def nfVa (c : Cmd) (n rank : Nat) : Nat := colDst c + ceilDiv (collDstBytes c n rank) 64 * 64

/-- This member writes a non-finite word. -/
def nfWord (c : Cmd) (n rank : Nat) : Bool := colNf c && decide (0 < collDstCount c n rank)

/-- Memory that a COLLECTIVE writes on this member: start and length. -/
def collRanges (c : Cmd) (n rank : Nat) : List (Nat × Nat) :=
  (if collDstCount c n rank = 0 then [] else [(colDst c, collDstBytes c n rank)])
  ++ (if nfWord c n rank then [(nfVa c n rank, 8)] else [])

/-! Ending. -/

/-- One message to a member, on the stream that a rule gives or on any. -/
def State.sendTo (s : State) (g rank kind : Nat) (payload : List Byte) (stream : Option Nat := none) :
    State :=
  match (s.group g).members[rank]? with
  | none => s
  | some m =>
    s.post kind m.coord.toNat m.part.toNat g (stream.getD (s.anyStream kind)) payload

def State.sendOthers (s : State) (g kind : Nat) (payload : List Byte) (stream : Option Nat := none) :
    State :=
  (List.range (s.group g).n).foldl (fun s r =>
    if r = (s.group g).rank then s else s.sendTo g r kind payload stream) s

/-- What a message of a collective names: epoch and ordinal (R275). -/
def State.groupKey (s : State) (c : Cmd) : List Byte :=
  leBytes 1 (s.group (gGroup c)).epoch.toNat ++ leBytes 8 (gOrd c)

/-- RESULT of a collective that has passed its commit point and still sends (R279). -/
def cmdCommitted (c : Cmd) : Option Nat := c.coll.bind (·.committed)

/-- Bytes of a destination take free values (R281, R284). -/
def State.scrambleDst (s : State) (p : Nat) (c : Cmd) : State :=
  let g := s.group (gGroup c)
  match c.prog with
  | .coll _ =>
    if colFeed c then
      match s.coreAt p (colFeedCore c) with
      | some k => s.freeRange k (colDst c, collDstBytes c g.n g.rank)
      | none => s
    else (collRanges c g.n g.rank).foldl (fun s r => s.scramble p r.1 r.2) s
  | .loom l => l.tensors.foldl (fun s t =>
      t.2.ranges.foldl (fun s r => s.scramble p r.1 r.2) s) s
  | .load l => l.entries.foldl (fun s e =>
      (e.dst.take e.copies).foldl (fun s va => s.scramble p va e.len) s) s
  | _ => s

/-- The set returns to EMPTY (R393, R394). -/
def State.emptySet (s : State) (p k : Nat) : State :=
  s.updSet p k fun w => { w with state := 0, entries := [], recoveries := [] }

/-- Ends a command over a group short of its commit point. Before its data phase it has written
nothing and DST_KEPT is 1; afterwards its destination is undefined. `tell` = it sends ABANDON; a
RESULT that no rule states is a free value (log entry 21). One that has passed its commit point
reports DONE. -/
def State.endGroup (s : State) (p : Nat) (c : Cmd) (st detail : Nat) (result : Option Nat := none)
    (tell : Bool := false) (logSeq : Option Nat := none) (unit : Option Nat := none) : State :=
  let c := s.cmdNow p c
  if c.outcome.isSome then s
  else
    let s := if tell then s.sendOthers (gGroup c) msgAbandon (s.groupKey c) else s
    match cmdCommitted c with
    | some r => s.finish p c (endDone r)
    | none =>
    let moved := cmdPhase c == .data
    let s := if moved then s.scrambleDst p c else s
    let s := match c.prog with
      | .load l => s.emptySet p l.set
      | _ => s
    let v := result.getD (s.freeVal % 2 ^ 64)
    s.tickFree.finish p c (endWith st detail v (!moved) unit logSeq)

/-- Such an end by a translated access that failed. -/
def State.missGroup (s : State) (p : Nat) (c : Cmd) (st : Nat) (m : Miss) (tell : Bool) : State :=
  s.endGroup p c st 0 (some m.va) tell m.log (some m.unit)

/-! Breaking a group (R264). -/

/-- The group breaks: its admitted and waiting commands end with MEMBER_LOST. -/
def State.breakGroup (s : State) (g detail lost : Nat) : State :=
  let x := s.group g
  if x.inUse && x.state == .formed then
    let s := s.updGroup g fun x => { x with state := .broken, lostRank := lost }
    let s := s.eventP 0x3022 (s.uPartHelm x.part) x.part
    ((s.part x.part).cmds.filter fun c => overGroup c && cmdLive c && gGroup c == g).foldl
      (fun s c => s.endGroup x.part c stMemberLost detail (some lost)) s
  else s

/-- Groups with an unreachable member break (R253, R264). -/
def State.breakLost (s : State) : State :=
  s.groups.foldl (fun s e =>
    match e.2.members.zipIdx.find? fun m => !s.reaches m.1.coord.toNat with
    | some m => s.breakGroup e.1 0x1011 m.2
    | none => s) s

/-- A LEAVE from a member. -/
def execLeave (g : BitVec 12) (rank : Fin 256) (s : State) : Ans :=
  .next (if rank.val < (s.group g.toNat).n && rank.val != (s.group g.toNat).rank then
    s.breakGroup g.toNat 0x1011 rank.val else s)

/-- A partition reset: LEAVE for every group of the partition, and their ids are free (R265, R285). -/
def State.leaveGroups (s : State) (p : Nat) : State :=
  (s.groups.filter fun e => e.2.part == p).foldl (fun s e =>
    let s := if e.2.state == .forming then s else s.sendOthers e.1 msgLeave []
    { s with groups := SMap.set {} s.groups e.1 {} }) s

/-! GROUP_FORM (R260 to R263). -/

def memberOf (w : Nat) : Member := ⟨BitVec.ofNat 8 w, BitVec.ofNat 4 (w / 256)⟩

/-- The member table breaks the second row of R263. -/
def State.tableBad (s : State) (p : Nat) (ws : List Nat) : Bool :=
  let ms := ws.map memberOf
  ws.any (fun w => decide (4096 ≤ w)) || ms.any (fun m => !s.coordOk m.coord.toNat)
  || !(ms.map (·.coord)).Nodup
  || !(ms.contains ⟨BitVec.ofNat 8 s.coord, BitVec.ofNat 4 p⟩)

/-- The list hash of R261. -/
def listHashOf (g epoch n : Nat) (table : List Byte) : Dword :=
  sha256Key (leBytes 2 g ++ leBytes 1 epoch ++ leBytes 2 n ++ table)

/-- A GROUP_FORM ends short of its commit: the id that FORM took is free again (R263). -/
def State.endForm (s : State) (p : Nat) (c : Cmd) (st detail result : Nat) : State :=
  let s := match (s.cmdNow p c).prog with
    | .form f => if f.reform then s else { s with groups := SMap.set {} s.groups f.group {} }
    | _ => s
  s.finish p c (endWith st detail result)

/-- What came early for another epoch of the group is forgotten (R264, R275). -/
def State.forgetEpochs (s : State) (p g : Nat) (keep : Nat → Bool) : State :=
  s.updPart p fun x => { x with
    early := x.early.filter fun e => e.1 != g || keep e.2.1
    abandoned := x.abandoned.filter fun e => e.1 != g || keep e.2.1 }

/-- The commit point of FORM and REFORM. -/
def State.formDone (s : State) (p : Nat) (c : Cmd) (f : Forming) : State :=
  let s := (s.forgetEpochs p f.group (· == f.epoch.toNat)).updGroup f.group fun _ =>
    { part := p, members := f.members, rank := f.rank, epoch := f.epoch, state := .formed }
  s.finish p c (endDone (f.rank + f.epoch.toNat * 2 ^ 16))

/-- The forming command takes one member's hash (R261, R263). -/
def State.formTake (s : State) (p : Nat) (c : Cmd) (rank : Nat) (h : Dword) : State :=
  match (s.cmdNow p c).prog with
  | .form f =>
    if h ≠ f.hash then s.endForm p c stDescMismatch 0x1030 h.toNat
    else
      let f' := { f with got := f.got ++ [(rank, h)] }
      let s := s.updCmd p c fun y => { y with prog := .form f' }
      if f'.got.length + 1 = f'.members.length then s.formDone p c f' else s
  | _ => s

/-- The forming command waits for this rank's hash. -/
def formWants (f : Forming) (rank : Nat) : Bool :=
  decide (rank < f.members.length) && rank != f.rank && !(f.got.any fun e => e.1 == rank)

/-- The rank that this member's own table gives the module a hash came from. -/
def formRank (f : Forming) (coord : Nat) : Nat := f.members.findIdx fun m => m.coord.toNat == coord

/-- Takes the hashes that came early. -/
def formEarly (p : Nat) (c : Cmd) : List (Nat × Dword) → State → List (Nat × Dword) → State × List (Nat × Dword)
  | [], s, rest => (s, rest)
  | e :: es, s, rest =>
    match (s.cmdNow p c).prog with
    | .form f =>
      if formWants f (formRank f e.1) then
        formEarly p c es (s.formTake p c (formRank f e.1) e.2) rest
      else formEarly p c es s (rest ++ [e])
    | _ => formEarly p c es s (rest ++ [e])

/-- Sends this member's hash to the others and waits for theirs. -/
def State.formStart (s : State) (p : Nat) (c : Cmd) (f : Forming) : State :=
  let s := s.updCmd p c fun y => { y with prog := .form f }
  let s := f.members.zipIdx.foldl (fun s m =>
    if m.2 = f.rank then s
    else s.post msgListHash m.1.coord.toNat m.1.part.toNat f.group (s.anyStream msgListHash)
      (leBytes 1 s.coord ++ leBytes 8 f.hash.toNat)) s
  if f.members.length = 1 then s.formDone p c f
  else
    let x := formEarly p c (SMap.get [] s.hashes f.group) s []
    { x.1 with hashes := SMap.set [] x.1.hashes f.group x.2 }

/-- FORM and REFORM, from the reading of the member table on. -/
def State.startForm (s : State) (p : Nat) (c : Cmd) (reform : Bool) : State :=
  let g := c.f 0x20 12
  let n := c.f 0x22 9
  let s := if reform && s.groupFor p g then s.breakGroup g 0x1012 0xFFFF else s
  match s.xread (s.helmReq p) (c.va 0x18) (4 * n) with
  | (w, .held) => s.waking w
  | (s, .fail st va) => s.finish p c (endAt st va)
  | (s, .ok bs) =>
    let ws := (List.range n).map fun i => bAt bs (4 * i) 4
    let ms := ws.map memberOf
    let rank := ms.idxOf ⟨BitVec.ofNat 8 s.coord, BitVec.ofNat 4 p⟩
    let old := s.group g
    let epoch : BitVec 8 := if reform then old.epoch + 1 else 0
    let f : Forming :=
      { group := g, epoch := epoch, members := ms, rank := rank
        hash := listHashOf g epoch.toNat n bs, reform := reform, got := [] }
    if s.tableBad p ws then s.finish p c (endWith stDeviceFault 0x0204)
    else if reform then
      if s.groupFor p g && ms.isSublist old.members then s.formStart p c f
      else s.finish p c (endWith stDeviceFault 0x1010)
    else if 4096 ≤ s.groupsUsed then s.finish p c (endWith stBusy 0x1031)
    else if old.inUse then s.finish p c (endWith stBusy 0x1032)
    else
      let s := s.updGroup g fun _ => { part := p, members := ms, rank := rank, state := .forming }
      s.formStart p c f

def isForm (mode : Nat) (c : Cmd) : Bool := c.op == opGroupForm && groupMode c == mode

/-- A command row on a command whose row has not run yet. -/
def State.onNew (s : State) (p : Fin 16) (q : Fin 64) (slot : BitVec 16) (kind : Cmd → Bool)
    (f : Cmd → State) : Ans :=
  .next (match s.rowCmd p.val q.val slot.toNat fun c => kind c && c.prog == .none with
    | none => s
    | some c => f c)

def execForm (p : Fin 16) (q : Fin 64) (slot : BitVec 16) (s : State) : Ans :=
  s.onNew p q slot (isForm 0) fun c => s.startForm p.val c false

def execReform (p : Fin 16) (q : Fin 64) (slot : BitVec 16) (s : State) : Ans :=
  s.onNew p q slot (isForm 1) fun c => s.startForm p.val c true

/-- DISSOLVE breaks the group and frees its id (R262, R264). -/
def execDissolve (p : Fin 16) (q : Fin 64) (slot : BitVec 16) (s : State) : Ans :=
  s.onNew p q slot (isForm 2) fun c =>
    let g := c.f 0x20 12
    if s.groupFor p.val g then
      let s := (s.breakGroup g 0x1012 0xFFFF).forgetEpochs p.val g fun _ => false
      ({ s with groups := SMap.set {} s.groups g {} }).finish p.val c (endDone 0)
    else s.finish p.val c (endWith stDeviceFault 0x1010)

/-- The command that forms a group here. -/
def State.formingCmd (s : State) (g : Nat) : Option (Nat × Cmd × Forming) :=
  (List.range 16).findSome? fun p => (s.part p).cmds.findSome? fun c =>
    match c.prog with
    | .form f => if f.group = g then some (p, c, f) else none
    | _ => none

/-- One that comes before this member's own GROUP_FORM is kept for it. -/
def execListHash (g : BitVec 12) (coord : BitVec 8) (hash : Dword) (s : State) : Ans :=
  .next (
    let keep := { s with hashes := SMap.modify [] s.hashes g.toNat (· ++ [(coord.toNat, hash)]) }
    match s.formingCmd g.toNat with
    | some (p, c, f) =>
      if formWants f (formRank f coord.toNat) then s.formTake p c (formRank f coord.toNat) hash else keep
    | none => keep)

/-- 50 ms have passed since the dispatch: the lowest silent rank is lost (R263). -/
def execGroupFormTimeout (p : Fin 16) (q : Fin 64) (slot : BitVec 16) (s : State) : Ans :=
  .next (match s.rowCmd p.val q.val slot.toNat fun c => c.op == opGroupForm with
    | none => s
    | some c => match c.prog with
      | .form f =>
        let silent := ((List.range f.members.length).find? (formWants f)).getD 0
        s.endForm p.val c stMemberLost 0x1033 silent
      | _ => s)

end Sys2Proof.Machine
end

