-- ==== Sys2Proof/Machine/CoreOps.lean ====
section
/-! DEFINITION. The core below its instructions: registers (R107), the scratchpad with its marks and
hazards (R124, R125, R138 to R140), the kernel a core runs (R147 to R150), faults and the end of a
kernel (R151 to R154), and the issue of one instruction (R137, R142, R144). -/

namespace Sys2Proof.Machine

/-! Fields of an instruction word. -/

/-- Bits [hi:lo] of a word. -/
def iw (w : Dword) (hi lo : Nat) : Nat := fld w.toNat lo (hi - lo + 1)

def iOp (w : Dword) : Nat := iw w 63 56

/-- A word whose bits [hi:lo] are set. -/
def bitsMask (fs : List (Nat × Nat)) : Dword :=
  fs.foldl (fun a f => a ||| (BitVec.ofNat 64 ((2 ^ (f.1 - f.2 + 1) - 1) * 2 ^ f.2))) 0

/-- Opcodes that R144 lists. -/
def listedOps : List Nat :=
  [0x00, 0x01, 0x02, 0x03, 0x04, 0x08, 0x09, 0x0A, 0x0B, 0x0C, 0x0D] ++
  [0x10, 0x11, 0x12, 0x13, 0x14, 0x15, 0x16, 0x17, 0x20, 0x21, 0x22] ++
  [0x30, 0x31, 0x32, 0x33, 0x34, 0x35, 0x36, 0x37, 0x38, 0x39, 0x3A, 0x3B, 0x3C, 0x3D, 0x3E, 0x3F] ++
  [0x40, 0x41, 0x42, 0x44, 0x45, 0x46, 0x47, 0x48, 0x49, 0x4A, 0x4B, 0x4C, 0x4D] ++
  [0x50, 0x51, 0x52, 0x53, 0x60, 0x61, 0x62, 0x63, 0x70, 0x71, 0x72, 0x73, 0x74, 0x75]

/-! Registers. -/

def coreD (x : Core) (i : Nat) : Dword := if i = 0 then 0 else SMap.get 0 x.d i
/-- D0 ignores writes (R107). -/
def coreSetD (x : Core) (i : Nat) (v : Dword) : Core :=
  if i = 0 then x else { x with d := SMap.set 0 x.d i v }

def tileKey (i j : Nat) : Nat := 128 * i + j
def elem (e : Elems) (k : Nat) : Word := SMap.get 0 e k
def coreX (x : Core) (r : Nat) : Elems := SMap.get [] x.x r
def coreSetX (x : Core) (r : Nat) (e : Elems) : Core := { x with x := SMap.set [] x.x r e }
def coreV (x : Core) (r : Nat) : Elems := SMap.get [] x.v r
def coreSetV (x : Core) (r : Nat) (e : Elems) : Core := { x with v := SMap.set [] x.v r e }
def coreBank (x : Core) (b : Nat) : Bank := SMap.get {} x.banks b
def coreSetBank (x : Core) (b : Nat) (v : Bank) : Core := { x with banks := SMap.set {} x.banks b v }
def coreFeed (x : Core) (f : Nat) : FeedDesc := SMap.get {} x.feeds f

/-- A tile from its elements. -/
def tileFn (f : Nat → Word) : Elems := SMap.ofFn 0 16384 f
def vecFn (f : Nat → Word) : Elems := SMap.ofFn 0 128 f

def State.setD (s : State) (c r : Nat) (v : Dword) : State := s.updCore c fun x => coreSetD x r v
def State.dreg (s : State) (c r : Nat) : Dword := coreD (s.core c) r

/-! Register numbers in the queues of uncompleted instructions (UEntry). -/

def rD (i : Nat) : Nat := i
def rX (i : Nat) : Nat := 32 + i
def rV (i : Nat) : Nat := 48 + i
def rBank (b : Nat) : Nat := 56 + b

/-! The scratchpad. -/

def scrPoisoned (x : Core) (w : Nat) : Bool := SMap.get false x.poison w

/-- Every byte of [a, a + n) exists (R125). -/
def scrIn (a n : Nat) : Bool := decide (a + n ≤ scratchBytes)

def wordsOf (a n : Nat) : List Nat :=
  if n = 0 then [] else (List.range ((a + n - 1) / 8 - a / 8 + 1)).map (a / 8 + ·)

/-- A word that is read: a single-bit error is corrected and counted, an uncorrectable one poisons it
(R124). -/
def State.senseWord (s : State) (c w : Nat) : State :=
  match SMap.get 0 (s.core c).err w with
  | 1 => s.updCore c fun x => { x with
      err := SMap.set 0 x.err w 0, regs := { x.regs with eccCorr := satInc x.regs.eccCorr } }
  | 2 =>
    let s := s.updCore c fun x => { x with
      err := SMap.set 0 x.err w 0, poison := SMap.set false x.poison w true
      badWords := if x.badWords.contains w then x.badWords else x.badWords ++ [w]
      regs := { x.regs with eccUncorr := satInc x.regs.eccUncorr } }
    s.event 0x2001 (uCore c)
  | _ => s

def State.senseRanges (s : State) (c : Nat) (rs : List (Nat × Nat)) : State :=
  rs.foldl (fun s r => (wordsOf r.1 r.2).foldl (fun s w => s.senseWord c w) s) s

/-- Address of the first poisoned word of the ranges. -/
def poisonIn (x : Core) (rs : List (Nat × Nat)) : Option Nat :=
  ((rs.flatMap fun r => wordsOf r.1 r.2).find? (scrPoisoned x)).map (· * 8)

/-! Hazards (R138 to R140). Units: 0 Array A, 1 Array B, 2 vector, 3 DMA. -/

def inRange (r : Nat × Nat) (a : Nat) : Bool := decide (r.1 ≤ a ∧ a < r.1 + r.2)
def meets (a b : Nat × Nat) : Bool := decide (a.1 < b.1 + b.2 ∧ b.1 < a.1 + a.2)

def unitQueue (x : Core) : Nat → List UEntry
  | 0 => x.qa | 1 => x.qb | 2 => x.qv | _ => []

/-- Scratchpad ranges of core `c` that units other than `unit` of core `me` have not finished
writing, DMAPEERs of other cores among them. Unit 4 is a DMAPEER from `me` into `c`. -/
def State.foreignWrites (s : State) (c unit : Nat) (me : Nat := c) : List (Nat × Nat) :=
  let x := s.core c
  ((List.range 3).filter (· != unit)).flatMap (fun u => (unitQueue x u).flatMap (·.swr))
  ++ (if unit = 3 then [] else (x.dmas.filter fun d => d.kind == .into).map fun d => (d.local_, d.len))
  ++ s.cores.flatMap fun k => (k.2.dmas.filter fun d =>
      d.kind == .peer && d.core == c && !(unit == 4 && k.1 == me)).map fun d => (d.dst, d.len)

/-- The scratchpad as a unit reads it: bytes that another unit has not finished writing are undefined
(R139). -/
def State.scrView (s : State) (c unit : Nat) : Nat → Byte :=
  let x := s.core c
  let fw := s.foreignWrites c unit
  fun a => if fw.any (inRange · a) then Config.freeByte s.free a else scrByte x a

/-- A free 32-bit value at a key. -/
def freeWordAt (occasion k : Nat) : Word :=
  BitVec.ofNat 32 (leNat ((List.range 4).map fun i => Config.freeByte occasion (4 * k + i)))

/-- A register or bank takes free values. -/
def State.freeReg (s : State) (c r : Nat) : State :=
  let f := fun k => freeWordAt s.free (r * 16384 + k)
  let s' := s.updCore c fun x =>
    if r < 32 then coreSetD x r (BitVec.ofNat 64 (leNat (s.freeBytes 8)))
    else if r < 48 then coreSetX x (r - 32) (tileFn f)
    else if r < 56 then coreSetV x (r - 48) (vecFn f)
    else { x with banks := SMap.modify {} x.banks (r - 56) fun b => { b with vals := tileFn f } }
  s'.tickFree

/-- Staged writes `at_.1` to `at_.1 + at_.2 - 1` of a command take free bytes. -/
def freeStaged (occasion : Nat) (at_ : Nat × Nat) (ws : List (Nat × Nat × List Byte)) :
    List (Nat × Nat × List Byte) :=
  ws.zipIdx.map fun e =>
    if inRange at_ e.2 then
      (e.1.1, e.1.2.1, e.1.2.2.zipIdx.map fun b => Config.freeByte occasion (e.1.2.1 + b.2))
    else e.1

/-- A DMA that read undefined data: what it wrote takes free values. An atomic kernel's DMAOUT has
written nothing yet: its staged bytes take them. -/
def State.freeDma (s : State) (c : Nat) (d : DmaEntry) : State :=
  match d.kind with
  | .into => s.freeRange c (d.local_, d.len)
  | .peer => s.freeRange d.core (d.dst, d.len)
  | .out =>
    match (s.core c).job with
    | some (p, q, idx) =>
      if d.stg.2 = 0 then s.scramble p d.dst d.len
      else
        let f := fun (y : Cmd) =>
          if y.q == q && y.idx == idx then { y with staged := freeStaged s.free d.stg y.staged } else y
        (s.updPart p fun x => { x with cmds := x.cmds.map f }).tickFree
    | none => s

/-- Where undefined data has gone: registers, scratchpad ranges, and the instructions that read it. -/
structure Taint where
  regs : List Nat := []
  rngs : List (Nat × Nat) := []
  nos : List Nat := []

/-- What a write leaves of a range. -/
def cutRange (r w : Nat × Nat) : List (Nat × Nat) :=
  if !meets r w then [r]
  else (if r.1 < w.1 then [(r.1, w.1 - r.1)] else [])
    ++ (if w.1 + w.2 < r.1 + r.2 then [(w.1 + w.2, r.1 + r.2 - (w.1 + w.2))] else [])

/-- Undefined data followed through one instruction: it passes on what it read, and overwrites what
it did not. -/
def taintStep (readers : List Nat) (t : Taint) (e : UEntry) : Taint :=
  if readers.contains e.no || e.rd.any (t.regs.contains ·) || e.srd.any fun a => t.rngs.any (meets a) then
    { regs := e.wr ++ t.regs, rngs := e.swr ++ t.rngs, nos := e.no :: t.nos }
  else
    { t with
      regs := t.regs.filter fun r => !e.wr.contains r
      rngs := e.swr.foldl (fun rs w => rs.flatMap fun r => cutRange r w) t.rngs }

/-- A DMA as the hazards see it. -/
def dmaUse (d : DmaEntry) : UEntry :=
  match d.kind with
  | .into => { no := d.no, swr := [(d.local_, d.len)] }
  | _ => { no := d.no, srd := [(d.local_, d.len)] }

/-- Inserts an instruction by its place in the order of issue. -/
def insertNo (e : UEntry) : List UEntry → List UEntry
  | [] => [e]
  | f :: fs => if e.no ≤ f.no then e :: f :: fs else f :: insertNo e fs

/-- A core's uncompleted instructions in the order of issue. -/
def coreOpen (x : Core) : List UEntry :=
  (x.qa ++ x.qb ++ x.qv ++ x.dmas.map dmaUse).foldr insertNo []

/-- The counts of a Soundings slot become undefined. -/
def freeSlot (occasion k : Nat) (x : Core) : Core :=
  let v := fun i => (freeWordAt occasion (2 ^ 25 + 32 * k + i)).toNat % 65536
  { x with slots := SMap.modify {} x.slots k fun r =>
      { r with elems := v 0, zero := v 1, sat := v 2, nan := v 3, inf := v 4
               maxExp := some ((v 5 : Int) - 32768), hist := SMap.ofFn 0 16 fun i => v (6 + i) } }

/-- Uncompleted instructions have read data that is undefined (R139): what they and those that used
their results produced takes free values. -/
def State.taint (s : State) (c : Nat) (readers : List Nat) : State :=
  let x := s.core c
  let es := coreOpen x
  let t := es.foldl (taintStep readers) {}
  let s := t.rngs.foldl (fun s r => s.freeRange c r) (t.regs.foldl (fun s r => s.freeReg c r) s)
  let s := (es.filter fun e => t.nos.contains e.no).foldl (fun s e => match e.slot with
    | some k => (s.updCore c (freeSlot s.free k)).tickFree
    | none => s) s
  (x.dmas.filter fun d => t.nos.contains d.no).foldl (fun s d => s.freeDma c d) s

/-- Numbers of the uncompleted instructions of other units that read one of the ranges. -/
def State.readersOf (s : State) (c unit : Nat) (rs : List (Nat × Nat)) : List Nat :=
  let x := s.core c
  let hits := fun (e : UEntry) => e.srd.any fun a => rs.any (meets a)
  ((((List.range 3).filter (· != unit)).flatMap fun u => (unitQueue x u).filter hits)
    ++ (if unit = 3 then [] else (x.dmas.map dmaUse).filter hits)).map (·.no)

/-- Writes runs of bytes by a unit (R124): a whole word clears its mark, a part of a poisoned word
changes nothing; a run that another unit has not finished writing becomes undefined (R139). -/
def State.scrStore (s : State) (c unit : Nat) (runs : List (Nat × List Byte)) (me : Nat := c) :
    State :=
  let rs := runs.map fun r => (r.1, r.2.length)
  let fw := s.foreignWrites c unit me
  let s := match s.readersOf c unit rs with
    | [] => s
    | nos => s.taint c nos
  let partials := runs.flatMap fun r => (wordsOf r.1 r.2.length).filter fun w =>
    !(decide (r.1 ≤ 8 * w ∧ 8 * w + 8 ≤ r.1 + r.2.length))
  let s := (partials.foldl (fun s w => s.senseWord c w) s).tickFree
  let fr := s.free
  let s := s.updCore c fun x => runs.foldl (fun x r =>
    let whole := (wordsOf r.1 r.2.length).filter fun w =>
      decide (r.1 ≤ 8 * w ∧ 8 * w + 8 ≤ r.1 + r.2.length)
    let x := { x with
      poison := whole.foldl (fun m w => SMap.set false m w false) x.poison
      err := whole.foldl (fun m w => SMap.set 0 m w 0) x.err }
    (r.2.foldl (fun (a : Core × Nat) b =>
      (if scrPoisoned a.1 (a.2 / 8) then a.1
       else scrPut a.1 a.2 (if fw.any (inRange · a.2) then Config.freeByte fr a.2 else b), a.2 + 1))
      (x, r.1)).1) x
  s.tickFree

/-! The kernel a core runs. -/

/-- Partition, command and kernel of a core, while its kernel has no outcome. -/
def State.kernelOf (s : State) (c : Nat) : Option (Nat × Cmd × Kernel) :=
  match (s.core c).job with
  | none => none
  | some (p, q, idx) =>
    match (s.part p).cmds.find? fun y => y.q == q && y.idx == idx && y.outcome.isNone with
    | some y => match y.prog with
      | .kernel k => some (p, y, k)
      | _ => none
    | none => none

def State.updKernel (s : State) (p : Nat) (c : Cmd) (f : Kernel → Kernel) : State :=
  s.updCmd p c fun y => { y with prog := match y.prog with | .kernel k => .kernel (f k) | g => g }

def rankIn (k : Kernel) (c : Nat) : Nat := k.cores.idxOf c

/-- The end that the fault of the lowest-ranked faulting core gives (R152). -/
def lowestFault (k : Kernel) : Option CmdEnd :=
  (k.faults.foldl (fun (a : Option (Nat × CmdEnd)) f => match a with
    | none => some f
    | some b => if f.1 < b.1 then some f else some b) none).map (·.2)

/-- A core leaves its kernel: its units are empty; its scratchpad is kept, zeroed or undefined. -/
def leaveKernel (state : Nat) (wipe : Option Nat) (x : Core) : Core :=
  let y := { x with
    regs := { x.regs with state := BitVec.ofNat 2 state }
    qa := [], qb := [], qv := [], dmas := [], job := none, slots := [] }
  match wipe with
  | none => y
  | some b => { y with scratch := [], blank := b, poison := if b = 0 then [] else y.poison }

/-- FEED collectives of a kernel that has ended (R271). -/
def State.feedsLost (s : State) (p : Nat) (cores : List Nat) : State :=
  ((s.part p).cmds.filter fun c => cmdAdmitted c && c.op == opCollective && colFeed c
    && (match s.coreAt p (colFeedCore c) with | some k => cores.contains k | none => false)).foldl
    (fun s c => s.endGroup p c stDeviceFault 0x1041 none true) s

/-- The counters that the program of a kernel that runs names in an EVINC. -/
def State.kernelCounters (s : State) (c : Cmd) (k : Kernel) : List Nat :=
  match c.prog with
  | .kernel _ => (k.cores.flatMap fun i => ((s.core i).ibuf.filter fun e => iOp e.2 == 0x72).map
      fun e => iw e.2 11 0).eraseDups
  | _ => []

/-- Event increments not yet made are undefined (R153): each counter may have taken any number of them. -/
def State.openIncs (s : State) (p : Nat) (c : Cmd) (k : Kernel) : State :=
  (s.kernelCounters c k).foldl (fun s i => (s.evcAdd p i (Config.freePick s.free i)).tickFree) s

/-- The kernel ends with a status. Short of its commit, its destinations and the increments not yet
made are undefined, or kept when it is atomic, with the scratchpads zeroed (R153), but not at a partition
reset, against which ATOMIC does not protect (R235); slots not
emitted are discarded (R134). A core that has completed END stays idle, the others read as stopped
(DEDUCED, log entry 41). -/
def State.endKernel (s : State) (p : Nat) (c : Cmd) (k : Kernel) (e : CmdEnd) : State :=
  let done := e.status.toNat == stDone
  let keeps := c.atomic && e.detail != 0x0301
  let wipe := if done then none else if c.atomic then some 0 else some (s.free + 1)
  let s := if done || keeps then s else s.openIncs p c k
  let s := k.cores.foldl (fun s i => s.updCore i
    (leaveKernel (if done || k.ended.contains (rankIn k i) then 0 else 2) wipe)) s
  let s := s.tickFree
  let s := if done || keeps then s else k.outs.foldl (fun s r => s.scramble p r.1 r.2) s
  (s.finish p c { e with kept := !done && keeps }).feedsLost p k.cores

/-- The status of a fault cause (R151). -/
def causeStatus (cause : Nat) : Nat :=
  if cause = 0x0A ∨ cause = 0x0D then stPoison
  else if cause = 0x0B then stTranslation
  else if cause = 0x0C then stProtection
  else stDeviceFault

/-- A core stops with the fault of instruction `pc`, and abandons its array and vector work (R152). -/
def stopCore (cause funit pc addr : Nat) (x : Core) : Core :=
  { x with
    qa := [], qb := [], qv := []
    regs := { x.regs with
      state := 2, cause := BitVec.ofNat 8 cause, funit := BitVec.ofNat 3 funit
      fpc := BitVec.ofNat 13 pc, faddr := BitVec.ofNat 56 addr } }

/-- A core faults at instruction `pc`: its registers name the fault, the event is recorded, and the
helm core hears of it. The other cores go on until the helm core has stopped them; the KERNEL then
ends with the fault of its lowest-ranked faulting core (State.settle; R151, R152; log entry 41). -/
def State.coreFaultAt (s : State) (c cause funit pc addr : Nat) : State :=
  let s := s.updCore c (stopCore cause funit pc addr)
  match s.kernelOf c with
  | none => s.event 0x2002 (uCore c)
  | some (p, cmd, _) =>
    let seq := s.seqNext
    let va := if cause = 0x0B ∨ cause = 0x0C ∨ cause = 0x0D then addr else 0
    let e := endWith (causeStatus cause) cause va false (some (uCore c)) (some seq)
    (s.eventP 0x2002 (uCore c) p).updKernel p cmd fun k =>
      { k with faults := k.faults ++ [(rankIn k c, e)] }

/-- The core's next instruction faults. -/
def State.coreFault (s : State) (c cause funit addr : Nat) : State :=
  s.coreFaultAt c cause funit (s.core c).regs.pc.toNat addr

/-- Every core of a KERNEL that a fault ends has been stopped: it takes its outcome (R152). -/
def State.settle (s : State) (p : Nat) (c : Cmd) : State :=
  match c.prog with
  | .kernel k => match lowestFault k with
    | some e => s.endKernel p c k e
    | none => s
  | _ => s

/-- A KERNEL that runs has a core that faulted. -/
def cmdFaulted (c : Cmd) : Bool :=
  match c.prog with
  | .kernel k => !k.faults.isEmpty
  | _ => false

/-! Issue. -/

/-- What an instruction does: goes on to the next one, jumps, stalls, or faults with a cause, a unit
and an address. -/
inductive IRes where
  | go (s : State)
  | jump (s : State) (target : Nat)
  | stall
  /-- An access of the instruction is held. -/
  | wait (s : State)
  | fault (s : State) (cause funit addr : Nat)

/-- The index that follows `pc`, with the loop stack after it (R142). -/
def nextPc : List LoopEntry → Nat → List LoopEntry × Nat
  | [], pc => ([], pc + 1)
  | e :: es, pc =>
    if e.last = pc then
      if 1 < e.left then ({ e with left := e.left - 1 } :: es, e.first) else nextPc es pc
    else (e :: es, pc + 1)

/-- Goes past index `pc`. -/
def corePast (pc : Nat) (x : Core) : Core :=
  let n := nextPc x.loops pc
  { x with loops := n.1, regs := { x.regs with pc := BitVec.ofNat 14 n.2 }, issued := x.issued + 1 }

/-- A taken branch drops the loops whose body does not hold the target. -/
def coreJump (t : Nat) (x : Core) : Core :=
  { x with
    loops := x.loops.filter fun e => decide (e.first ≤ t ∧ t ≤ e.last)
    regs := { x.regs with pc := BitVec.ofNat 14 t }, issued := x.issued + 1 }

/-- The core issues `w`, its next instruction, while its cluster's clock runs (R47): opcode `op`, assigned bits `mask`, meaning `f`. Past
the last instruction it faults with cause 0x08; a reserved opcode or bit is cause 0x01. -/
def State.issue (s : State) (c : Nat) (w : Dword) (op : Nat) (mask : Dword) (f : State → IRes) :
    State :=
  let x := s.core c
  let pc := x.regs.pc.toNat
  if (s.kernelOf c).isNone || x.regs.state != 1 || !s.awake (islandOfCluster (clusterOf c)) then s
  else if x.count ≤ pc then s.coreFault c 0x08 0 0
  else if SMap.get 0 x.ibuf pc ≠ w then s
  else if !listedOps.contains (iOp w) then s.coreFault c 0x01 0 0
  else if iOp w ≠ op then s
  else if w &&& ~~~(mask ||| bitsMask [(63, 56)]) ≠ 0 then s.coreFault c 0x01 0 0
  else match f s with
    | .go s' => s'.updCore c (corePast pc)
    | .jump s' t => s'.updCore c (coreJump t)
    | .stall => s
    | .wait w => s.waking w
    | .fault s' cause u a => s'.coreFault c cause u a

/-- A register that an uncompleted instruction of a unit still writes, or reads when it is to be
written (R138). -/
def regBusy (x : Core) (rd wr : List Nat) : Bool :=
  (x.qa ++ x.qb ++ x.qv).any fun e =>
    (rd ++ wr).any (e.wr.contains ·) || wr.any (e.rd.contains ·)

/-- An instruction of the sequencer itself: it waits for its registers. -/
def State.seqOp (s : State) (c : Nat) (rd wr : List Nat) (f : State → IRes) : IRes :=
  if regBusy (s.core c) (rd.filter (· != 0)) (wr.filter (· != 0)) then .stall else f s

/-- Places an entry in a unit's queue of 16. -/
def corePush (unit : Nat) (e : UEntry) (x : Core) : Core :=
  let e := { e with no := x.issued }
  match unit with
  | 0 => { x with qa := x.qa ++ [e] }
  | 1 => { x with qb := x.qb ++ [e] }
  | _ => { x with qv := x.qv ++ [e] }

/-- An instruction of Array A, Array B or the vector unit: issue stalls while the queue is full; its
scratchpad reads are checked for poison (R124, R137). -/
def State.unitOp (s : State) (c unit : Nat) (e : UEntry) (f : State → IRes) : IRes :=
  if 16 ≤ (unitQueue (s.core c) unit).length then .stall
  else
    let s := s.senseRanges c e.srd
    match poisonIn (s.core c) e.srd with
    | some a => .fault s 0x0A (unit + 1) a
    | none =>
      match f s with
      | .go s' => .go (s'.updCore c (corePush unit e))
      | r => r

/-- Scratchpad address in a scalar register: bits [22:0] (R144). -/
def State.sAddr (s : State) (c r : Nat) : Nat := (s.dreg c r).toNat % 2 ^ 23

/-- Start of a row or element run. Addresses are added exactly, so one that leaves the scratchpad
faults whatever the stride (DEDUCED, log entry 10). -/
def strided (base stride i : Nat) : Nat := base + stride * i

/-- `n` bits at a bit address of the scratchpad (R65). -/
def bitsAt (view : Nat → Byte) (a n : Nat) : Nat :=
  let bytes := (List.range ((a % 8 + n + 7) / 8)).map fun i => view (a / 8 + i)
  leNat bytes / 2 ^ (a % 8) % 2 ^ n

/-- Bytes that hold bits [a, a + n). -/
def bitRange (a n : Nat) : Nat × Nat := (a / 8, (a % 8 + n + 7) / 8)

def wordAt (view : Nat → Byte) (a : Nat) : Word := BitVec.ofNat 32 (bitsAt view (8 * a) 32)

end Sys2Proof.Machine
end

