-- ==== Sys2Proof/Machine/CoreCtl.lean ====
section
/-! DEFINITION. Instructions of the sequencer itself: class 0x0_ control, class 0x7_ sync, and what
completes (R137, R141 to R144, R149, R150). -/

namespace Sys2Proof.Machine

/-- A register that the sequencer writes. -/
def setReg (c r : Nat) (v : State → Dword) (rd : List Nat) (s : State) : IRes :=
  s.seqOp c rd [rD r] fun s => .go (s.setD c r (v s))

def execCoreNop (c : Fin 192) (w : Dword) (s : State) : Ans :=
  .next (s.issue c.val w 0x00 0 fun s => .go s)

/-- The KERNEL's commit point: every core past END and every Soundings record at the helm core
(R150). -/
def State.tryCommit (s : State) (p : Nat) (c : Cmd) (k : Kernel) : State :=
  if k.cores.all (fun i => k.ended.contains (rankIn k i) && (s.core i).emitted.isEmpty) then
    s.endKernel p c k (endDone 0)
  else s

/-- Every unit and every DMA of the core is complete. -/
def coreQuiet (x : Core) : Bool := x.qa.isEmpty && x.qb.isEmpty && x.qv.isEmpty && x.dmas.isEmpty

def execCoreEnd (c : Fin 192) (w : Dword) (s : State) : Ans :=
  .next (s.issue c.val w 0x01 0 fun s =>
    match s.kernelOf c.val with
    | none => .stall
    | some (p, cmd, k) =>
      if !coreQuiet (s.core c.val) then .stall
      else
        let k' := { k with ended := k.ended ++ [rankIn k c.val] }
        let s := s.updKernel p cmd fun _ => k'
        let s := s.updCore c.val fun x => { x with regs := { x.regs with state := 0 } }
        .go (s.tryCommit p cmd k'))

/-- A target or a LAST at or beyond the instruction count faults with cause 0x08 (R142). -/
def State.branchTo (s : State) (c t : Nat) : IRes :=
  if (s.core c).count ≤ t then .fault s 0x08 0 0 else .jump s t

def execJmp (c : Fin 192) (w : Dword) (s : State) : Ans :=
  .next (s.issue c.val w 0x02 (bitsMask [(15, 0)]) fun s => s.branchTo c.val (iw w 15 0))

def brHolds (cnd : Nat) (a b : Dword) : Bool :=
  match cnd with
  | 0 => a == b
  | 1 => a != b
  | 2 => a.slt b
  | 3 => !a.slt b
  | 4 => a.ult b
  | _ => !a.ult b

def execBr (c : Fin 192) (w : Dword) (s : State) : Ans :=
  .next (s.issue c.val w 0x03 (bitsMask [(55, 43), (15, 0)]) fun s =>
    if 6 ≤ iw w 55 53 then .fault s 0x01 0 0
    else s.seqOp c.val [rD (iw w 52 48), rD (iw w 47 43)] [] fun s =>
      if brHolds (iw w 55 53) (s.dreg c.val (iw w 52 48)) (s.dreg c.val (iw w 47 43)) then
        s.branchTo c.val (iw w 15 0)
      else .go s)

/-- A LOOP whose count is 0 skips its body; with four entries on the stack it faults all the same, since
the check of the stack comes first (DEDUCED, log entry 42). -/
def execLoop (c : Fin 192) (w : Dword) (s : State) : Ans :=
  .next (s.issue c.val w 0x04 (bitsMask [(52, 32), (15, 0)]) fun s =>
    s.seqOp c.val [rD (iw w 52 48)] [] fun s =>
      let x := s.core c.val
      let pc := x.regs.pc.toNat
      let last := iw w 15 0
      let n := if iw w 47 32 ≠ 0 then iw w 47 32 else (s.dreg c.val (iw w 52 48)).toNat % 2 ^ 32
      if last ≤ pc ∨ x.count ≤ last then .fault s 0x08 0 0
      else if 4 ≤ x.loops.length then .fault s 0x07 0 0
      else if n = 0 then
        let t := nextPc x.loops last
        .jump (s.updCore c.val fun x => { x with loops := t.1 }) t.2
      else .go (s.updCore c.val fun x =>
        { x with loops := ⟨pc + 1, last, n⟩ :: x.loops }))

def sext (n x : Nat) : Dword := BitVec.ofInt 64 (signedOf n x)

def execLi (c : Fin 192) (w : Dword) (s : State) : Ans :=
  .next (s.issue c.val w 0x08 (bitsMask [(52, 0)]) fun s =>
    setReg c.val (iw w 52 48) (fun _ => sext 48 (iw w 47 0)) [] s)

def execLih (c : Fin 192) (w : Dword) (s : State) : Ans :=
  .next (s.issue c.val w 0x09 (bitsMask [(52, 48), (15, 0)]) fun s =>
    setReg c.val (iw w 52 48) (fun s => BitVec.ofNat 64
      ((s.dreg c.val (iw w 52 48)).toNat % 2 ^ 48 + iw w 15 0 * 2 ^ 48)) [rD (iw w 52 48)] s)

/-- The ALU operations of R144; `none` for a reserved OP. -/
def aluOp (op : Nat) (a b : Dword) : Option Dword :=
  match op with
  | 0 => some (a + b)
  | 1 => some (a - b)
  | 2 => some (a &&& b)
  | 3 => some (a ||| b)
  | 4 => some (a ^^^ b)
  | 5 => some (a <<< (b.toNat % 64))
  | 6 => some (a >>> (b.toNat % 64))
  | 7 => some (a.sshiftRight (b.toNat % 64))
  | 8 => some (a * b)
  | 9 => some (if b.slt a then b else a)
  | 10 => some (if a.slt b then b else a)
  | 11 => some (if b.ult a then b else a)
  | 12 => some (if a.ult b then b else a)
  | _ => none

def execAlu (c : Fin 192) (w : Dword) (s : State) : Ans :=
  .next (s.issue c.val w 0x0A (bitsMask [(55, 37)]) fun s =>
    match aluOp (iw w 55 52) 0 0 with
    | none => .fault s 0x01 0 0
    | some _ =>
      setReg c.val (iw w 51 47) (fun s => (aluOp (iw w 55 52) (s.dreg c.val (iw w 46 42))
        (s.dreg c.val (iw w 41 37))).getD 0) [rD (iw w 46 42), rD (iw w 41 37)] s)

def execAlui (c : Fin 192) (w : Dword) (s : State) : Ans :=
  .next (s.issue c.val w 0x0B (bitsMask [(55, 42), (31, 0)]) fun s =>
    match aluOp (iw w 55 52) 0 0 with
    | none => .fault s 0x01 0 0
    | some _ =>
      setReg c.val (iw w 51 47) (fun s => (aluOp (iw w 55 52) (s.dreg c.val (iw w 46 42))
        (sext 32 (iw w 31 0))).getD 0) [rD (iw w 46 42)] s)

/-- The local cycle count goes on by an amount that the spec leaves open; log entry 11. -/
def State.countCycles (s : State) (c : Nat) : State :=
  (s.updCore c fun x => { x with regs := { x.regs with
    cycles := x.regs.cycles + BitVec.ofNat 64 s.freeVal } }).tickFree

/-- Partition core index of a rank: the ranks ascend with the index (R147). -/
def coreIndex (cmd : Cmd) (rank : Nat) : Nat := (kCores cmd).getD rank 0

def execSys (c : Fin 192) (w : Dword) (s : State) : Ans :=
  .next (s.issue c.val w 0x0C (bitsMask [(52, 48), (7, 0)]) fun s =>
    match s.kernelOf c.val with
    | none => .stall
    | some (_, cmd, k) =>
      match iw w 7 0 with
      | 0 => setReg c.val (iw w 52 48) (fun _ => BitVec.ofNat 64 (rankIn k c.val)) [] s
      | 1 => setReg c.val (iw w 52 48) (fun _ => BitVec.ofNat 64 k.cores.length) [] s
      | 2 => setReg c.val (iw w 52 48)
          (fun _ => BitVec.ofNat 64 (coreIndex cmd (rankIn k c.val))) [] s
      | 3 => setReg c.val (iw w 52 48) (fun s => (s.core c.val).regs.cycles) []
          (s.countCycles c.val)
      | 4 => setReg c.val (iw w 52 48) (fun s => BitVec.ofNat 64 (s.core c.val).argVa) [] s
      | _ => .fault s 0x01 0 0)

def execArg (c : Fin 192) (w : Dword) (s : State) : Ans :=
  .next (s.issue c.val w 0x0D (bitsMask [(52, 48), (7, 0)]) fun s =>
    match (s.core c.val).args[iw w 7 0]? with
    | none => .fault s 0x12 0 0
    | some v => setReg c.val (iw w 52 48) (fun _ => v) [] s)

/-! Sync. -/

def execCoreFence (c : Fin 192) (w : Dword) (s : State) : Ans :=
  .next (s.issue c.val w 0x70 (bitsMask [(3, 0)]) fun s =>
    let x := s.core c.val
    let waits := (bit (iw w 3 0) 0 && !x.qa.isEmpty) || (bit (iw w 3 0) 1 && !x.qb.isEmpty)
      || (bit (iw w 3 0) 2 && !x.qv.isEmpty) || (bit (iw w 3 0) 3 && !x.dmas.isEmpty)
    if waits then .stall else .go s)

/-- The last core to arrive releases every other one, each past its KBAR (R143). -/
def execKbar (c : Fin 192) (w : Dword) (s : State) : Ans :=
  .next (s.issue c.val w 0x71 (bitsMask [(3, 0)]) fun s =>
    match s.kernelOf c.val with
    | none => .stall
    | some (p, cmd, k) =>
      let me := rankIn k c.val
      let bid := iw w 3 0
      let there := match k.barrier with | some b => b.2 | none => []
      let wrong := match k.barrier with | some b => b.1 != bid | none => false
      if there.contains me then .stall
      else if wrong then .fault s 0x0F 0 0
      else if there.length + 1 < k.cores.length then
        -- this core arrives and waits: it stays at its KBAR
        .jump (s.updKernel p cmd fun k => { k with barrier := some (bid, there ++ [me]) })
          (s.core c.val).regs.pc.toNat
      else
        let s := s.updKernel p cmd fun k => { k with barrier := none }
        .go (k.cores.foldl (fun s i =>
          if i = c.val then s else s.updCore i fun x => corePast x.regs.pc.toNat x) s))

/-- EVINC counts after every earlier DMAOUT is visible; an atomic kernel's increments are held
(R141, R235). -/
def execEvinc (c : Fin 192) (w : Dword) (s : State) : Ans :=
  .next (s.issue c.val w 0x72 (bitsMask [(11, 0)]) fun s =>
    match s.kernelOf c.val with
    | none => .stall
    | some (p, cmd, _) =>
      if (s.core c.val).dmas.any fun d => d.kind == .out then .stall
      else if cmd.atomic then
        .go (s.updCmd p cmd fun y => { y with stagedEv := y.stagedEv ++ [iw w 11 0] })
      else .go (s.evcAdd p (iw w 11 0) 1))

def execEvwait (c : Fin 192) (w : Dword) (s : State) : Ans :=
  .next (s.issue c.val w 0x73 (bitsMask [(52, 48), (11, 0)]) fun s =>
    match s.kernelOf c.val with
    | none => .stall
    | some (p, _, _) =>
      s.seqOp c.val [rD (iw w 52 48)] [] fun s =>
        if (s.evc p (iw w 11 0)).toNat < (s.dreg c.val (iw w 52 48)).toNat then .stall else .go s)

/-- Credits go to the target after every earlier DMAPEER to it (R140, R143). -/
def execCrpost (c : Fin 192) (w : Dword) (s : State) : Ans :=
  .next (s.issue c.val w 0x74 (bitsMask [(52, 32), (3, 0)]) fun s =>
    match s.kernelOf c.val with
    | none => .stall
    | some (_, _, k) =>
      s.seqOp c.val [rD (iw w 52 48)] [] fun s =>
        let rank := (s.dreg c.val (iw w 52 48)).toNat
        match k.cores[rank]? with
        | none => .fault s 0x0E 0 0
        | some t =>
          let v := SMap.get 0 (s.core t).cc (iw w 3 0)
          if (s.core c.val).dmas.any fun d => d.kind == .peer && d.rank == rank then .stall
          else if (s.core t).regs.state == 3 then .fault s 0x13 0 0
          else if 65535 < v + iw w 47 32 then .fault s 0x0E 0 0
          else .go (s.updCore t fun x => { x with cc := SMap.set 0 x.cc (iw w 3 0) (v + iw w 47 32) }))

def execCrwait (c : Fin 192) (w : Dword) (s : State) : Ans :=
  .next (s.issue c.val w 0x75 (bitsMask [(47, 32), (3, 0)]) fun s =>
    let v := SMap.get 0 (s.core c.val).cc (iw w 3 0)
    if v < iw w 47 32 then .stall
    else .go (s.updCore c.val fun x =>
      { x with cc := SMap.set 0 x.cc (iw w 3 0) (v - iw w 47 32) }))

/-! Completion of queued instructions (R137, R138). -/

/-- The oldest instruction of a unit may complete: no earlier uncompleted one of another unit writes
its registers or reads what it writes. -/
def mayComplete (x : Core) (unit : Nat) (e : UEntry) : Bool :=
  ((List.range 3).filter (· != unit)).all fun u => (unitQueue x u).all fun d =>
    decide (e.no < d.no) || !((e.rd ++ e.wr).any (d.wr.contains ·) || e.wr.any (d.rd.contains ·))

def corePop (unit : Nat) (x : Core) : Core :=
  match unitQueue x unit with
  | [] => x
  | e :: _ =>
    if mayComplete x unit e then
      match unit with
      | 0 => { x with qa := x.qa.drop 1 }
      | 1 => { x with qb := x.qb.drop 1 }
      | _ => { x with qv := x.qv.drop 1 }
    else x

def execInstructionComplete (c : Fin 192) (u : Fin 3) (s : State) : Ans :=
  .next (s.updCore c.val (corePop u.val))

def execDmaComplete (c : Fin 192) (s : State) : Ans :=
  .next (s.updCore c.val fun x => { x with dmas := x.dmas.drop 1 })

end Sys2Proof.Machine
end

