-- ==== Sys2Proof/Machine/CoreMem.lean ====
section
/-! DEFINITION. Class 0x1_ memory and DMA: DMAIN, DMAOUT, DMAPEER, DMAWAIT (R139, R140, R145), TLD, TST,
SLD, SST (R126, R144). -/

namespace Sys2Proof.Machine

def maxDma : Nat := 32

/-- The rule of R145 for a length and two addresses. -/
def dmaOk (a b n : Nat) : Bool :=
  n % 4 == 0 && decide (4 ≤ n ∧ n ≤ scratchBytes) && a % 4 == 0 && b % 4 == 0

def corePushDma (d : DmaEntry) (x : Core) : Core :=
  { x with dmas := x.dmas ++ [{ d with no := x.issued, pc := x.regs.pc.toNat }] }

/-- The cause of a failed DMA (R145). -/
def dmaCause (st : Nat) : Nat :=
  if st = stTranslation then 0x0B else if st = stProtection then 0x0C else 0x0D

/-- Issue of a DMA stalls at the 33rd outstanding one, and while the unit's queue of 16 is full (R137,
R145). How many of the outstanding ones have left the queue is open: a free pick between 16 and 31
(log entry 43). -/
def State.dmaFull (s : State) (c : Nat) : Bool :=
  let n := (s.core c).dmas.length
  decide (maxDma ≤ n) || (decide (16 ≤ n) && Config.freePick s.free (2 ^ 25 + c) % 2 == 1)

/-- The operands of a DMA: two addresses and a length. -/
def State.dmaOp (s : State) (c : Nat) (w : Dword) (rd : List Nat)
    (f : State → Nat → Nat → Nat → IRes) : IRes :=
  s.seqOp c ([rD (iw w 52 48), rD (iw w 47 43), rD (iw w 42 38)] ++ rd) [] fun s =>
    let a := (s.dreg c (iw w 52 48)).toNat
    let b := (s.dreg c (iw w 47 43)).toNat
    let n := (s.dreg c (iw w 42 38)).toNat
    if s.dmaFull c then .stall
    else if !dmaOk a b n then .fault s 0x05 4 (a % 2 ^ 56)
    else f s a b n

def execDmain (c : Fin 192) (w : Dword) (s : State) : Ans :=
  .next (s.issue c.val w 0x10 (bitsMask [(52, 38), (3, 0)]) fun s =>
    match s.kernelOf c.val with
    | none => .stall
    | some (p, _, _) =>
      s.dmaOp c.val w [] fun s a b n =>
        let va := a % 2 ^ 56
        let dst := b % 2 ^ 23
        if !scrIn dst n then .fault s 0x05 4 dst
        else match s.xread ⟨p, uCore c.val⟩ va n with
          | (w, .held) => .wait w
          | (s', .fail st at_) => .fault s' (dmaCause st) 4 at_.va
          | (s', .ok bs) =>
            let s' := s'.scrStore c.val 3 [(dst, bs)]
            .go (s'.updCore c.val (corePushDma 
              { no := 0, kind := .into, tag := iw w 3 0, local_ := dst, len := n, dst := 0, rank := 0
                core := 0 })))

/-- Scratchpad bytes that a DMA reads: a poisoned word is cause 0x0A. -/
def State.dmaSource (s : State) (c a n : Nat) (f : State → List Byte → IRes) : IRes :=
  let s := s.senseRanges c [(a, n)]
  match poisonIn (s.core c) [(a, n)] with
  | some at_ => .fault s 0x0A 4 at_
  | none =>
    let v := s.scrView c 3
    f s.tickFree ((List.range n).map fun i => v (a + i))

/-- A write of an atomic kernel: checked and staged (R235). -/
def State.stageWrite (s : State) (p : Nat) (cmd : Cmd) (r : Req) (va : Nat) (bs : List Byte) :
    State × XR Unit :=
  match s.xcheck r .write va bs.length with
  | (s', .ok hs) =>
    let ws := (hs.foldl (fun (acc : List (Nat × Nat × List Byte) × List Byte) h =>
      (acc.1 ++ [(hitCode h.1, h.1.addr, acc.2.take h.2)], acc.2.drop h.2)) ([], bs)).1
    ((s'.junkAtm p cmd).updCmd p cmd fun y => { y with staged := y.staged ++ ws }, .ok ())
  | (s', .held) => (s', .held)
  | (s', .fail st at_) => (s', .fail st at_)

def execDmaout (c : Fin 192) (w : Dword) (s : State) : Ans :=
  .next (s.issue c.val w 0x11 (bitsMask [(52, 38), (3, 0)]) fun s =>
    match s.kernelOf c.val with
    | none => .stall
    | some (p, cmd, k) =>
      s.dmaOp c.val w [] fun s a b n =>
        let va := b % 2 ^ 56
        let src := a % 2 ^ 23
        if !scrIn src n then .fault s 0x05 4 src
        else s.dmaSource c.val src n fun s bs =>
          let note := fun (s : State) =>
            s.updKernel p cmd fun k => { k with outs := k.outs ++ [(va, n)], wrote := k.wrote + n }
          -- an atomic kernel's DMAOUT knows its staged writes: those added since `s`
          let push := fun (t : State) =>
            let at_ := (s.cmdNow p cmd).staged.length
            t.updCore c.val (corePushDma
              { no := 0, kind := .out, tag := iw w 3 0, local_ := src, len := n, dst := va, rank := 0
                core := 0, 
                stg := if cmd.atomic then (at_, (t.cmdNow p cmd).staged.length - at_) else (0, 0) })
          if cmd.atomic && decide (kAtmMax cmd * 4096 < k.wrote + n) then
            .go (s.endKernel p cmd k
              ((lowestFault k).getD (endWith stBusy 0 0 false (some (uCore c.val)))))
          else match (if cmd.atomic then s.stageWrite p cmd ⟨p, uCore c.val⟩ va bs
              else s.xwrite ⟨p, uCore c.val⟩ va bs) with
            | (w, .held) => .wait w
            | (s', .fail st at_) => .fault (note s') (dmaCause st) 4 at_.va
            | (s', .ok _) => .go (push (note s')))

/-- DMAPEER writes into the scratchpad of another core of the kernel, which has no interlock on it. -/
def execDmapeer (c : Fin 192) (w : Dword) (s : State) : Ans :=
  .next (s.issue c.val w 0x12 (bitsMask [(52, 33), (3, 0)]) fun s =>
    match s.kernelOf c.val with
    | none => .stall
    | some (_, _, k) =>
      s.dmaOp c.val w [rD (iw w 37 33)] fun s a b n =>
        let src := a % 2 ^ 23
        let dst := b % 2 ^ 23
        let rank := (s.dreg c.val (iw w 37 33)).toNat
        if !scrIn src n then .fault s 0x05 4 src
        else if !scrIn dst n then .fault s 0x05 4 dst
        else match k.cores[rank]? with
          | none => .fault s 0x0E 4 0
          | some t =>
            if (s.core t).regs.state == 3 then .fault s 0x13 4 dst
            else s.dmaSource c.val src n fun s bs =>
              let s := s.scrStore t 4 [(dst, bs)] c.val
              .go (s.updCore c.val (corePushDma
                { no := 0, kind := .peer, tag := iw w 3 0, local_ := src, len := n, dst := dst, rank := rank
                  core := t })))

def execDmawait (c : Fin 192) (w : Dword) (s : State) : Ans :=
  .next (s.issue c.val w 0x13 (bitsMask [(15, 0)]) fun s =>
    if (s.core c.val).dmas.any fun d => bit (iw w 15 0) d.tag then .stall else .go s)

/-! Loads and stores of the vector unit. -/

/-- The fields that TLD and TST share: tile, base, stride, rows and columns. -/
structure TileMove where
  x : Nat
  base : Nat
  stride : Nat
  rows : Nat
  cols : Nat

def tileMove (s : State) (c : Nat) (w : Dword) : TileMove :=
  { x := iw w 55 52, base := s.sAddr c (iw w 51 47), stride := (s.dreg c (iw w 46 42)).toNat
    rows := iw w 41 35 + 1, cols := iw w 34 28 + 1 }

def tileRanges (m : TileMove) : List (Nat × Nat) :=
  (List.range m.rows).map fun i => (strided m.base m.stride i, 4 * m.cols)

/-- The first range that leaves the scratchpad or is misaligned (R125). -/
def badRange (align : Nat) (rs : List (Nat × Nat)) : Option Nat :=
  (rs.find? fun r => r.1 % align != 0 || !scrIn r.1 r.2).map (·.1)

def tileMask : Dword := bitsMask [(55, 28)]

def tileRegs (w : Dword) : List Nat := [rD (iw w 51 47), rD (iw w 46 42)]

def execTld (c : Fin 192) (w : Dword) (s : State) : Ans :=
  .next (s.issue c.val w 0x14 tileMask fun s =>
    let m := tileMove s c.val w
    match badRange 4 (tileRanges m) with
    | some a => .fault s 0x05 3 a
    | none =>
      s.unitOp c.val 2 { rd := tileRegs w, wr := [rX m.x], srd := tileRanges m } fun s =>
        let v := s.scrView c.val 2
        .go ((s.updCore c.val fun y => coreSetX y m.x (tileFn fun k =>
          if k / 128 < m.rows ∧ k % 128 < m.cols then
            wordAt v (strided m.base m.stride (k / 128) + 4 * (k % 128))
          else 0)).tickFree))

def execTst (c : Fin 192) (w : Dword) (s : State) : Ans :=
  .next (s.issue c.val w 0x15 tileMask fun s =>
    let m := tileMove s c.val w
    match badRange 4 (tileRanges m) with
    | some a => .fault s 0x05 3 a
    | none =>
      s.unitOp c.val 2 { rd := rX m.x :: tileRegs w, swr := tileRanges m } fun s =>
        let e := coreX (s.core c.val) m.x
        .go (s.scrStore c.val 2 ((List.range m.rows).map fun i =>
          (strided m.base m.stride i,
            (List.range m.cols).flatMap fun j => leBytes 4 (elem e (tileKey i j)).toNat))))

/-- Address Da + OFF of SLD and SST, added exactly; a negative one leaves the scratchpad (DEDUCED, log
entry 10). -/
def wordAddr (s : State) (c : Nat) (w : Dword) : Nat :=
  let a : Int := (s.sAddr c (iw w 47 43) : Int) + signedOf 32 (iw w 31 0)
  if a < 0 then 2 ^ 56 - a.natAbs else a.toNat

/-- Runs `f` at the word's address when it lies in the scratchpad and is 8-byte aligned. -/
def atWord (s : State) (c : Nat) (w : Dword) (f : Nat → IRes) : IRes :=
  match badRange 8 [(wordAddr s c w, 8)] with
  | some a => .fault s 0x05 3 a
  | none => f (wordAddr s c w)

def execSld (c : Fin 192) (w : Dword) (s : State) : Ans :=
  .next (s.issue c.val w 0x16 (bitsMask [(52, 43), (31, 0)]) fun s =>
    atWord s c.val w fun a =>
      s.unitOp c.val 2 { rd := [rD (iw w 47 43)], wr := [rD (iw w 52 48)], srd := [(a, 8)] } fun s =>
        let v := s.scrView c.val 2
        .go ((s.setD c.val (iw w 52 48) (BitVec.ofNat 64 (bitsAt v (8 * a) 64))).tickFree))

def execSst (c : Fin 192) (w : Dword) (s : State) : Ans :=
  .next (s.issue c.val w 0x17 (bitsMask [(52, 43), (31, 0)]) fun s =>
    atWord s c.val w fun a =>
      s.unitOp c.val 2 { rd := [rD (iw w 52 48), rD (iw w 47 43)], swr := [(a, 8)] } fun s =>
        .go (s.scrStore c.val 2 [(a, leBytes 8 (s.dreg c.val (iw w 52 48)).toNat)]))

end Sys2Proof.Machine
end

