-- ==== Sys2Proof/Machine/CoreSnd.lean ====
section
/-! DEFINITION. Soundings slots of a core: what is counted (R334), the early flush (R333), and the
instructions of class 0x6_ (R133, R135). -/

namespace Sys2Proof.Machine

/-- The histogram bin of an exponent (R334). -/
def sndBin (e : Int) : Nat :=
  if e ≤ -41 then 0 else if 16 ≤ e then 15 else ((e + 44) / 4).toNat

/-- The counts of a list of FP32 values, each with whether its conversion saturated. -/
def sndCount (xs : List (Word × Bool)) : SndRec :=
  xs.foldl (fun r x =>
    let r := { r with elems := r.elems + 1, sat := r.sat + b2n x.2 }
    match F32.dec x.1 with
    | .nan => { r with nan := r.nan + 1 }
    | .inf _ => { r with inf := r.inf + 1 }
    | .fin _ m e =>
      if m = 0 then { r with zero := r.zero + 1 }
      else
        let k := ilog2 m e
        { r with
          maxExp := some (match r.maxExp with | none => k | some o => max o k)
          hist := SMap.modify 0 r.hist (sndBin k) (· + 1) }) {}

def maxExpOf : Option Int → Option Int → Option Int
  | none, b => b
  | a, none => a
  | some a, some b => some (max a b)

def histAdd (a b : SMap Nat) : SMap Nat :=
  SMap.ofFn 0 16 fun i => SMap.get 0 a i + SMap.get 0 b i

def sndAdd (a b : SndRec) : SndRec :=
  { a with elems := a.elems + b.elems, zero := a.zero + b.zero, sat := a.sat + b.sat
           nan := a.nan + b.nan, inf := a.inf + b.inf
           maxExp := maxExpOf a.maxExp b.maxExp, hist := histAdd a.hist b.hist }

/-- Every 16-bit field holds its count. -/
def sndFits (r : SndRec) : Bool :=
  decide (r.elems ≤ 65535 ∧ r.zero ≤ 65535 ∧ r.sat ≤ 65535 ∧ r.nan ≤ 65535 ∧ r.inf ≤ 65535)
  && r.hist.all fun e => decide (e.2 ≤ 65535)

def sndSlot (x : Core) (k : Nat) : SndRec := SMap.get {} x.slots k

/-- Adds counts to a bound slot; before a field would overflow, the record passes to the helm core
and the counts start again (R333). -/
def sndAccum (c k : Nat) (n : SndRec) (x : Core) : Core :=
  let r := sndSlot x k
  let sum := sndAdd r n
  if sndFits sum then { x with slots := SMap.set {} x.slots k sum }
  else { x with
    emitted := x.emitted ++ [{ r with unit := uCore c }]
    slots := SMap.set {} x.slots k (sndAdd { bound := true, tensor := r.tensor } n) }

/-- Counts that the spec leaves open: the raw INT32 words of an ADRAIN with DQ = 0 (log entry 12). -/
def sndFree (occasion : Nat) : SndRec :=
  let v := fun k => (freeWordAt occasion k).toNat % 16385
  { elems := v 0, zero := v 1, nan := v 2, inf := v 3
    maxExp := some ((v 4 : Int) - 8192), hist := SMap.ofFn 0 16 fun i => v (5 + i) }

def execStbind (c : Fin 192) (w : Dword) (s : State) : Ans :=
  .next (s.issue c.val w 0x60 (bitsMask [(52, 48), (2, 0)]) fun s =>
    s.unitOp c.val 2 { rd := [rD (iw w 52 48)] } fun s =>
      let r : SndRec := { bound := true, tensor := (s.dreg c.val (iw w 52 48)).setWidth 32 }
      .go (s.updCore c.val fun x => { x with slots := SMap.set {} x.slots (iw w 2 0) r }))

def tileWords (e : Elems) : List Word := (List.range 16384).map (elem e)

def execStacc (c : Fin 192) (w : Dword) (s : State) : Ans :=
  .next (s.issue c.val w 0x61 (bitsMask [(51, 48), (2, 0)]) fun s =>
    if !(sndSlot (s.core c.val) (iw w 2 0)).bound then .fault s 0x11 3 0
    else s.unitOp c.val 2 { rd := [rX (iw w 51 48)], slot := some (iw w 2 0) } fun s =>
      let n := sndCount ((tileWords (coreX (s.core c.val) (iw w 51 48))).map fun v => (v, false))
      .go (s.updCore c.val (sndAccum c.val (iw w 2 0) n)))

def execStemit (c : Fin 192) (w : Dword) (s : State) : Ans :=
  .next (s.issue c.val w 0x62 (bitsMask [(2, 0)]) fun s =>
    let r := sndSlot (s.core c.val) (iw w 2 0)
    if !r.bound then .fault s 0x11 3 0
    else s.unitOp c.val 2 {} fun s =>
      .go (s.updCore c.val fun x => { x with
        emitted := x.emitted ++ [{ r with unit := uCore c.val }]
        slots := SMap.set {} x.slots (iw w 2 0) {} }))

def execStlp (c : Fin 192) (w : Dword) (s : State) : Ans :=
  .next (s.issue c.val w 0x63 (bitsMask [(54, 43)]) fun s =>
    s.unitOp c.val 2 { rd := [rV (iw w 51 49), rV (iw w 48 46), rV (iw w 45 43)]
                       wr := [rV (iw w 54 52)] } fun s =>
      .go (s.updCore c.val fun x => coreSetV x (iw w 54 52) (vecFn fun i =>
        lpLast (elem (coreV x (iw w 51 49)) i) (elem (coreV x (iw w 48 46)) i)
          (elem (coreV x (iw w 45 43)) i))))

end Sys2Proof.Machine
end

