-- ==== Sys2Proof/Machine/CoreArray.lean ====
section
/-! DEFINITION. The arrays: AFDSET, AMM and ADRAIN (R109 to R119) over the reference order (R74 to
R77). -/

namespace Sys2Proof.Machine

def execAfdset (c : Fin 192) (w : Dword) (s : State) : Ans :=
  .next (s.issue c.val w 0x21 (bitsMask [(55, 9)]) fun s =>
    let f := FmtWord.of (BitVec.ofNat 16 (iw w 32 17))
    if f.reserved true || f.fmt == 0 || f.fmt == 11 then .fault s 0x02 0 0
    else s.seqOp c.val [rD (iw w 52 48), rD (iw w 47 43), rD (iw w 42 38), rD (iw w 37 33)] [] fun s =>
      .go (s.updCore c.val fun x =>
        let d : FeedDesc :=
          { data := (coreD x (iw w 52 48)).setWidth 23, scale := (coreD x (iw w 47 43)).setWidth 23
            stride := coreD x (iw w 42 38), sstride := coreD x (iw w 37 33)
            fmt := BitVec.ofNat 16 (iw w 32 17), ext := iw w 16 10 + 1, layout := bit (iw w 9 9) 0 }
        { x with feeds := SMap.set {} x.feeds (iw w 55 53) d }))

/-- Side of a square block: 8×8 for BLK 6, 16×16 for BLK 8. -/
def squareSide (blk : Nat) : Nat := if blk = 6 then 8 else 16

/-- Bit address of element r (row or column) at position k (R110). -/
def feedBit (d : FeedDesc) (r k : Nat) : Nat :=
  let n := fmtBits (FmtWord.of d.fmt).fmt
  if d.layout then 8 * strided d.data.toNat d.stride.toNat r + k * n
  else 8 * strided d.data.toNat d.stride.toNat k + r * n

/-- Address of the scale byte of element (r, k), R111. -/
def feedScale (d : FeedDesc) (left : Bool) (r k : Nat) : Nat :=
  let f := FmtWord.of d.fmt
  let ub := match f.dir with
    | 0 => (r, k / 2 ^ f.blk)
    | 1 => (r / 2 ^ f.blk, 0)
    | _ => (r / squareSide f.blk, k / squareSide f.blk)
  let uv := if left then ub else (ub.2, ub.1)
  strided d.scale.toNat d.sstride.toNat uv.1 + uv.2

/-- Scratchpad ranges that the feeder reads for positions [doff, doff + kn). -/
def feedRanges (d : FeedDesc) (left : Bool) (doff kn : Nat) : List (Nat × Nat) :=
  let f := FmtWord.of d.fmt
  let n := fmtBits f.fmt
  let data := if d.layout then
      (List.range d.ext).map fun r => bitRange (feedBit d r doff) (kn * n)
    else (List.range kn).map fun k => bitRange (feedBit d 0 (doff + k)) (d.ext * n)
  let scales := if f.blk = 0 then [] else
    (List.range d.ext).flatMap fun r => (List.range kn).map fun k => (feedScale d left r (doff + k), 1)
  data ++ scales.eraseDups

def feedBits (v : Nat → Byte) (d : FeedDesc) (r k : Nat) : Nat :=
  bitsAt v (feedBit d r k) (fmtBits (FmtWord.of d.fmt).fmt)

def feedCode (v : Nat → Byte) (d : FeedDesc) (left : Bool) (r k : Nat) : Nat :=
  if (FmtWord.of d.fmt).blk = 0 then 127 else (v (feedScale d left r k)).toNat

/-- One operand element as it enters the array (R74). -/
def feedElem (v : Nat → Byte) (d : FeedDesc) (left : Bool) (r k : Nat) : FVal :=
  arrElem (FmtWord.of d.fmt).fmt (feedBits v d r k) (feedCode v d left r k)

def feedInt (v : Nat → Byte) (d : FeedDesc) (r k : Nat) : Int :=
  intElem (FmtWord.of d.fmt).fmt (feedBits v d r k)

/-- The bank after `kn` positions from `doff`, with its class taken afresh on ZERO (R113 to R118). -/
def ammBank (v : Nat → Byte) (l r : FeedDesc) (zero : Bool) (doff kn : Nat) (b : Bank) : Bank :=
  let isInt := fmtIsInt (FmtWord.of l.fmt).fmt
  let b0 : Bank := if zero then
      { isInt := isInt, count := 0
        rowCodes := if isInt then SMap.ofFn 0 l.ext fun i => feedCode v l true i doff else []
        colCodes := if isInt then SMap.ofFn 0 r.ext fun j => feedCode v r false j doff else []
        rows := l.ext, cols := r.ext }
    else b
  { b0 with
    count := if isInt then b0.count + kn else b0.count
    vals := SMap.ofFn 0 16384 fun q =>
      let i := q / 128
      let j := q % 128
      let old := elem b0.vals q
      if l.ext ≤ i ∨ r.ext ≤ j then old
      else if isInt then
        old + BitVec.ofInt 32 (((List.range kn).map fun k =>
          feedInt v l i (doff + k) * feedInt v r j (doff + k)).foldl (· + ·) 0)
      else accGroups old ((List.range kn).map fun k =>
        FVal.mul (feedElem v l true i (doff + k)) (feedElem v r false j (doff + k))) }

/-- DOFF is not aligned (R114). -/
def doffBad (l r : FeedDesc) (doff : Nat) : Bool :=
  doff % 32 != 0 || [l, r].any fun d =>
    let f := FmtWord.of d.fmt
    f.blk != 0 && f.dir == 0 && doff % 2 ^ f.blk != 0

/-- The cause that an AMM faults with before it adds anything. The spec gives no order among several:
log entry 13. -/
def ammCause (l r : FeedDesc) (zero : Bool) (doff kn : Nat) (b : Bank) : Option Nat :=
  let fl := (FmtWord.of l.fmt).fmt
  let fr := (FmtWord.of r.fmt).fmt
  if fl == 0 || fl == 11 || fr == 0 || fr == 11 then some 0x02
  else if fmtIsInt fl != fmtIsInt fr then some 0x03
  else if doffBad l r doff then some 0x06
  else if !zero && b.isInt != fmtIsInt fl then some 0x09
  else if fmtIsInt fl && decide (32768 < (if zero then 0 else b.count) + kn) then some 0x04
  else none

/-- Bit 52 is reserved. -/
def ammMask : Dword := bitsMask [(55, 53), (51, 28)]

def execAmm (c : Fin 192) (w : Dword) (s : State) : Ans :=
  .next (s.issue c.val w 0x20 ammMask fun s =>
    let arr := iw w 55 55
    let bk := 2 * arr + iw w 54 54
    let zero := iw w 53 53 == 1
    let x := s.core c.val
    let l := coreFeed x (iw w 51 49)
    let r := coreFeed x (iw w 48 46)
    let doff := (coreD x (iw w 45 41)).toNat
    let kn := iw w 40 28 + 1
    match ammCause l r zero doff kn (coreBank x bk) with
    | some cause => .fault s cause (1 + arr) 0
    | none =>
      let rs := feedRanges l true doff kn ++ feedRanges r false doff kn
      match badRange 1 rs with
      | some a => .fault s 0x05 (1 + arr) a
      | none =>
        s.unitOp c.val arr 
          { rd := rD (iw w 45 41) :: (if zero then [] else [rBank bk]), wr := [rBank bk], srd := rs } fun s =>
          let v := s.scrView c.val arr
          .go ((s.updCore c.val fun x =>
            coreSetBank x bk (ammBank v l r zero doff kn (coreBank x bk))).tickFree))

/-- The dequantisation code of row or column `i`. The spec gives none beyond the extents that ZERO
latched, which a later AMM may exceed: that code is open (DESIGN CHOICE, log entry 44). -/
def drainCode (occasion : Nat) (col : Bool) (n : Nat) (codes : SMap Nat) (i : Nat) : Nat :=
  if i < n then SMap.get 0 codes i else (Config.openCode occasion col i).toNat

/-- What ADRAIN writes (R119); no result of an array is −0 (R81). -/
def drained (occasion : Nat) (b : Bank) (dq : Bool) (k : Nat) : Word :=
  let v := elem b.vals k
  if dq then
    fposZero (dequant (signedOf 32 v.toNat)
      (drainCode occasion false b.rows b.rowCodes (k / 128))
      (drainCode occasion true b.cols b.colCodes (k % 128)))
  else v

def execAdrain (c : Fin 192) (w : Dword) (s : State) : Ans :=
  .next (s.issue c.val w 0x22 (bitsMask [(55, 48)]) fun s =>
    let arr := iw w 55 55
    let bk := 2 * arr + iw w 54 54
    let snd := iw w 49 49 == 1
    let dq := iw w 48 48 == 1
    let x := s.core c.val
    let k := x.ctx.slot.toNat
    if dq && !(coreBank x bk).isInt then .fault s 0x09 (1 + arr) 0
    else if snd && !(sndSlot x k).bound then .fault s 0x11 (1 + arr) 0
    else
      s.unitOp c.val arr 
        { rd := [rBank bk], wr := [rX (iw w 53 50)], slot := if snd then some k else none } fun s =>
        let b := coreBank (s.core c.val) bk
        let t := tileFn (drained s.free b dq)
        let n := if b.isInt && !dq then sndFree s.free
          else sndCount ((tileWords t).map fun v => (v, false))
        .go ((s.updCore c.val fun x =>
          let x := coreSetX x (iw w 53 50) t
          if snd then sndAccum c.val k n x else x).tickFree))

end Sys2Proof.Machine
end

