-- ==== Sys2Proof/Machine/CoreVec.lean ====
section
/-! DEFINITION. The vector unit: classes 0x3_ (elementwise, R127) and 0x4_ (reduction, broadcast and
vector registers, R128, R129). Each element rounds once (R82); sums follow the tree of R83. -/

namespace Sys2Proof.Machine

/-! Class 0x3_. -/

def vecMask : Dword := bitsMask [(55, 30)]

/-- Source registers of an elementwise instruction: a when `useA`, b or Ds, c when `useC`. -/
def vecSources (w : Dword) (useA useB useC : Bool) : List Nat :=
  (if useA then [rX (iw w 51 48)] else [])
  ++ (if !useB then [] else if iw w 39 39 = 1 then [rD (iw w 38 34)] else [rX (iw w 47 44)])
  ++ (if useC then [rX (iw w 43 40)] else [])

/-- Operand b: a tile element, or Ds[31:0] when SCB is 1. -/
def vecB (x : Core) (w : Dword) (k : Nat) : Word :=
  if iw w 39 39 = 1 then (coreD x (iw w 38 34)).setWidth 32 else elem (coreX x (iw w 47 44)) k

/-- The function that the INT flag selects; an instruction without one faults with cause 0x01. -/
def vecPick (w : Dword) (onInt : Option (Word → Word → Word → Word)) (f : Word → Word → Word → Word) :
    Option (Word → Word → Word → Word) :=
  if iw w 30 30 = 1 then onInt else some f

/-- An elementwise instruction over all 16,384 elements. -/
def State.vecOp (s : State) (c : Nat) (w : Dword) (srcs : List Nat)
    (onInt : Option (Word → Word → Word → Word)) (f : Word → Word → Word → Word) : IRes :=
  match vecPick w onInt f with
  | none => .fault s 0x01 0 0
  | some g =>
    s.unitOp c 2 { rd := srcs, wr := [rX (iw w 55 52)] } fun s =>
      .go (s.updCore c fun x => coreSetX x (iw w 55 52) (tileFn fun k =>
        g (elem (coreX x (iw w 51 48)) k) (vecB x w k) (elem (coreX x (iw w 43 40)) k)))

def imin (a b : Word) : Word := if b.toInt < a.toInt then b else a
def imax (a b : Word) : Word := if a.toInt < b.toInt then b else a

def execVadd (c : Fin 192) (w : Dword) (s : State) : Ans :=
  .next (s.issue c.val w 0x30 vecMask fun s =>
    s.vecOp c.val w (vecSources w true true false) (some fun a b _ => a + b) fun a b _ => fadd a b)

def execVsub (c : Fin 192) (w : Dword) (s : State) : Ans :=
  .next (s.issue c.val w 0x31 vecMask fun s =>
    s.vecOp c.val w (vecSources w true true false) (some fun a b _ => a - b) fun a b _ => fsub a b)

def execVmul (c : Fin 192) (w : Dword) (s : State) : Ans :=
  .next (s.issue c.val w 0x32 vecMask fun s =>
    s.vecOp c.val w (vecSources w true true false) none fun a b _ => fmul a b)

def execVfma (c : Fin 192) (w : Dword) (s : State) : Ans :=
  .next (s.issue c.val w 0x33 vecMask fun s =>
    s.vecOp c.val w (vecSources w true true true) none ffma)

def execVmin (c : Fin 192) (w : Dword) (s : State) : Ans :=
  .next (s.issue c.val w 0x34 vecMask fun s =>
    s.vecOp c.val w (vecSources w true true false) (some fun a b _ => imin a b) fun a b _ => fmin a b)

def execVmax (c : Fin 192) (w : Dword) (s : State) : Ans :=
  .next (s.issue c.val w 0x35 vecMask fun s =>
    s.vecOp c.val w (vecSources w true true false) (some fun a b _ => imax a b) fun a b _ => fmax a b)

/-- CND 6 and 7 are reserved. -/
def execVcmp (c : Fin 192) (w : Dword) (s : State) : Ans :=
  .next (s.issue c.val w 0x36 vecMask fun s =>
    if 6 ≤ iw w 33 31 then .fault s 0x01 0 0
    else s.vecOp c.val w (vecSources w true true false) none fun a b _ =>
      if fcmp (iw w 33 31) a b then F32.one else 0)

def execVsel (c : Fin 192) (w : Dword) (s : State) : Ans :=
  .next (s.issue c.val w 0x37 vecMask fun s =>
    s.vecOp c.val w (vecSources w true true true) none fun a b k =>
      fcanon (if fzero k then b else a))

/-- With INT the word moves as it is; as FP32 a NaN comes out canonical (R96, log entry 45). -/
def execVmov (c : Fin 192) (w : Dword) (s : State) : Ans :=
  .next (s.issue c.val w 0x38 vecMask fun s =>
    let scb := iw w 39 39 == 1
    let f : Word → Word → Word → Word := fun a b _ => if scb then b else a
    s.vecOp c.val w (vecSources w (!scb) scb false) (some f) fun a b k => fcanon (f a b k))

/-- An elementwise function of operand a (R97, R98). -/
def State.vecFun (s : State) (c : Nat) (w : Dword) (f : Word → Word) : IRes :=
  s.vecOp c w (vecSources w true false false) none fun a _ _ => f a

def execVexp2 (c : Fin 192) (w : Dword) (s : State) : Ans :=
  .next (s.issue c.val w 0x39 vecMask fun s => s.vecFun c.val w vexp2)

def execVlog2 (c : Fin 192) (w : Dword) (s : State) : Ans :=
  .next (s.issue c.val w 0x3A vecMask fun s => s.vecFun c.val w vlog2)

def execVrsqrt (c : Fin 192) (w : Dword) (s : State) : Ans :=
  .next (s.issue c.val w 0x3B vecMask fun s => s.vecFun c.val w vrsqrt)

def execVrcp (c : Fin 192) (w : Dword) (s : State) : Ans :=
  .next (s.issue c.val w 0x3C vecMask fun s => s.vecFun c.val w vrcp)

def execVtanh (c : Fin 192) (w : Dword) (s : State) : Ans :=
  .next (s.issue c.val w 0x3D vecMask fun s => s.vecFun c.val w vtanh)

def execVsig (c : Fin 192) (w : Dword) (s : State) : Ans :=
  .next (s.issue c.val w 0x3E vecMask fun s => s.vecFun c.val w vsigmoid)

def execVgelu (c : Fin 192) (w : Dword) (s : State) : Ans :=
  .next (s.issue c.val w 0x3F vecMask fun s => s.vecFun c.val w vgelu)

/-! Class 0x4_. -/

/-- Element `k` of line `i` of a tile: row i for AX = 1, column i for AX = 0. -/
def lineElem (ax : Nat) (e : Elems) (i k : Nat) : Word :=
  elem e (if ax = 1 then tileKey i k else tileKey k i)

/-- The reduction of one line: tree sum, or an exact maximum or minimum (R83). -/
def redSum (vs : List Word) : Word := fcanon (pairTree vs)
def redFold (f : Word → Word → Word) : List Word → Word
  | [] => 0
  | v :: vs => fcanon (vs.foldl f v)

def State.redOp (s : State) (c : Nat) (w : Dword) (f : List Word → Word) : IRes :=
  s.unitOp c 2 { rd := [rX (iw w 51 48)], wr := [rV (iw w 54 52)] } fun s =>
    .go (s.updCore c fun x => coreSetV x (iw w 54 52) (vecFn fun i =>
      f ((List.range (iw w 43 37 + 1)).map (lineElem (iw w 55 55) (coreX x (iw w 51 48)) i))))

def redMask : Dword := bitsMask [(55, 48), (43, 37)]

def execRsum (c : Fin 192) (w : Dword) (s : State) : Ans :=
  .next (s.issue c.val w 0x40 redMask fun s => s.redOp c.val w redSum)

def execRmax (c : Fin 192) (w : Dword) (s : State) : Ans :=
  .next (s.issue c.val w 0x41 redMask fun s => s.redOp c.val w (redFold fmax))

def execRmin (c : Fin 192) (w : Dword) (s : State) : Ans :=
  .next (s.issue c.val w 0x42 redMask fun s => s.redOp c.val w (redFold fmin))

/-- A tile against a vector register: X[i][j] `f` Vb[i] for AX = 1, Vb[j] for AX = 0 (R129). -/
def State.bcastOp (s : State) (c : Nat) (w : Dword) (f : Word → Word → Word) : IRes :=
  s.unitOp c 2 { rd := [rX (iw w 51 48), rV (iw w 54 52)], wr := [rX (iw w 47 44)] } fun s =>
    .go (s.updCore c fun x => coreSetX x (iw w 47 44) (tileFn fun k =>
      f (elem (coreX x (iw w 51 48)) k)
        (elem (coreV x (iw w 54 52)) (if iw w 55 55 = 1 then k / 128 else k % 128))))

def bcastMask : Dword := bitsMask [(55, 44)]

def execBadd (c : Fin 192) (w : Dword) (s : State) : Ans :=
  .next (s.issue c.val w 0x44 bcastMask fun s => s.bcastOp c.val w fadd)

def execBsub (c : Fin 192) (w : Dword) (s : State) : Ans :=
  .next (s.issue c.val w 0x45 bcastMask fun s => s.bcastOp c.val w fsub)

def execBmul (c : Fin 192) (w : Dword) (s : State) : Ans :=
  .next (s.issue c.val w 0x46 bcastMask fun s => s.bcastOp c.val w fmul)

def execBmax (c : Fin 192) (w : Dword) (s : State) : Ans :=
  .next (s.issue c.val w 0x47 bcastMask fun s => s.bcastOp c.val w fmax)

def execBmin (c : Fin 192) (w : Dword) (s : State) : Ans :=
  .next (s.issue c.val w 0x48 bcastMask fun s => s.bcastOp c.val w fmin)

/-- 128 FP32 values, or with B8 = 1 128 bytes as the FP32 integers 0 to 255. -/
def execVld (c : Fin 192) (w : Dword) (s : State) : Ans :=
  .next (s.issue c.val w 0x49 (bitsMask [(55, 52), (47, 43)]) fun s =>
    let a := s.sAddr c.val (iw w 47 43)
    let b8 := iw w 55 55 == 1
    let r := (a, if b8 then 128 else 512)
    match badRange (if b8 then 1 else 4) [r] with
    | some a => .fault s 0x05 3 a
    | none =>
      s.unitOp c.val 2 { rd := [rD (iw w 47 43)], wr := [rV (iw w 54 52)], srd := [r] } fun s =>
        let v := s.scrView c.val 2
        .go ((s.updCore c.val fun x => coreSetV x (iw w 54 52) (vecFn fun i =>
          if b8 then f32OfInt (v (a + i)).toNat else wordAt v (a + 4 * i))).tickFree))

def execVst (c : Fin 192) (w : Dword) (s : State) : Ans :=
  .next (s.issue c.val w 0x4A (bitsMask [(54, 52), (47, 43)]) fun s =>
    let a := s.sAddr c.val (iw w 47 43)
    match badRange 4 [(a, 512)] with
    | some a => .fault s 0x05 3 a
    | none =>
      s.unitOp c.val 2 { rd := [rV (iw w 54 52), rD (iw w 47 43)], swr := [(a, 512)] } fun s =>
        .go (s.scrStore c.val 2 [(a, (List.range 128).flatMap fun i =>
          leBytes 4 (elem (coreV (s.core c.val) (iw w 54 52)) i).toNat)]))

/-- The vector that a VVOP computes: SUB 0 to 11. -/
def vvopVec (sub n : Nat) (ds : Word) (a b : Elems) : Elems :=
  match sub with
  | 0 => vecFn fun i => fadd (elem a i) (elem b i)
  | 1 => vecFn fun i => fsub (elem a i) (elem b i)
  | 2 => vecFn fun i => fmul (elem a i) (elem b i)
  | 3 => vecFn fun i => fmin (elem a i) (elem b i)
  | 4 => vecFn fun i => fmax (elem a i) (elem b i)
  | 5 => vecFn fun i => vexp2 (elem a i)
  | 6 => vecFn fun i => vlog2 (elem a i)
  | 7 => vecFn fun i => vrcp (elem a i)
  | 8 => vecFn fun i => vrsqrt (elem a i)
  | 9 => a
  | 10 => vecFn fun _ => ds
  | _ => vecFn fun i => if i = 0 then redSum ((List.range n).map (elem a)) else 0

def vvopSources (w : Dword) : List Nat :=
  let sub := iw w 33 30
  if sub = 10 then [rD (iw w 45 41)]
  else rV (iw w 51 49) :: (if sub ≤ 4 then [rV (iw w 48 46)] else [])

/-- SUB 12 to 15 are reserved. -/
def execVvop (c : Fin 192) (w : Dword) (s : State) : Ans :=
  .next (s.issue c.val w 0x4B (bitsMask [(54, 30)]) fun s =>
    if 12 ≤ iw w 33 30 then .fault s 0x01 0 0
    else s.unitOp c.val 2 { rd := vvopSources w, wr := [rV (iw w 54 52)] } fun s =>
      .go (s.updCore c.val fun x => coreSetV x (iw w 54 52)
        (vvopVec (iw w 33 30) (iw w 40 34 + 1) ((coreD x (iw w 45 41)).setWidth 32)
          (coreV x (iw w 51 49)) (coreV x (iw w 48 46)))))

def execVext (c : Fin 192) (w : Dword) (s : State) : Ans :=
  .next (s.issue c.val w 0x4C redMask fun s =>
    s.unitOp c.val 2 { rd := [rX (iw w 51 48)], wr := [rV (iw w 54 52)] } fun s =>
      .go (s.updCore c.val fun x => coreSetV x (iw w 54 52) (vecFn fun k =>
        lineElem (iw w 55 55) (coreX x (iw w 51 48)) (iw w 43 37) k)))

def execVins (c : Fin 192) (w : Dword) (s : State) : Ans :=
  .next (s.issue c.val w 0x4D redMask fun s =>
    s.unitOp c.val 2 { rd := [rV (iw w 54 52), rX (iw w 51 48)], wr := [rX (iw w 51 48)] } fun s =>
      .go (s.updCore c.val fun x => coreSetX x (iw w 51 48) (tileFn fun q =>
        let line := if iw w 55 55 = 1 then q / 128 else q % 128
        let k := if iw w 55 55 = 1 then q % 128 else q / 128
        if line = iw w 43 37 then elem (coreV x (iw w 54 52)) k
        else elem (coreX x (iw w 51 48)) q)))

end Sys2Proof.Machine
end

