-- ==== Sys2Proof/Machine/CoreCvt.lean ====
section
/-! DEFINITION. The convert class 0x5_: CVST, CVLD, CVT and CVCTX (R130 to R132), over the conversions
of R73 and R88 to R93. -/

namespace Sys2Proof.Machine

/-- Rows and columns that a block covers: the columns are the reduction axis (R70, R130). -/
def blockSides (f : FmtWord) : Nat × Nat :=
  if f.blk = 0 then (128, 128)
  else match f.dir with
    | 0 => (1, 2 ^ f.blk)
    | 1 => (2 ^ f.blk, 128)
    | _ => (squareSide f.blk, squareSide f.blk)

/-- The scale stride for a row pitch P (R130). -/
def scaleStride (f : FmtWord) (p : Nat) : Nat :=
  match f.dir with
  | 0 => ceilDiv p (2 ^ f.blk)
  | 1 => 1
  | _ => ceilDiv p (squareSide f.blk)

/-- Grid positions (u, v) of the blocks of rows × cols elements, row-major. -/
def blockGrid (f : FmtWord) (rows cols : Nat) : List (Nat × Nat) :=
  let b := blockSides f
  (List.range (ceilDiv rows b.1)).flatMap fun u =>
    (List.range (ceilDiv cols b.2)).map fun v => (u, v)

/-- The cells (i, j) of a block; the last one along an axis may be partial (R70). -/
def blockCells (f : FmtWord) (rows cols : Nat) (uv : Nat × Nat) : List (Nat × Nat) :=
  let b := blockSides f
  (List.range b.1).flatMap fun di => (List.range b.2).filterMap fun dj =>
    let i := uv.1 * b.1 + di
    let j := uv.2 * b.2 + dj
    if i < rows ∧ j < cols then some (i, j) else none

/-- A tile converted under a format word: per block its scale code, and per cell its bits and whether
it saturated. -/
structure Converted where
  codes : List ((Nat × Nat) × Nat)
  bits : SMap Nat
  sat : SMap Bool

/-- The conversion of rows × cols elements. `stored` gives the scale code at a block's scale address
when SCALE_SRC is 1; `g` is the global index of element [0][0] (R131). -/
def convertTile (f : FmtWord) (ctx : ConvCtx) (g rows cols : Nat) (stored : Nat × Nat → Nat)
    (tile : Elems) : Converted :=
  (blockGrid f rows cols).foldl (fun acc uv =>
    let cells := blockCells f rows cols uv
    let vals := cells.map fun q =>
      (F32.dec (elem tile (tileKey q.1 q.2)),
        convDraw ctx.seed ctx.tensor.toNat ((g + q.1 * ctx.pitch.toNat + q.2) % 2 ^ 64))
    let r := convertBlock f (stored uv) vals
    let sats := vals.map fun x =>
      r.1 != 255 && convertSat f.fmt (rndOf f x.2) f.ovfInf (x.1.scale (127 - (r.1 : Int)))
    { codes := acc.codes ++ [(uv, r.1)]
      bits := (cells.zip r.2).foldl (fun m e => SMap.set 0 m (tileKey e.1.1 e.1.2) e.2) acc.bits
      sat := (cells.zip sats).foldl (fun m e => SMap.set false m (tileKey e.1.1 e.1.2) e.2) acc.sat })
    ⟨[], [], []⟩

/-- Elements of one row packed little-endian from the row's start (R65). Bits of the last byte past
the last element are free values: the spec gives none (log entry 14). -/
def packBits (n : Nat) (es : List Nat) (free : Nat → Byte) : List Byte :=
  let total := es.length * n
  let x := es.foldr (fun e a => e % 2 ^ n + 2 ^ n * a) 0
  let bytes := (total + 7) / 8
  let pad := if total % 8 = 0 then 0
    else (free (bytes - 1)).toNat / 2 ^ (total % 8) * 2 ^ total
  leBytes bytes (x + pad)

/-- Where CVST and CVLD find their data and scales. -/
structure CvMove where
  f : FmtWord
  base : Nat
  scale : Nat
  stride : Nat
  rows : Nat
  cols : Nat
  pitch : Nat

def cvMove (s : State) (c : Nat) (w : Dword) : CvMove :=
  { f := FmtWord.of (BitVec.ofNat 16 (iw w 27 12)), base := s.sAddr c (iw w 47 43)
    scale := s.sAddr c (iw w 42 38), stride := (s.dreg c (iw w 37 33)).toNat
    rows := iw w 11 5 + 1, cols := (s.core c).ctx.cols, pitch := (s.core c).ctx.pitch.toNat }

def CvMove.row (m : CvMove) (i : Nat) : Nat := strided m.base m.stride i

def CvMove.scaleAt (m : CvMove) (uv : Nat × Nat) : Nat :=
  strided m.scale (scaleStride m.f m.pitch) uv.1 + uv.2

def CvMove.dataRanges (m : CvMove) : List (Nat × Nat) :=
  if m.cols = 0 then [] else
    (List.range m.rows).map fun i => (m.row i, (m.cols * fmtBits m.f.fmt + 7) / 8)

def CvMove.scaleRanges (m : CvMove) : List (Nat × Nat) :=
  if m.f.blk = 0 then [] else (blockGrid m.f m.rows m.cols).map fun uv => (m.scaleAt uv, 1)

/-- The first address out of range or misaligned (R125). -/
def CvMove.bad (m : CvMove) : Option Nat :=
  match badRange (if fmtBits m.f.fmt = 32 then 4 else 1) m.dataRanges with
  | some a => some a
  | none => badRange 1 m.scaleRanges

def cvRegs (w : Dword) : List Nat := [rD (iw w 47 43), rD (iw w 42 38), rD (iw w 37 33)]

/-- The values that CVST counts with SND (R334): the FP32 source values, with their saturations. Raw
INT32 words give free counts (log entry 12). -/
def cvstCounts (m : CvMove) (cv : Converted) (tile : Elems) (occasion : Nat) : SndRec :=
  if m.f.fmt = 11 then sndFree occasion
  else sndCount ((List.range m.rows).flatMap fun i => (List.range m.cols).map fun j =>
    (elem tile (tileKey i j), SMap.get false cv.sat (tileKey i j)))

def execCvst (c : Fin 192) (w : Dword) (s : State) : Ans :=
  .next (s.issue c.val w 0x50 (bitsMask [(51, 4)]) fun s =>
    let m := cvMove s c.val w
    let snd := iw w 4 4 == 1
    let slot := (s.core c.val).ctx.slot.toNat
    if m.f.reserved false then .fault s 0x02 3 0
    else if snd && !(sndSlot (s.core c.val) slot).bound then .fault s 0x11 3 0
    else match m.bad with
      | some a => .fault s 0x05 3 a
      | none =>
        let keep := m.f.blk = 0 ∨ m.f.scaleSrc = true
        s.unitOp c.val 2
          { rd := rX (iw w 51 48) :: rD (iw w 32 28) :: cvRegs w
            srd := if m.f.scaleSrc then m.scaleRanges else []
            swr := m.dataRanges ++ (if keep then [] else m.scaleRanges)
            slot := if snd then some slot else none } fun s =>
          let x := s.core c.val
          let v := s.scrView c.val 2
          let tile := coreX x (iw w 51 48)
          let cv := convertTile m.f x.ctx (coreD x (iw w 32 28)).toNat m.rows m.cols
            (fun uv => (v (m.scaleAt uv)).toNat) tile
          let word := fun k => if m.f.fmt = 11 then (elem tile k).toNat else SMap.get 0 cv.bits k
          let data := if m.cols = 0 then [] else (List.range m.rows).map fun i =>
            (m.row i, packBits (fmtBits m.f.fmt) ((List.range m.cols).map fun j => word (tileKey i j))
              fun b => Config.freeByte s.free (2 ^ 24 + m.row i + b))
          let scales := if keep then [] else cv.codes.map fun e =>
            (m.scaleAt e.1, [BitVec.ofNat 8 e.2])
          let n := cvstCounts m cv tile s.free
          let s := s.scrStore c.val 2 (scales ++ data)
          .go (s.updCore c.val fun x => if snd then sndAccum c.val slot n x else x))

/-- A loaded element: INT32 unchanged, anything else widened to FP32 with its scale code. A NaN of an
FP32 source comes out canonical (R96, log entry 45). -/
def loadedWord (m : CvMove) (v : Nat → Byte) (i j : Nat) : Word :=
  let n := fmtBits m.f.fmt
  let bits := bitsAt v (8 * m.row i + j * n) n
  if m.f.fmt = 11 then BitVec.ofNat 32 bits
  else if m.f.fmt = 0 then fcanon (BitVec.ofNat 32 bits)
  else
    let b := blockSides m.f
    let code := if m.f.blk = 0 then 127 else (v (m.scaleAt (i / b.1, j / b.2))).toNat
    F32.rnd (widen m.f.fmt bits code)

def execCvld (c : Fin 192) (w : Dword) (s : State) : Ans :=
  .next (s.issue c.val w 0x51 (bitsMask [(51, 33), (27, 5)]) fun s =>
    let m := cvMove s c.val w
    if m.f.reserved true then .fault s 0x02 3 0
    else match m.bad with
      | some a => .fault s 0x05 3 a
      | none =>
        s.unitOp c.val 2
          { rd := cvRegs w, wr := [rX (iw w 51 48)], srd := m.dataRanges ++ m.scaleRanges } fun s =>
          let v := s.scrView c.val 2
          .go ((s.updCore c.val fun x => coreSetX x (iw w 51 48) (tileFn fun k =>
            if k / 128 < m.rows ∧ k % 128 < m.cols then loadedWord m v (k / 128) (k % 128) else 0)
            ).tickFree))

/-- FP32 to INT32: integer rounding of R88, saturating. -/
def toInt32 (v : Word) : Word := BitVec.ofNat 32 (convertTo 11 .away false (F32.dec v))

/-- A scale code held as an FP32 value (R132). -/
def codeOf (v : Word) : Nat :=
  match F32.dec v with
  | .nan => 255
  | .inf n => if n then 0 else 255
  | .fin n m e => (max 0 (min 255 (roundIntAway n m e))).toNat

/-- CVT MODE 0: the FP32 values that the format would hold (R132). -/
def cvtQuantised (f : FmtWord) (ctx : ConvCtx) (g : Nat) (tile : Elems) : Elems :=
  let cv := convertTile f ctx g 128 ctx.cols (fun _ => 127) tile
  let b := blockSides f
  let nv := ceilDiv ctx.cols b.2
  tileFn fun k =>
    if ctx.cols ≤ k % 128 then 0
    else
      let code := ((cv.codes[k / 128 / b.1 * nv + k % 128 / b.2]?).map (·.2)).getD 127
      F32.rnd (widen f.fmt (SMap.get 0 cv.bits k) code)

def cvtSources (w : Dword) (mode : Nat) : List Nat :=
  rX (iw w 51 48) :: match mode with
    | 0 => [rD (iw w 47 43)]
    | 3 => [rV (iw w 42 40), rV (iw w 39 37)]
    | _ => []

/-- MODE 0 takes a format word without SCALE_SRC, MODE 1 to 3 the word 0x0000; MODE 4 to 15 are
reserved. -/
def execCvt (c : Fin 192) (w : Dword) (s : State) : Ans :=
  .next (s.issue c.val w 0x52 (bitsMask [(55, 37), (27, 8)]) fun s =>
    let mode := iw w 11 8
    let f := FmtWord.of (BitVec.ofNat 16 (iw w 27 12))
    if 4 ≤ mode ∨ (mode ≠ 0 ∧ iw w 27 12 ≠ 0) then .fault s 0x01 0 0
    else if mode = 0 ∧ (f.reserved false || f.scaleSrc) = true then .fault s 0x02 3 0
    else
      s.unitOp c.val 2 { rd := cvtSources w mode, wr := [rX (iw w 55 52)] } fun s =>
        .go (s.updCore c.val fun x =>
          let a := coreX x (iw w 51 48)
          coreSetX x (iw w 55 52) (match mode with
            | 0 => cvtQuantised f x.ctx (coreD x (iw w 47 43)).toNat a
            | 1 => tileFn fun k => toInt32 (elem a k)
            | 2 => tileFn fun k => f32OfInt (elem a k).toInt
            | _ => tileFn fun k => dequant (elem a k).toInt
                (codeOf (elem (coreV x (iw w 42 40)) (k / 128)))
                (codeOf (elem (coreV x (iw w 39 37)) (k % 128))))))

def execCvctx (c : Fin 192) (w : Dword) (s : State) : Ans :=
  .next (s.issue c.val w 0x53 (bitsMask [(52, 38), (16, 10), (2, 0)]) fun s =>
    s.unitOp c.val 2 { rd := [rD (iw w 52 48), rD (iw w 47 43), rD (iw w 42 38)] } fun s =>
      .go (s.updCore c.val fun x =>
        let k : ConvCtx :=
          { seed := coreD x (iw w 52 48), tensor := (coreD x (iw w 47 43)).setWidth 32
            pitch := coreD x (iw w 42 38), cols := iw w 16 10 + 1
            slot := BitVec.ofNat 3 (iw w 2 0) }
        { x with ctx := k }))

end Sys2Proof.Machine
end

