-- ==== Sys2Proof/Machine/Cmds.lean ====
section
/-! DEFINITION. The command processor: DESCRIPTOR_FETCH, COMMAND_COMPLETE, and the commands of the
queue chapter other than MIGRATE and ABORT (R146 to R148, R207, R224 to R228). A row that finds no
command of its kind live at its queue and slot changes nothing. -/

namespace Sys2Proof.Machine

/-- The helm core fetches the next exposed descriptor, once there is room for its record, and
validates it (R207, R212). -/
def execDescriptorFetch (p : Fin 16) (q : Fin 64) (s : State) : Ans :=
  .next (
    if !s.canFetch p.val q.val then s
    else match s.readSlot p.val q.val with
      | (w, .held) => s.waking w
      | (s', .fail _ _) => s'
      | (s', .ok bs) =>
        let c : Cmd := { q := q.val, idx := 0, desc := BitVec.ofNat 512 (leNat bs) }
        s'.takeDescriptor p.val q.val bs (s'.descDetail p.val c))

/-- Soundings records of a KERNEL's cores that the helm core has not merged yet (R337). -/
def State.unmerged (s : State) (p : Nat) (c : Cmd) : Bool :=
  c.op == opKernel && ((kCores c).filterMap (s.coreAt p)).any fun i => !(s.core i).emitted.isEmpty

/-- Held records of a running queue go first: a quarantine has kept them back (R231, R238). -/
def State.flushFirst (s : State) (p q : Nat) : State :=
  if ((s.part p).queue q).state == 1 && !(s.heldCmds p q).isEmpty then s.flushHeld p q else s

/-- Such records are still kept back. -/
def State.recordsWait (s : State) (p q : Nat) : Bool :=
  ((s.part p).queue q).state == 1 && !(s.heldCmds p q).isEmpty

/-- A command whose outcome is settled gets its record, its counter addition, its interrupt, and may
stop its queue (R228, R231, R232, R337). -/
def execCommandComplete (p : Fin 16) (q : Fin 64) (slot : BitVec 16) (s : State) : Ans :=
  .next (
    let s := s.flushFirst p.val q.val
    match s.pickCmd p.val fun c =>
      c.q == q.val && cmdSlot (s.part p.val) c == slot.toNat && c.held == 0 && c.outcome.isSome with
    | some c => match c.outcome with
      | none => s
      | some e => if s.unmerged p.val c || s.recordsWait p.val q.val then s else s.completeCmd p.val c e
    | none =>
      -- a KERNEL with a faulted core takes its outcome first
      match s.rowCmd p.val q.val slot.toNat cmdFaulted with
      | some c => s.settle p.val c
      | none => s)

/-- Runs `f` on the command that a row names. -/
def State.onCmd (s : State) (p : Fin 16) (q : Fin 64) (slot : BitVec 16) (kind : Cmd → Bool)
    (f : Cmd → State) : Ans :=
  .next (match s.rowCmd p.val q.val slot.toNat kind with
    | none => s
    | some c => f c)

/-! Data movement. -/

/-- One write of a command: staged when it is atomic (R235). -/
def State.cmdWrite (s : State) (p : Nat) (c : Cmd) (r : Req) (va : Nat) (bs : List Byte) :
    State × XR Unit :=
  if staged c then s.stageWrite p c r va bs else s.xwrite r va bs

/-- The DMA engine that moves the data at a VA: that of the tile whose memory holds it, else the helm
core's (R51, R169). -/
def State.moverReq (s : State) (p va : Nat) : Req :=
  match s.walkLeaf p va with
  | .ok e => if leafTier e < 2 then ⟨p, uDma (tileOfFrame (tierOf (leafTier e)) (leafFrame e))⟩
    else s.helmReq p
  | .err _ => s.helmReq p

/-- Moves pieces of a destination in ascending address, each from `src` at its offset. -/
def moveGo (p : Nat) (c : Cmd) (dst : Nat) (src : State → Nat → Nat → State × XR (List Byte)) :
    List (Nat × Nat) → State → State × XR Unit
  | [], s => (s, .ok ())
  | (va, n) :: ps, s =>
    match src s (va - dst) n with
    | (s1, .ok bs) =>
      match s1.cmdWrite p c (s1.moverReq p va) va bs with
      | (s2, .ok _) => moveGo p c dst src ps s2
      | (s2, .held) => (s2, .held)
      | (s2, .fail st at_) => (s2, .fail st at_)
    | (s1, .held) => (s1, .held)
    | (s1, .fail st at_) => (s1, .fail st at_)

/-- Ends a data command: DONE with its byte count, or the status of R167, after which a destination
that was not atomic is undefined (R224, R230). Held on host memory or a migrating page it has no
effect yet. -/
def State.endMove (s0 : State) (p : Nat) (c : Cmd) (dst n : Nat) (x : State × XR Unit) : State :=
  match x with
  | (w, .held) => s0.waking w
  | (s, .ok _) => s.finish p c (endDone n)
  | (s, .fail st va) =>
    let s := if staged c then s else s.scramble p dst n
    s.finish p c (endAt st va (staged c))

def State.runCopy (s : State) (p : Nat) (c : Cmd) : State :=
  let overlap := decide (cSrc c < cDst c + cLen c ∧ cDst c < cSrc c + cLen c)
  let src := fun (s : State) off n =>
    match s.xread (s.moverReq p (cSrc c + off)) (cSrc c + off) n with
    | (s', .ok bs) =>
      -- overlapping ranges leave the destination undefined
      if overlap then (s'.tickFree, .ok (s'.freeBytes n)) else (s', .ok bs)
    | r => r
  s.endMove p c (cDst c) (cLen c)
    (moveGo p c (cDst c) src (piecesOf (cDst c) (cLen c)) s)

def execCopy (p : Fin 16) (q : Fin 64) (slot : BitVec 16) (s : State) : Ans :=
  s.onCmd p q slot (fun c => c.op == opCopy && !isMigrate c) fun c => s.runCopy p.val c

/-- FILL writes the pattern to every 64-bit word; SCRUB writes zero to every line (R225). -/
def State.runFill (s : State) (p : Nat) (c : Cmd) (word : Nat) : State :=
  let src := fun (s : State) off n =>
    (s, XR.ok ((List.range n).map fun i => (leBytes 8 word).getD ((off + i) % 8) 0))
  s.endMove p c (fDst c) (fLen c)
    (moveGo p c (fDst c) src (piecesOf (fDst c) (fLen c)) s)

def execFill (p : Fin 16) (q : Fin 64) (slot : BitVec 16) (s : State) : Ans :=
  s.onCmd p q slot (fun c => c.op == opFill && !fScrub c) fun c => s.runFill p.val c (fPattern c)

def execScrub (p : Fin 16) (q : Fin 64) (slot : BitVec 16) (s : State) : Ans :=
  s.onCmd p q slot (fun c => c.op == opFill && fScrub c) fun c => s.runFill p.val c 0

/-! FENCE/SIGNAL/WAIT, MARK, NOP. -/

def isFence (sub : Nat) (c : Cmd) : Bool := c.op == opFence && sSub c == sub

/-- FENCE completes once every earlier command of its queue has its record: it is then the oldest. -/
def execFence (p : Fin 16) (q : Fin 64) (slot : BitVec 16) (s : State) : Ans :=
  s.onCmd p q slot (isFence 0) fun c =>
    if ((s.part p.val).cmds.find? fun y => y.q == c.q).any fun y => y.same c then
      s.finish p.val c (endDone 0)
    else s

def execSignalAdd (p : Fin 16) (q : Fin 64) (slot : BitVec 16) (s : State) : Ans :=
  s.onCmd p q slot (isFence 1) fun c =>
    let s := s.evcAdd p.val (sCtr c) (sValue c)
    s.finish p.val c (endDone (s.evc p.val (sCtr c)).toNat)

def execSignalSet (p : Fin 16) (q : Fin 64) (slot : BitVec 16) (s : State) : Ans :=
  s.onCmd p q slot (isFence 2) fun c =>
    let s := s.evcSet p.val (sCtr c) (BitVec.ofNat 64 (sValue c))
    s.finish p.val c (endDone (sValue c))

/-- WAIT completes once its counter is at least VALUE. -/
def execWait (p : Fin 16) (q : Fin 64) (slot : BitVec 16) (s : State) : Ans :=
  s.onCmd p q slot (isFence 3) fun c =>
    let v := (s.evc p.val (sCtr c)).toNat
    if sValue c ≤ v then s.finish p.val c (endDone v) else s

/-- MARK writes its variable record (R227, R533); RESULT is the operating time. -/
def execMark (p : Fin 16) (q : Fin 64) (slot : BitVec 16) (s : State) : Ans :=
  s.onCmd p q slot (·.op == opMark) fun c =>
    let t := s.log.optime.toNat
    let seq := s.seqNext
    let s := s.record { code := 0xF002, unit := s.uPartHelm p.val, part := some p.val
                        var := some (48, [(0x10, 1, p.val), (0x18, 8, markTime c),
                          (0x20, 4, markLabel c), (0x28, 8, t)]) }
    s.finish p.val c (endWith stDone 0 t false none (some seq))

/-- A NOP's commit point is its dispatch (R222). -/
def execNop (p : Fin 16) (q : Fin 64) (slot : BitVec 16) (s : State) : Ans :=
  s.onCmd p q slot (·.op == opNop) fun c => s.finish p.val c (endDone 0)

/-! KERNEL. -/

/-- The header of a program image is valid (R146). -/
def imageOk (h : List Byte) : Bool :=
  bAt h 0 4 == 0x50544B5A && bAt h 4 2 == 1 && bAt h 6 1 == 1 && bAt h 7 1 == 0
  && decide (1 ≤ bAt h 8 4 ∧ bAt h 8 4 ≤ 8192) && decide (bAt h 12 4 ≤ 256)
  && bAt h 0x10 48 == 0

/-- A core starts a kernel: everything but the scratchpad and the fault address registers is set to
zero (R108, R148). -/
def startCore (rank : Nat) (code args : List Dword) (argVa : Nat) (job : Nat × Nat × Nat) (x : Core) :
    Core :=
  { x with
    d := [], x := [], v := [], banks := [], feeds := [], ctx := {}, slots := [], cc := [], loops := []
    ibuf := code.zipIdx.foldl (fun m e => SMap.set 0 m e.2 e.1) []
    count := code.length, args := args, argVa := argVa, qa := [], qb := [], qv := [], dmas := []
    issued := 0, job := some job
    regs := { x.regs with
      state := 1, rank := BitVec.ofNat 8 rank, pc := 0, cause := 0, funit := 0 } }

def words64 (bs : List Byte) : List Dword :=
  (List.range (bs.length / 8)).map fun i => BitVec.ofNat 64 (bAt bs (8 * i) 8)

/-- Image, instructions and argument words, read in that order through translation (R147). -/
def State.readImage (s : State) (p : Nat) (c : Cmd) :
    State × XR (List Byte × List Dword × List Dword) :=
  match s.xread (s.helmReq p) (kImage c) 64 with
  | (s1, .held) => (s1, .held)
  | (s1, .fail st va) => (s1, .fail st va)
  | (s1, .ok h) =>
    match s1.xread (s1.helmReq p) (kImage c + 64) (8 * bAt h 8 4) with
    | (s2, .held) => (s2, .held)
    | (s2, .fail st va) => (s2, .fail st va)
    | (s2, .ok code) =>
      match s2.xread (s2.helmReq p) (kArgs c) (8 * bAt h 12 4) with
      | (s3, .held) => (s3, .held)
      | (s3, .fail st va) => (s3, .fail st va)
      | (s3, .ok args) => (s3, .ok (h, words64 code, words64 args))

def State.startKernel (s : State) (p : Nat) (c : Cmd) : State :=
  let cores := (kCores c).filterMap (s.coreAt p)
  if cores.length ≠ (kCores c).length then
    s.finish p c (endWith stDeviceFault 0x0206 0 true)
  else match s.readImage p c with
    | (w, .held) => s.waking w
    | (s', .fail st va) => s'.finish p c (endAt st va true)
    | (s', .ok (h, code, args)) =>
      if !imageOk h then s'.finish p c (endWith stDeviceFault 0x10 0 true)
      else
        let s' := s'.updCmd p c fun y => { y with prog := .kernel { cores := cores } }
        cores.zipIdx.foldl (fun s e => (s.updCore e.1
          (startCore e.2 code args (kArgs c) (p, c.q, c.idx))).queueWake
            (islandOfCluster (clusterOf e.1))) s'

def execKernel (p : Fin 16) (q : Fin 64) (slot : BitVec 16) (s : State) : Ans :=
  s.onCmd p q slot (fun c => c.op == opKernel && c.prog == .none) fun c => s.startKernel p.val c

end Sys2Proof.Machine
end

