-- ==== Sys2Proof/Machine/Migrate.lean ====
section
/-! DEFINITION. Migration beneath the range (R174 to R179), Pilot (R181 to R189), patrol scrub (R193) and
the invalidations of R170 to R173. -/

namespace Sys2Proof

def Pilot.base (x : Pilot) : Nat := 2 ^ 21 * x.stageBase.toNat
def Pilot.size (x : Pilot) : Nat := 2 ^ 21 * x.stageSize.toNat
/-- Bytes of Pilot's own records at the start of the region (R185). -/
def Pilot.recBytes (x : Pilot) : Nat := x.size / 256
def Pilot.last (x : Pilot) : Nat := x.base + x.size

def Pilot.updRun (x : Pilot) (n : Nat) (f : StageRun → StageRun) : Pilot :=
  { x with active := x.active.zipIdx.map fun e => if e.2 = n then f e.1 else e.1 }

end Sys2Proof

namespace Sys2Proof.Machine

/-! Leaves as the module changes them. -/

def setMig (e : Nat) : Nat := if leafMig e then e else e + 128
def clearMig (e : Nat) : Nat := if leafMig e then e - 128 else e

/-- The leaf with another tier and frame and MIG = 0. -/
def leafAt (e tier frame : Nat) : Nat :=
  clearMig e - leafFrame e - leafTier e * 2 ^ 56 + frame + tier * 2 ^ 56

/-- A frame under a partition's key. -/
structure Frame where
  tier : Tier
  addr : Nat
  key : Nat

def State.frameOf (s : State) (p e : Nat) : Frame :=
  ⟨tierOf (leafTier e), leafFrame e,
    frameKey (tierOf (leafTier e)) (leafEnc e) (s.part p).key⟩

/-- Copies one line; a poisoned line arrives poisoned (R176, R160). -/
def State.copyLine (s : State) (a b : Frame) (off : Nat) (found : Nat × Nat) : State × Found :=
  let line := (a.addr + off) / 64
  let dst := (b.addr + off) / 64
  let r := s.senseLine a.tier line (some found)
  let s := r.1
  let f := if r.2 then [(a.tier, line)] else []
  if (s.tier a.tier).bad line then
    let s := if a.tier == .host then s.poisonEvent .host line (some found) else s
    (if (s.tier b.tier).withdrawn dst then s else s.markPoison b.tier dst b.key, f)
  else
    (s.rawWriteLine b.tier b.key (b.addr + off) (s.rawRead a.tier a.key (a.addr + off) 64), f)

/-- Copies a page of `size` bytes at VA `va` of partition `p`; the answer says which places of weight
sets its reads have found uncorrectable. -/
def State.copyPage (s : State) (a b : Frame) (size p va : Nat) :
    State × List (Nat × Nat × Nat × Nat × Nat × Nat) :=
  let x := (List.range (size / 64)).foldl (fun (x : State × Found) i =>
    let y := x.1.copyLine a b (64 * i) (p, va + 64 * i)
    (y.1, x.2 ++ y.2)) (s, [])
  (x.1.tickFree, x.1.holders x.2)

/-! Step 4: the replicas are replaced only if they still hold what step 2 wrote, PSN apart, which the
module itself may have set since (R177). -/

def State.leafHeld (s : State) (p va : Nat) (e : Nat) : Option (Nat × Nat × Nat) :=
  match (s.walk p va).2 with
  | .ok (lvl, slot, now) =>
    if clearPsn now = clearPsn e ∧ s.replicasHold lvl slot now then some (lvl, slot, now) else none
  | .err _ => none

/-- The page is abandoned: the replicas that still hold the step-2 leaf `e` lose MIG, so that held
writes go to the source, and the host's own entries stay (R177). -/
def State.unmark (s : State) (p : Nat) (m : MigPage) (e : Nat) : State :=
  let s := (List.range (leafSlots (leafLevel e) e)).foldl (fun s i =>
    let v := s.rd64 (m.slot + 8 * i)
    if clearPsn v = clearPsn e then s.wr64 (m.slot + 8 * i) (clearMig v) else s) s
  (s.invalidate p m.va m.size).eventP 0x1030 (s.uPartHelm p) p

/-- A page a dispatched atomic command writes to is not migrated before that command completes
(R174, R235). -/
def State.atomicHolds (s : State) (p : Nat) (va size : Nat) : Bool :=
  let f := match s.walkLeaf p va with
    | .ok e => some (s.frameOf p e)
    | .err _ => none
  (s.part p).cmds.any fun c => c.dispatched && staged c &&
    ((match f with
      | some f => c.staged.any fun w => tierOf (min w.1 2) == f.tier
          && decide (f.addr ≤ w.2.1 ∧ w.2.1 < f.addr + size)
      | none => false)
     || (c.outcome.isNone && c.dst.any fun r => decide (r.1 < va + size ∧ va < r.1 + r.2)))

/-- Step 2 for a page: MIG in every replica, and the module's own invalidation. The leaf as it was, and
its first slot. -/
def State.markMig (s : State) (p va : Nat) : Option (State × Nat × Nat) :=
  match (s.walk p va).2 with
  | .ok (lvl, slot, e) => some (s.setLeaf p va lvl slot e (setMig e), e, leafBase lvl slot e)
  | .err _ => none

/-- The islands behind the frames of a copy are awake; the first that is not is woken (R47). -/
def State.copyAsleep (s : State) (a b : Frame) (size : Nat) : Option Nat :=
  s.asleep ([a, b].flatMap fun f =>
    (List.range (min 8 (ceilDiv size 4096))).map fun i => (f.tier, f.addr / 64 + 64 * i))

/-! MIGRATE (R178). -/

/-- Places pages in ascending order, each aligned to its size; `none` when the range is too small. -/
def placeGo : List PageRef → Nat → Nat → Option (List MigPage)
  | [], _, _ => some []
  | g :: gs, cur, lim =>
    let size := leafSize g.leaf
    let a := ceilDiv cur size * size
    if lim < a + size then none
    else (placeGo gs (a + size) lim).map ({ va := g.va, size := size, frame := a } :: ·)

/-- Ends a MIGRATE: RESULT is the pages moved, or the failing address. -/
def State.endMigrate (s : State) (p : Nat) (c : Cmd) (e : CmdEnd) : State := s.finish p c e

/-- Starts the copy of the next page, unless an atomic command holds it; a leaf that cannot be marked
ends the command with TRANSLATION. -/
def State.migrateNext (s : State) (p : Nat) (c : Cmd) (todo : List MigPage) (moved : Nat) : State :=
  match todo with
  | [] => s.finish p c (endDone moved)
  | m :: _ =>
    if s.atomicHolds p m.va m.size then
      s.updCmd p c fun y => { y with prog := .migrate todo moved none }
    else match s.markMig p m.va with
      | some (s', e, slot) =>
        let g := Prog.migrate ({ m with slot := slot } :: todo.drop 1) moved
          (some (BitVec.ofNat 64 (setMig e)))
        s'.updCmd p c fun y => { y with prog := g }
      | none => s.finish p c (endWith stTranslation 0 m.va)

def State.startMigrate (s : State) (p : Nat) (c : Cmd) : State :=
  let s := s.touchTables p (cSrc c) (cLen c)
  match s.pages p (cSrc c) (cLen c) with
  | .err .held => s
  | .err (.status st _) =>
    -- the read that fails is repeated for its effects and its address
    match s.xcheck (s.helmReq p) .read (cSrc c) (cLen c) with
    | (s', .fail st' va) => s'.finish p c (endAt st' va true)
    | (s', _) => s'.finish p c (endWith st 0 (cSrc c) true)
  | .ok gs =>
    match gs.find? fun g => leafPin g.leaf with
    | some g => s.finish p c (endWith stProtection 0 g.va true)
    | none => match gs.find? fun g => leafPsn g.leaf with
      | some g => s.finish p c (endWith stPoison 0 g.va true)
      | none => match placeGo gs (mDstFrame c) (mDstFrame c + mDstLen c) with
        | none => s.finish p c (endWith stNoPages 0 0 true)
        | some ms => s.migrateNext p c ms 0

def execMigrate (p : Fin 16) (q : Fin 64) (slot : BitVec 16) (s : State) : Ans :=
  s.onCmd p q slot (fun c => isMigrate c && c.prog == .none) fun c => s.startMigrate p.val c

/-- A page's copy ends: steps 3 to 6, or its abandonment (R177). `e` is the leaf of step 2. What the
copy's reads have lost is recovered in the new frame (R175). -/
def State.migratePage (s : State) (p : Nat) (c : Cmd) (m : MigPage) (todo : List MigPage)
    (moved e : Nat) : State :=
  let a := s.frameOf p e
  let b := s.frameOf p (leafAt e (mDstTier c) m.frame)
  if (a.tier == .host || b.tier == .host) && s.hostHeld then s
  else match s.copyAsleep a b m.size with
  | some isl => s.queueWake isl
  | none =>
    let x := s.copyPage a b m.size p m.va
    match x.1.leafHeld p m.va e with
    | some (lvl, slot, now) =>
      let s := x.1.setLeaf p m.va lvl slot now (leafAt now (mDstTier c) m.frame)
      (foundGo 8 s x.2).migrateNext p c todo (moved + 1)
    | none => (foundGo 8 (x.1.unmark p m e) x.2).finish p c (endWith stTranslation 0 m.va)

/-- The copy of a MIGRATE's page ends; one that an atomic command still holds has not begun. -/
def execMigrationCopyDone (p : Fin 16) (q : Fin 64) (slot : BitVec 16) (s : State) : Ans :=
  s.onCmd p q slot isMigrate fun c =>
    match c.prog with
    | .migrate (m :: todo) moved (some e) => s.migratePage p.val c m todo moved e.toNat
    | .migrate todo moved none => s.migrateNext p.val c todo moved
    | _ => s

/-- Returns the page in progress to its source (R179). -/
def State.returnPage (s : State) (p va : Nat) : State := s.changeLeaf p va clearMig

/-- An ABORT or a partition reset meets a MIGRATE: pages past step 4 stay (R179). -/
def State.abortMigrate (s : State) (p : Nat) (c : Cmd) (detail : Nat) : State :=
  match c.prog with
  | .migrate todo moved marked =>
    let s := match todo, marked with
      | m :: _, some _ => s.returnPage p m.va
      | _, _ => s
    s.finish p c (endWith stAborted detail moved)
  | _ => s.finish p c (endWith stAborted detail 0)

/-! Invalidations (R170 to R173). -/

/-- The running invalidation completes. -/
def execInvalidationDone (p : Fin 16) (s : State) : Ans :=
  .next (
    let x := (s.part p.val).xlt
    if x.invBusy then
      s.updPart p.val fun y => { y with
        xlt := { xltDrop x x.runVa (2 ^ x.runLog2) with invBusy := false } }
    else s)

/-! Pilot. -/

def routeEntries (x : Pilot) : Nat := x.entries.toNat + 1

def routeOf (bs : List Byte) : RouteEntry :=
  { va := bVa bs 0, len := bAt bs 8 8 % 2 ^ 40, layer := bAt bs 0x10 2
    lead := bAt bs 0x12 1 % 16, release := bAt bs 0x12 1 / 16 % 4 == 1 }

/-- An entry holds a reserved value or LAYER ≥ P (R182, R189). -/
def routeBad (period : Nat) (bs : List Byte) : Bool :=
  bAt bs 7 1 != 0 || bAt bs 0 8 % 4096 != 0 || bAt bs 13 3 != 0 || bAt bs 8 8 % 4096 != 0
  || decide (2 ≤ bAt bs 0x10 4 / 2 ^ 20) || decide (period ≤ bAt bs 0x10 2)
  || decide (4 ≤ bAt bs 0x1C 4)

/-- The staging region lies on one tile and clear of the table region (R185, R189). -/
def regionOk (x : Part) : Bool :=
  let a := x.plt.base
  let n := x.plt.size
  n == 0 || (decide (bdOff a + n ≤ bdTileBytes)
    && !(decide (a < (x.xlt.last.toNat + 1) * 4096 ∧ x.xlt.base.toNat * 4096 < a + n)))

/-- PAR_PLT_EN = 1: checks, then runs with c0 latched; several reasons: the lowest (DEDUCED, log
entry 17). A region with any size holds its own records, so reason 4 cannot arise. -/
def State.pilotOn (s : State) (p : Nat) : State :=
  let x := (s.part p).plt
  let n := routeEntries x
  let fail := fun (s : State) (e : Nat) => s.updPart p fun y => { y with
    plt := { y.plt with en := false, err := BitVec.ofNat 3 e } }
  let s := s.touchTables p x.tableVa.toNat (32 * n)
  if !s.pinnedRange p x.tableVa.toNat (32 * n) false then fail s 1
  else match s.peek p x.tableVa.toNat (32 * n) with
    | (s', some bs) =>
      let es := (List.range n).map fun i => (bs.drop (32 * i)).take 32
      if !regionOk (s'.part p) then fail s' 2
      else if es.any (routeBad x.period.toNat) then fail s' 3
      else s'.updPart p fun y => { y with
        plt := { y.plt with
          en := true, run := true, err := 0, c0 := s'.evc p x.ctr.toNat
          route := es.map routeOf, nextK := [], active := [], staged := [], ringPos := 0 } }
    | (s', _) => fail s' 1

/-- c − c0 (R181). -/
def State.pilotPos (s : State) (p : Nat) : Int :=
  let x := (s.part p).plt
  ((s.evc p x.ctr.toNat).toNat : Int) - (x.c0.toNat : Int)

/-- The layer k·P + L of an occurrence. -/
def occLayer (x : Pilot) (i k : Nat) : Int :=
  match x.route[i]? with
  | some e => (k * x.period.toNat + e.layer : Nat)
  | none => 0

/-- The triggered occurrence that comes next: lowest trigger, then table order (R184). -/
def State.nextOccurrence (s : State) (p : Nat) : Option (Nat × Nat × RouteEntry) :=
  let x := (s.part p).plt
  let pos := s.pilotPos p
  let cands := x.route.zipIdx.filterMap fun e =>
    let k := SMap.get 0 x.nextK e.2
    let t : Int := occLayer x e.2 k - (e.1.lead : Int)
    if t ≤ pos then some (t, e.2, k, e.1) else none
  (cands.foldl (fun (a : Option (Int × Nat × Nat × RouteEntry)) c =>
    match a with
    | none => some c
    | some b => if c.1 < b.1 then some c else some b) none).map (·.2)

/-- A word of a route entry that Pilot writes (R182); a write that fails is given up. -/
def State.routeWord (s : State) (p i off v : Nat) : State :=
  let va := (s.part p).plt.tableVa.toNat + 32 * i + off
  (s.xwriteNow (s.helmReq p) va (leBytes 4 v)).1

/-- Such a word as `f` changes it. -/
def State.routeMod (s : State) (p i off : Nat) (f : Nat → Nat) : State :=
  let x := s.peek p ((s.part p).plt.tableVa.toNat + 32 * i + off) 4
  x.1.routeWord p i off (f ((x.2.map leNat).getD 0))

def State.routeFlag (s : State) (p i flag : Nat) : State :=
  s.routeMod p i 0x1C fun v => if bit v flag then v else v + 2 ^ flag

/-- A late occurrence has been staged or released: it is counted and recorded (R186). Its lateness is
a time, a free value. -/
def State.pilotLate (s : State) (p : Nat) (r : StageRun) : State :=
  match r.byDeadline with
  | none => s
  | some bytes =>
    let us := s.freeVal % 2 ^ 64
    let s := s.tickFree
    let layer := ((s.part p).plt.route[r.entry]?.map (·.layer)).getD 0
    let s := s.routeMod p r.entry 0x14 fun v => min (v + 1) (2 ^ 32 - 1)
    let s := s.routeMod p r.entry 0x18 fun v => max v (min us (2 ^ 32 - 1))
    let s := s.updPart p fun y => { y with plt := { y.plt with late := satInc y.plt.late } }
    s.record { code := 0x1040, unit := s.uPartHelm p, part := some p
               var := some (48, [(0x10, 4, layer), (0x18, 8, r.k), (0x20, 8, us), (0x28, 8, bytes)]) }

/-- Notes, for each copy in progress whose occurrence the position has reached, what is staged by
then. -/
def State.pilotDeadlines (s : State) (p : Nat) : State :=
  let pos := s.pilotPos p
  s.updPart p fun y => { y with plt := { y.plt with
    active := y.plt.active.map fun r =>
      if r.byDeadline.isNone && decide (occLayer y.plt r.entry r.k ≤ pos) then
        { r with byDeadline := some r.staged }
      else r } }

/-- Leaves of the range [va, lim), unmapped pages left out. -/
def State.leavesGo (s : State) (p lim : Nat) : Nat → Nat → List PageRef
  | 0, _ => []
  | fuel + 1, va =>
    if lim ≤ va then []
    else match (s.walk p va).2 with
      | .err _ => leavesGo s p lim fuel ((va / 4096 + 1) * 4096)
      | .ok (lvl, slot, e) =>
        let start := va / leafSize e * leafSize e
        ⟨start, lvl, slot, e⟩ :: leavesGo s p lim fuel (start + leafSize e)

def State.leaves (s : State) (p va n : Nat) : List PageRef := s.leavesGo p (va + n) (n / 4096 + 1) va

/-- A read-only leaf of 4 KiB to 2 MiB, not pinned and not poisoned (R182, R183). -/
def stageable (g : PageRef) : Bool :=
  leafRo g.leaf && !leafPin g.leaf && !leafPsn g.leaf && decide (leafPs g.leaf ≤ 9)

/-- The leaves of an entry fit the empty ring (R185). -/
def ringFits (x : Pilot) (sizes : List Nat) : Bool :=
  decide (sizes.foldl (fun a n => ceilDiv a n * n + n) (x.base + x.recBytes) ≤ x.last)

def overlaps (a n b m : Nat) : Bool := decide (a < b + m ∧ b < a + n)

/-- Frames of the ring in use: staged leaves and copies in progress. -/
def ringUsed (x : Pilot) : List (Nat × Nat) :=
  x.staged.map (fun g => (g.frame, g.size))
  ++ x.active.filterMap fun r => r.cur.map fun c => (c.1.frame, c.1.size)

/-- The next frame of a size in the ring, if it is free. -/
def ringAlloc (x : Pilot) (size : Nat) : Option Nat :=
  let start := x.base + x.recBytes
  let a := ceilDiv (max start x.ringPos) size * size
  let a := if a + size ≤ x.last then a else ceilDiv start size * size
  if a + size ≤ x.last && !(ringUsed x).any fun u => overlaps a size u.1 u.2 then some a else none

/-- The run with number `n` leaves; a late one is recorded. -/
def State.endRun (s : State) (p n : Nat) : State :=
  match (s.part p).plt.active[n]? with
  | none => s
  | some r =>
    let s := s.updPart p fun y => { y with plt := { y.plt with active := y.plt.active.eraseIdx n } }
    s.pilotLate p r

/-- Starts the next leaf of a run: a frame from the ring, and MIG in the leaf; without room it
waits. -/
def State.runLeaf (s : State) (p n : Nat) : State :=
  match (s.part p).plt.active[n]? with
  | none => s
  | some r =>
    if r.big || r.cur.isSome then s
    else match r.todo with
      | [] => s.endRun p n
      | g :: rest =>
        if s.atomicHolds p g.1 g.2 then s
        else match ringAlloc (s.part p).plt g.2 with
        | none => s
        | some a =>
          match s.markMig p g.1 with
          | some (s', home, slot) => s'.updPart p fun y => { y with plt := { y.plt.updRun n fun r =>
              { r with todo := rest, cur := some (⟨g.1, g.2, a, slot⟩, BitVec.ofNat 64 home) } with
                ringPos := a + g.2 } }
          | none => s.updPart p fun y => { y with plt := y.plt.updRun n fun r => { r with todo := rest } }

/-- Starts a STAGE occurrence (R183, R185). -/
def State.startStage (s : State) (p i k : Nat) (e : RouteEntry) : State :=
  let s := s.touchTables p e.va e.len true
  let x := (s.part p).plt
  let gs := s.leaves p e.va e.len
  let done := gs.filter fun g => x.staged.any fun t => t.va == g.va
  let fresh := gs.filter fun g => stageable g && !(x.staged.any fun t => t.va == g.va)
  let skipped := gs.any fun g => !stageable g && !(x.staged.any fun t => t.va == g.va)
  let big := !ringFits x ((gs.filter stageable).map fun g => leafSize g.leaf)
  let r : StageRun :=
    { entry := i, k := k, todo := fresh.map fun g => (g.va, leafSize g.leaf)
      cur := none, staged := (done.map fun g => leafSize g.leaf).sum, byDeadline := none, big := big }
  let s := if skipped then s.routeFlag p i 1 else s
  let s := if big then s.routeFlag p i 0 else s
  -- with every leaf staged already the occurrence is complete, and not late (R186)
  if fresh.isEmpty && !big then s
  else
  let s := s.updPart p fun y => { y with plt := { y.plt with active := y.plt.active ++ [r] } }
  (s.pilotDeadlines p).runLeaf p ((s.part p).plt.active.length - 1)

/-- Switches a staged leaf back to its home, if it is still the staged one, and frees its frame
(R183). -/
def State.releaseLeaf (s : State) (p : Nat) (g : StagedLeaf) : State :=
  let s := match (s.walk p g.va).2 with
    | .ok (lvl, slot, e) =>
      if leafTier e = 0 ∧ leafFrame e = g.frame then
        s.setLeaf p g.va lvl slot e g.home.toNat
      else s
    | .err _ => s
  s.updPart p fun y => { y with plt := { y.plt with
    staged := y.plt.staged.filter fun h => !(h.va == g.va) } }

/-- The copy in progress of a run is returned (R179). -/
def State.returnRun (s : State) (p : Nat) (r : StageRun) : State :=
  match r.cur with
  | some c => s.returnPage p c.1.va
  | none => s

/-- A RELEASE: staged leaves in the range go home; a STAGE of the range still in progress ends. -/
def State.startRelease (s : State) (p : Nat) (e : RouteEntry) : State :=
  let s := ((s.part p).plt.staged.filter fun g => overlaps g.va g.size e.va e.len).foldl
    (fun s g => s.releaseLeaf p g) s
  let x := (s.part p).plt
  let hit := fun (r : StageRun) => match x.route[r.entry]? with
    | some f => overlaps f.va f.len e.va e.len
    | none => false
  let ended := x.active.filter hit
  let s := s.updPart p fun y => { y with plt := { y.plt with
    active := y.plt.active.filter fun r => !hit r } }
  ended.foldl (fun s r => (s.returnRun p r).pilotLate p r) s

/-- Runs that copy: at most four (R184). -/
def pilotCopies (x : Pilot) : Nat := (x.active.filter fun r => !r.big).length

/-- Every run that waits for room tries again. -/
def State.runAll (s : State) (p : Nat) : State :=
  (List.range (s.part p).plt.active.length).foldl (fun s n => s.runLeaf p n) s

/-- Pilot takes the next triggered occurrence (R184). -/
def execPilotOccurrence (p : Fin 16) (s : State) : Ans :=
  .next (
    let x := (s.part p.val).plt
    if !x.run then s
    else
      let s := s.pilotDeadlines p.val
      match s.nextOccurrence p.val with
      | none => s
      | some (i, k, e) =>
        if !e.release && decide (4 ≤ pilotCopies x) then s
        else
          let s := s.updPart p.val fun y => { y with plt := { y.plt with
            nextK := SMap.set 0 y.plt.nextK i (k + 1) } }
          if e.release then (s.startRelease p.val e).runAll p.val
          else s.startStage p.val i k e)

/-- The record of a home entry, somewhere among the region's records: its form and place are left
open (log entry 18). -/
def State.homeRecord (s : State) (p : Nat) : State :=
  let x := (s.part p).plt
  if x.recBytes = 0 then s
  else
    let at_ := x.base + 16 * (s.freeVal % (x.recBytes / 16))
    (s.rawWrite .bd 0 at_ (s.freeBytes 16)).tickFree

/-- The leaf that run `n` copies is staged (R183), or abandoned (R177); the run goes on. -/
def State.stageDone (s : State) (p n : Nat) : State :=
  let s := s.pilotDeadlines p
  match (s.part p).plt.active[n]? with
  | none => s
  | some r => match r.cur with
    | none => s.runLeaf p n
    | some (m, home) =>
      let e := home.toNat
      let a := s.frameOf p e
      let b : Frame := ⟨.bd, m.frame, 0⟩
      if a.tier == .host && s.hostHeld then s
      else match s.copyAsleep a b m.size with
      | some isl => s.queueWake isl
      | none =>
        let x := s.copyPage a b m.size p m.va
        let s := match x.1.leafHeld p m.va (setMig e) with
          | some (lvl, slot, now) =>
            let s := (x.1.setLeaf p m.va lvl slot now (leafAt now 0 m.frame)).homeRecord p
            s.updPart p fun y => { y with plt := { y.plt.updRun n fun r =>
              { r with cur := none, staged := r.staged + m.size } with
                staged := y.plt.staged ++ [({ va := m.va, size := m.size, home := home, frame := m.frame } : StagedLeaf)] } }
          | none =>
            (x.1.unmark p m (setMig e)).updPart p fun y => { y with
              plt := y.plt.updRun n fun r => { r with cur := none } }
        (foundGo 8 s x.2).runAll p

def execPilotStageDone (p : Fin 16) (n : Nat) (s : State) : Ans :=
  .next (if (s.part p.val).plt.run then s.stageDone p.val n else s)

/-- Pilot stops: copies are returned and every staged leaf goes home (R188); occurrences that are late by
then are counted (R186). -/
def State.pilotOff (s : State) (p : Nat) : State :=
  let s := s.pilotDeadlines p
  let s := (s.part p).plt.active.foldl (fun s r => (s.returnRun p r).pilotLate p r) s
  let s := (s.part p).plt.staged.foldl (fun s g => s.releaseLeaf p g) s
  s.updPart p fun y => { y with plt := { y.plt with
    en := false, run := false, active := [], staged := [], nextK := [], ringPos := 0 } }

/-! Patrol scrub (R193). -/

/-- An error strikes a line or a scratchpad word; the next read of it finds it. -/
def State.strike (s : State) : Upset → State
  | .line lp l e =>
    s.updTier (if lp then .lp else .bd) fun m => m.updLine l fun i => { i with err := e.val }
  | .word c w e => s.updCore c.val fun x => { x with err := SMap.set 0 x.err w e.val }

/-- The line belongs to the unit: ports 0 to 31, then controllers. -/
def lineOfUnit (u line : Nat) : Tier × Bool :=
  if u < 32 then (.bd, bdPortOf (line * 64) == u) else (.lp, lpCtrlOf (line * 64) == u - 32)

/-- A port or controller reads one line of its memory, with the error it finds there; `last` ends its
pass. -/
def State.scrubLine (s : State) (u line err : Nat) (last : Bool) : State :=
  let t := (lineOfUnit u line).1
  let s := if err = 0 then s else s.updTier t fun m => m.updLine line fun i => { i with err := err }
  let r := s.senseLine t line none
  let s := r.1.found (if r.2 then [(t, line)] else [])
  if !last then s
  else if u < 32 then s.updBdp u fun x => { x with passes := x.passes + 1 }
  else s.updLpc (u - 32) fun x => { x with passes := x.passes + 1 }

def execPatrolScrub (u : Fin 40) (line : Nat) (err : Fin 5) (latent : List Upset) (last : Bool)
    (s : State) : Ans :=
  .next (
    let s := latent.foldl State.strike s
    if s.bu.ready && (lineOfUnit u.val line).2 && s.frameOk (lineOfUnit u.val line).1 (line * 64) then
      s.scrubLine u.val line err.val last
    else s)

end Sys2Proof.Machine
end

