-- ==== Sys2Proof/Machine/Gen.lean ====
section
/-! DEFINITION. The serving engine: its registers' effects (R288 to R294, R300, R318, R328, R410), the
request entries (R318 to R325), the steps (R298 to R303, R316, R317, R320, R323, R327), and pauses in
LPDDR6 (R324). Readings where the chapter is silent: log entry 23. -/

namespace Sys2Proof

def evBytes (phase : Bool) (e : GenEvent) : List Byte :=
  leBytes 1 e.kind ++ leBytes 1 e.status ++ leBytes 1 e.reason ++ leBytes 1 (if phase then 1 else 0)
  ++ leBytes 4 e.id.toNat ++ leBytes 4 e.tag.toNat ++ leBytes 4 e.count ++ leBytes 8 e.step
  ++ leBytes 4 e.shared ++ leBytes 4 0

def Gen.reqN (g : Gen) : Nat := 2 ^ g.desc.reqLog2
def Gen.evtN (g : Gen) : Nat := 2 ^ g.desc.evtLog2

/-- Slots that the host has not consumed. -/
def Gen.evtUsed (g : Gen) : Nat :=
  (g.evtTail.toNat + 2 * g.evtN - g.evtHead.toNat % (2 * g.evtN)) % (2 * g.evtN)

/-- Records that the event ring can still take. -/
def Gen.evtRoom (g : Gen) : Nat := g.evtN - g.evtUsed - g.ready.length

/-! The rows that a request brings to a step (R303, R316). -/

def noTarget : Word := 0xFFFFFFFF
def noToken : Word := 0xFFFFFFFE

/-- The decode row and its guess rows. -/
def decodeRows (d : GenDesc) (r : GenReq) (tok : Word) : List GenRow :=
  let n := if r.spec && !r.specOff then
    min d.specHeads (min (r.maxNew - r.count - 1) (d.posMax - r.valid)) else 0
  { target := noTarget, pos := r.valid, kind := 2, head := 0, win := r.window, token := tok } ::
    ((r.guesses.take n).zipIdx.map fun e =>
      { target := noTarget, pos := r.valid + 1 + e.2, kind := 3, head := e.1.1, win := r.window
        token := e.1.2 })

/-- Rows that a prompt has: all of it, but for a scoring request the last one. -/
def promptRows (r : GenReq) : Nat := if r.score then r.prompt.length - 1 else r.prompt.length

def chunkRows (d : GenDesc) (r : GenReq) : List GenRow :=
  (List.range (min d.chunk (promptRows r - r.valid))).map fun i =>
    let pos := r.valid + i
    { target := if r.score then r.prompt.getD (pos + 1) 0 else noTarget
      pos := pos, kind := if pos + 1 = r.prompt.length then 1 else 0, head := 0, win := r.window
      token := r.prompt.getD pos 0 }

def itemOf (d : GenDesc) (r : GenReq) : List GenRow :=
  if r.leader.isSome then []
  else match r.last with
    | some t => decodeRows d r t
    | none => chunkRows d r

/-- The requests of a step in the order of its batch table: decoding ones, then prompts. -/
def stepOrder (rs : List GenReq) : List GenReq :=
  byPriority (rs.filter (·.last.isSome)) ++ byPriority (rs.filter (·.last.isNone))

/-- Items that fit, in order; one that does not is skipped (R303). -/
def chooseGo (d : GenDesc) : List GenReq → Nat → List (GenReq × List GenRow)
  | [], _ => []
  | r :: rs, left =>
    let rows := itemOf d r
    if rows.isEmpty || decide (left < rows.length) then chooseGo d rs left
    else (r, rows) :: chooseGo d rs (left - rows.length)

def Gen.choose (g : Gen) : List (GenReq × List GenRow) :=
  chooseGo g.desc (stepOrder (g.reqs.filter reqRuns)) g.desc.rowsMax

/-- Windows the rows of an item write that have no page yet, or a page that is shared. -/
def Gen.pagesFor (g : Gen) (rows : List GenRow) : List Nat :=
  ((rows.map fun r => g.desc.pageOf r.pos).eraseDups).filter fun i =>
    match rows with
    | [] => false
    | r :: _ => g.at_ r.win i = 0 || decide (1 < (g.page (g.at_ r.win i)).refs)

def rowBytes (r : GenRow) : List Byte :=
  leBytes 4 r.target.toNat ++ leBytes 4 (r.pos + r.kind * 2 ^ 24 + r.head * 2 ^ 26)
  ++ leBytes 4 r.win ++ leBytes 4 r.token.toNat

/-- The batch table (R301). -/
def batchBytes (no : Nat) (rows : List GenRow) : List Byte :=
  leBytes 8 no ++ leBytes 4 rows.length ++ leBytes 4 (rows.map (·.win)).eraseDups.length
  ++ List.replicate 48 0 ++ rows.flatMap rowBytes

/-- Events that the commit of an item can cause (R326): TOKENS, the final one, SPEC_OFF. -/
def commitEvents (e : GenReq × List GenRow) : Nat :=
  1 + (if e.1.stream && !e.1.score then 1 else 0) + (if e.2.length > 1 && e.1.last.isSome then 1 else 0)

end Sys2Proof

namespace Sys2Proof.Machine

/-! The event ring. -/

def evtGo (p : Nat) : Nat → State → State
  | 0, s => s
  | fuel + 1, s =>
    let g := s.gen p
    match g.ready with
    | [] => s
    | e :: es =>
      if g.evtN ≤ g.evtUsed then s
      else match s.xwrite (s.helmReq p) (g.desc.evtVa + 32 * (g.evtTail.toNat % g.evtN))
          (evBytes (phaseOf g.evtTail.toNat g.evtN) e) with
        | (w, .held) => s.waking w
        | (s', _) => evtGo p fuel (s'.updPart p fun x => { x with gen := { x.gen with
            ready := es, evtTail := BitVec.ofNat 17 ((g.evtTail.toNat + 1) % (2 * g.evtN)) } })

/-- Writes the events that are ready, as far as the ring has room. -/
def State.genEvents (s : State) (p : Nat) : State := evtGo p ((s.gen p).ready.length + 1) s

/-! Frames moved between tiers (R174, R324). -/

/-- Where a page of the cache lies: at its leaf's frame, or at `f` where it has none. -/
def State.pageFrame (s : State) (p va : Nat) (f : Bool × Nat) : Frame :=
  match s.walkLeaf p va with
  | .ok e => s.frameOf p e
  | .err _ => ⟨if f.1 then .lp else .bd, f.2, if f.1 then (s.part p).key else 0⟩

/-- Moves one frame of a page, layer `l` at index `i` of window `w`, to a free frame of the other tier. -/
def State.moveFrame (s : State) (p w i l n : Nat) (toLp : Bool) : State :=
  let g := s.gen p
  let d := g.desc
  match (g.page n).frames[l]?, pickFrames (Config.freePick s.free) 1 (g.freeFrames toLp) with
  | some f, [a] =>
    let va := d.pageVa w l i
    if f.1 == toLp || s.atomicHolds p va d.frame then s
    else
      let b : Frame := ⟨if toLp then .lp else .bd, a, if toLp then (s.part p).key else 0⟩
      let s := (s.copyPage (s.pageFrame p va f) b d.frame p va).1
      (s.updGen p (·.updPage n fun x => { x with frames := x.frames.set l (toLp, a) })).tickFree
  | _, _ => s

/-- Moves the private frames of a window while the other tier has room. -/
def State.moveWindow (s : State) (p w : Nat) (toLp : Bool) : State :=
  (SMap.get [] (s.gen p).wins w).zipIdx.foldl (fun s e =>
    let x := (s.gen p).page e.1
    if e.1 = 0 || x.node || decide (1 < x.refs) then s
    else (List.range x.frames.length).foldl (fun s l => s.moveFrame p w e.2 l e.1 toLp) s) s

/-! Reclaiming frames (R322). -/

def reclaimGo (p prio need : Nat) : Nat → State → State
  | 0, s => s
  | fuel + 1, s =>
    let g := s.gen p
    if need ≤ (g.freeFrames false).length || (g.freeFrames true).isEmpty then s
    else match (g.reqs.filter fun r => reqRuns r && decide (r.prio < prio)).getLast? with
      | none => s
      | some r => reclaimGo p prio need fuel ((s.updGen p (·.pause r 3)).moveWindow p r.window true)

/-- Makes `need` bonded frames free, or changes nothing. -/
def State.reclaim (s : State) (p prio need : Nat) : State × Bool :=
  let s' := s.updGen p (evictGo need (s.gen p).dir.length)
  let s' := reclaimGo p prio need (s'.gen p).reqs.length s'
  if need ≤ ((s'.gen p).freeFrames false).length then (s', true) else (s, false)

/-! Enabling and disabling (R288 to R294, R300, R328). -/

def genDescOf (b : List Byte) : GenDesc :=
  { layers := bAt b 0 2, hkv := bAt b 2 1, klog := bAt b 3 1, hdim := bAt b 4 2
    kvFmt := BitVec.ofNat 16 (bAt b 6 2), lstride := bAt b 8 1, specHeads := bAt b 9 1
    specOff := bAt b 0x0A 2, windows := bAt b 0x0C 4, salt := BitVec.ofNat 64 (bAt b 0x10 8)
    stepQ := bAt b 0x18 1 % 64, tplN := bAt b 0x19 1, chunk := bAt b 0x1A 2, rowsMax := bAt b 0x1C 4
    tplVa := bVa b 0x20, batchVa := bVa b 0x28, outVa := bVa b 0x30, sparamVa := bVa b 0x38
    dirVa := bVa b 0x40, dirN := bAt b 0x48 4, profN := bAt b 0x4C 1, profVa := bVa b 0x50
    poolVa := bVa b 0x58, poolN := bAt b 0x60 2, reqLog2 := bAt b 0x62 1, evtLog2 := bAt b 0x63 1
    pauseMs := bAt b 0x64 4, reqVa := bVa b 0x68, evtVa := bVa b 0x70
    lat := (List.range 4).map fun i => bAt b (0x78 + 4 * i) 4 }

/-- A floating format word that the cache, queries and probabilities may use: BF16, FP16 or a narrow
floating one along the reduction axis, blocks of at most `2^blk`. -/
def floatFmtOk (w : BitVec 16) (blk : Nat) : Bool :=
  let f := FmtWord.of w
  !f.reserved false && decide (1 ≤ f.fmt ∧ f.fmt ≤ 7) && f.dir == 0 && decide (f.blk ≤ blk)

/-- KV_FMT of R291. -/
def kvFmtOk (d : GenDesc) : Bool :=
  let f := FmtWord.of d.kvFmt
  floatFmtOk d.kvFmt d.hdim.log2 && f.rnd == 0 && !f.ovfInf

/-- Reason 2: a reserved or out-of-range value (R289, R291 to R293). -/
def genFieldsBad (b : List Byte) : Bool :=
  let d := genDescOf b
  !(bZero b ([(0x4D, 3), (0x88, 120)] ++ ([0x20, 0x28, 0x30, 0x38, 0x40, 0x50, 0x58, 0x68, 0x70].map
      fun o => (o + 7, 1))))
  || !decide (1 ≤ d.layers ∧ d.layers ≤ 1024 ∧ 1 ≤ d.hkv ∧ d.hkv ≤ 64 ∧ 4 ≤ d.klog ∧ d.klog ≤ 12)
  || !([64, 128, 256].contains d.hdim) || !kvFmtOk d || decide (2 ^ 21 < d.pageBytes)
  || decide (36 < d.lstride) || decide (d.lstride < d.fLog)
  || decide (2 ^ 36 < d.layers * 2 ^ d.lstride)
  || decide (4 < d.specHeads) || !decide (1 ≤ d.windows ∧ d.windows ≤ 524288)
  || decide (64 ≤ bAt b 0x18 1) || d.tplN == 0
  || !decide (256 ≤ d.chunk ∧ d.chunk ≤ 8192 ∧ d.chunk ≤ d.rowsMax ∧ d.rowsMax ≤ 16384)
  || d.tplVa % 64 != 0 || decide (1048576 < d.dirN) || !decide (1 ≤ d.profN ∧ d.profN ≤ 16)
  || !decide (1 ≤ d.poolN ∧ d.poolN ≤ 64)
  || !decide (4 ≤ d.reqLog2 ∧ d.reqLog2 ≤ 16 ∧ 4 ≤ d.evtLog2 ∧ d.evtLog2 ≤ 16)
  || decide (60000 < d.pauseMs) || d.reqVa % 4096 != 0 || d.evtVa % 4096 != 0

/-- Reason 1, apart from the descriptor: a ring outside permitted memory. -/
def State.genRingsBad (s : State) (p : Nat) (d : GenDesc) : Bool :=
  decide (d.reqLog2 ≤ 16 ∧ d.evtLog2 ≤ 16)
  && (!s.pinnedRange p d.reqVa (64 * 2 ^ d.reqLog2) false
      || !s.pinnedRange p d.evtVa (32 * 2 ^ d.evtLog2) true)

/-- Reason 3. -/
def stepQueueBad (x : Part) (q : Nat) : Bool :=
  let y := x.queue q
  !y.en || y.head != y.tail || x.cmds.any fun c => c.q == q

/-- A template command breaks R300. -/
def tplBad (d : GenDesc) (c : Cmd) : Bool :=
  let op := c.op
  !([opKernel, opAttend, opSample, opVerify, opFence, opNop].contains op)
  || (op == opFence && sSub c != 0) || c.waitEn || c.sigEn || c.intr
  || (op == opSample && (c.va 0x20 != d.batchVa || decide (4 < c.f 0x3C 8)
      || c.va 0x28 != d.outVa + 16 * c.f 0x3C 8 * d.rowsMax))
  || (op == opVerify && (c.va 0x18 != d.batchVa || c.va 0x28 != d.outVa + 80 * d.rowsMax))

def tplLastBad (d : GenDesc) (c : Cmd) : Bool :=
  if d.specHeads > 0 then c.op != opVerify else c.op != opSample || c.f 0x3C 8 != 0

/-- Reason 4, once the template has been read. -/
def templateBad (d : GenDesc) (b : List Byte) : Bool :=
  let cs : List Cmd := (List.range d.tplN).map fun i =>
    { q := 0, idx := i, desc := BitVec.ofNat 512 (bAt b (64 * i) 64) }
  (cs.any (tplBad d)) || (match cs.getLast? with | some c => tplLastBad d c | none => true)

/-- [a, a + n) lies within the addresses of a tier, on one tile of bonded DRAM and in one package of a
controller that has only one (R158, R159). -/
def State.rangeOk (s : State) (t : Tier) (a n : Nat) : Bool :=
  s.frameOk t a && match t with
    | .bd => decide (bdOff a + n ≤ bdTileBytes)
    | .lp => if s.board.memCode = 1 then decide (a + n ≤ 2 ^ 40) else decide (a % 2 ^ 37 + n ≤ 2 ^ 36)
    | .host => true

/-- A pool extent breaks R294. -/
def State.extentBad (s : State) (d : GenDesc) (b : List Byte) : Bool :=
  let base := bAt b 0 5
  let len := bAt b 8 5
  let tier := fld (bAt b 0 8) 56 2
  decide (bAt b 0 8 ≠ base + tier * 2 ^ 56) || decide (2 ≤ tier) || base % d.frame != 0
  || (tier == 0 && bit base 39) || decide (bAt b 8 8 ≠ len) || len % d.frame != 0
  || !s.rangeOk (tierOf tier) base len

def poolOf (d : GenDesc) (b : List Byte) : List PoolExtent :=
  ((List.range d.poolN).map fun i => (b.drop (16 * i)).take 16).map fun e =>
    ⟨bAt e 0 5, fld (bAt e 0 8) 56 2 == 1, bAt e 8 5⟩

/-- The tables of the walks to the descriptor and the rings are read before their pages are checked. -/
def State.genTouch (s : State) (p : Nat) (d : GenDesc) : State :=
  (s.touchTables p d.reqVa (64 * 2 ^ min d.reqLog2 16)).touchTables p d.evtVa (32 * 2 ^ min d.evtLog2 16)

/-- PAR_GEN_EN = 1: the lowest reason that holds is reported (log entry 23). -/
def State.genOn (s : State) (p : Nat) : State :=
  let fail := fun (s : State) (n : Nat) =>
    s.updPart p fun x => { x with gen := { x.gen with err := BitVec.ofNat 3 n } }
  let va := (s.gen p).descVa.toNat
  if (s.gen p).active then s
  else
    let s := s.touchTables p va 256
    if !s.pinnedRange p va 256 false then fail s 1
    else match s.peek p va 256 with
    | (s, none) => fail s 1
    | (s, some b) =>
      let d := genDescOf b
      let s := s.genTouch p d
      if s.genRingsBad p d then fail s 1
      else if genFieldsBad b then fail s 2
      else if stepQueueBad (s.part p) d.stepQ then fail s 3
      else match s.peek p d.tplVa (64 * d.tplN) with
      | (s, none) => fail s 4
      | (s, some tb) =>
        if templateBad d tb then fail s 4
        else match s.peek p d.poolVa (16 * d.poolN) with
        | (s, none) => fail s 5
        | (s, some pb) =>
          if (List.range d.poolN).any fun i => s.extentBad d ((pb.drop (16 * i)).take 16) then fail s 5
          else (((s.kvClear p).updGen p fun g =>
            { en := true, park := g.park, descVa := g.descVa, reqTail := g.reqTail, reqHead := g.reqHead
              evtTail := g.evtTail, evtHead := g.evtHead, state := if g.park then 2 else 1
              desc := d, extents := poolOf d pb }).scramble p d.dirVa (dirEntryBytes d * d.dirN))

/-- Every live request ends, and every window, frame and directory entry is freed (R328). -/
def State.genEnd (s : State) (p : Nat) : State :=
  ((s.updGen p fun g =>
    let g := (g.reqs.filter fun r => !r.cancelled).foldl
      (fun g r => g.push (reqEvent r evFailed stAborted 4)) g
    { g with
      state := 0, evtFull := false, pages := [], wins := [], dir := [], reqs := [], step := none
      extents := [], discards := 0, retry := false, stopping := false }).kvClear p).genEvents p

/-- PAR_GEN_EN = 0: at once without a step, else when the step has completed. -/
def State.genOff (s : State) (p : Nat) : State :=
  let s := s.updPart p fun x => { x with gen := { x.gen with en := false, stopping := x.gen.active } }
  if (s.gen p).active && (s.gen p).step.isNone then s.genEnd p else s

/-- PAR_GEN_PARK = 1: parked at once when no step runs. -/
def State.genParkOn (s : State) (p : Nat) : State :=
  s.updPart p fun x => { x with gen := { x.gen with
    park := true
    state := if x.gen.state = 1 ∧ x.gen.step.isNone then 2 else x.gen.state } }

/-- PAR_TACK_REKEY is taken: the directory is rekeyed and the register bit cleared (R410). -/
def State.genRekey (s : State) (p : Nat) : State :=
  let x := s.part p
  if x.tack.rekey && x.gen.active then
    (s.updGen p (·.rekey x.tack.salt)).updPart p fun x => { x with tack := { x.tack with rekey := false } }
  else s

/-- PAR_GEN_PARK = 0: a parked engine steps again under a new epoch; a park that was still pending only
ends. Either rekeys if asked to (R328, R410). -/
def State.genParkOff (s : State) (p : Nat) : State :=
  (s.updPart p fun x => { x with gen :=
    if x.gen.state = 2 then { x.gen with park := false, state := 1, epoch := x.gen.epoch + 1 }
    else { x.gen with park := false } }).genRekey p

/-- A value that R205 accepts for a tail: below 2N, exposing at most N, not behind the last one. -/
def tailOk (n head tail v : Nat) : Bool :=
  decide (v < 2 * n) && decide ((v + 2 * n - head) % (2 * n) ≤ n)
  && decide ((tail + 2 * n - head) % (2 * n) ≤ (v + 2 * n - head) % (2 * n))

/-- A write of PAR_GEN_REQ_TAIL (R318). -/
def State.genDoorbell (s : State) (p v unit : Nat) : State :=
  let g := s.gen p
  if g.active && tailOk g.reqN g.reqHead.toNat g.reqTail.toNat v then
    s.updPart p fun x => { x with gen := { x.gen with reqTail := BitVec.ofNat 17 v } }
  else s.eventP 0x4001 unit p

/-! Request entries (R318, R319). -/

def eKind (b : List Byte) : Nat := bAt b 0 1
def eId (b : List Byte) : Word := BitVec.ofNat 32 (bAt b 4 4)
def eTag (b : List Byte) : Word := BitVec.ofNat 32 (bAt b 0x3C 4)

/-- The next entry: held, or its bytes. An entry that cannot be read counts as a reserved one with
free contents. -/
def State.nextEntry (s : State) (p : Nat) : Went (State × List Byte) :=
  let g := s.gen p
  if !s.enabled p || (s.part p).resetting || !g.active || g.stopping || g.reqHead == g.reqTail then .wait s
  else match s.xread (s.helmReq p) (g.desc.reqVa + 64 * (g.reqHead.toNat % g.reqN)) 64 with
    | (w, .held) => .wait w
    | (s', .ok b) => .on (s', b)
    | (s', .fail _ _) => .on (s'.tickFree, [0] ++ (s'.freeBytes 64).drop 1)

/-- Takes the next entry when it is of the row's kind and the ring has room for its events. -/
def State.onEntry (s : State) (p : Nat) (kind : Nat → Bool) (room : List Byte → Nat)
    (f : State → List Byte → State) : Ans :=
  .next (match s.nextEntry p with
    | .wait w => s.waking w
    | .on (s', b) =>
      let g := s'.gen p
      if !kind (eKind b) || decide (g.evtRoom < room b) then s
      else (f (s'.updPart p fun x => { x with gen := { x.gen with
          reqHead := BitVec.ofNat 17 ((g.reqHead.toNat + 1) % (2 * g.reqN)) } }) b).genEvents p)

def entryDone (b : List Byte) (status : Nat) (r : Option GenReq) : GenEvent :=
  { kind := evEntryDone, status := status, id := eId b, tag := eTag b
    count := match r with | some r => r.count | none => 0 }

/-! SUBMIT (R321, R322). -/

/-- Check 1 of R321. -/
def submitBad (d : GenDesc) (b : List Byte) : Bool :=
  let score := bit (bAt b 1 1) 2
  let fan := bAt b 2 2
  let P := bAt b 0x18 4
  let maxNew := bAt b 0x1C 4
  eKind b != 1 || decide (64 ≤ bAt b 1 1) || !bZero b [(0x17, 1), (0x27, 1)]
  || !decide (1 ≤ fan ∧ fan ≤ 1024) || (score && fan != 1)
  || !decide (1 ≤ P ∧ P ≤ d.posMax + 1) || (score && P == 1)
  || (if score then maxNew != 0 else !decide (1 ≤ maxNew ∧ maxNew ≤ 2 ^ 24))
  || bVa b 0x20 % 16 != 0

def submitReq (b : List Byte) (prompt : List Word) (j w order : Nat) (leader : Option Nat)
    (hit : Nat) : GenReq :=
  let fl := bAt b 1 1
  { id := eId b + BitVec.ofNat 32 j, tag := eTag b, window := w, prio := fl % 4, score := bit fl 2
    spec := bit fl 3, noShare := bit fl 4, stream := bit fl 5, seed := BitVec.ofNat 64 (bAt b 8 8)
    prompt := prompt, maxNew := bAt b 0x1C 4, rollVa := bVa b 0x20
    tinv := BitVec.ofNat 32 (bAt b 0x28 4), topP := BitVec.ofNat 32 (bAt b 0x2C 4)
    topK := bAt b 0x30 4, stop0 := BitVec.ofNat 32 (bAt b 0x34 4)
    stop1 := BitVec.ofNat 32 (bAt b 0x38 4), sample := j, leader := leader, order := order
    valid := if leader.isSome then 0 else hit }

/-- The sampling entry of a window (R308). -/
def sparamBytes (r : GenReq) : List Byte :=
  leBytes 8 r.seed.toNat ++ leBytes 4 r.id.toNat ++ leBytes 4 r.tinv.toNat ++ leBytes 4 r.topP.toNat
  ++ leBytes 4 r.topK ++ leBytes 4 (b2n r.score) ++ leBytes 4 0

/-- Windows for `n` samples, as the engine picks them. -/
def pickWindows (g : Gen) (pick : Nat → Nat) (n : Nat) : List Nat :=
  pickFrames pick n ((List.range g.desc.windows).filter fun w => (g.byWin w).isNone)

/-- Frames that the admission needs (R322). -/
def admitNeed (d : GenDesc) (score : Bool) (P hit fan : Nat) : Nat :=
  let rows := min d.chunk ((if score then P - 1 else P) - hit)
  d.layers * ((if rows = 0 then 0 else d.pageOf (hit + rows - 1) + 1 - d.pageOf hit) + (fan - 1))

/-- One sample's request: its window, its ADMITTED event and its sampling entry. -/
def State.admitOne (s : State) (p : Nat) (r : GenReq) (hit : Nat) : State :=
  let s := s.updGen p fun g => ({ g with reqs := g.reqs ++ [r], nextOrder := g.nextOrder + 1 }).push
    { reqEvent r evAdmitted 0 0 0 with shared := hit }
  (s.xwriteNow (s.helmReq p) ((s.gen p).desc.sparamVa + 32 * r.window) (sparamBytes r)).1

def State.reject (s : State) (p : Nat) (b : List Byte) (status reason : Nat) : State :=
  s.updGen p (·.push { kind := evRejected, status := status, reason := reason, id := eId b, tag := eTag b })

/-- Admission with its windows chosen, the hits held by the first sample (R296, R321). -/
def State.admitFan (s : State) (p : Nat) (b : List Byte) (prompt : List Word) (ws : List Nat)
    (hits : List DirNode) : State :=
  let hit := hits.length * (s.gen p).desc.tokens
  match ws with
  | [] => s
  | w0 :: _ =>
    let s := s.updGen p fun g => (hits.zipIdx.foldl (fun g e => g.hold w0 e.2 e.1.page) g).touch hits
    let s := ws.zipIdx.foldl (fun s e =>
      s.admitOne p (submitReq b prompt e.2 e.1 (s.gen p).nextOrder
        (if e.2 = 0 then none else some w0) hit) hit) s
    s.updGen p fun g => match g.byWin w0 with | some r => g.join r | none => g

def State.submit (s : State) (p : Nat) (b : List Byte) : State :=
  let g := s.gen p
  let d := g.desc
  let fan := bAt b 2 2
  let P := bAt b 0x18 4
  let score := bit (bAt b 1 1) 2
  if submitBad d b then s.reject p b stDeviceFault 1
  else match s.xread (s.helmReq p) (bVa b 0x10) (4 * P) with
    | (s, .fail _ _) => s.reject p b stDeviceFault 1
    | (w, .held) => s.waking w
    | (s, .ok pb) =>
      let prompt := (List.range P).map fun i => BitVec.ofNat 32 (bAt pb (4 * i) 4)
      let ids := (List.range fan).map fun j => eId b + BitVec.ofNat 32 j
      let ws := pickWindows g (Config.freePick s.free) fan
      if ids.any fun i => (g.live i).isSome then s.reject p b stBusy 2
      else if ws.length < fan then s.reject p b stBusy 3
      else
        let look := if score || bit (bAt b 1 1) 4 then ([], false) else (s.gen p).lookup prompt
        let s := if look.2 then s.eventP 0x4011 (s.uPartHelm p) p else s
        -- a node that was hit is not evicted for this request
        let pinned := s.updGen p fun g =>
          { g with dir := g.dir.map fun x =>
              if look.1.any fun h => h.key == x.key then { x with refs := x.refs + 1 } else x }
        let r := pinned.reclaim p (bAt b 1 1 % 4)
          (admitNeed d score P (look.1.length * d.tokens) fan)
        if !r.2 then s.reject p b stNoPages 4
        else
          let s := r.1.updGen p fun g =>
            { g with dir := g.dir.map fun x =>
                if look.1.any fun h => h.key == x.key then { x with refs := x.refs - 1 } else x }
          (s.admitFan p b prompt ws look.1).tickFree

/-- A SUBMIT can cause one event a sample, and a PAUSED for each running request of lower priority. -/
def submitRoom (g : Gen) (b : List Byte) : Nat :=
  if submitBad g.desc b then 1
  else bAt b 2 2 + (g.reqs.filter fun r => reqRuns r && decide (r.prio < bAt b 1 1 % 4)).length

/-- An entry of a reserved KIND is rejected as a SUBMIT is (log entry 23). A prompt behind a
quarantined port holds the entry. -/
def execSubmit (p : Fin 16) (s : State) : Ans :=
  let held := match s.nextEntry p.val with
    | .on (s', b) =>
      if submitBad (s'.gen p.val).desc b then none
      else match s'.xread (s'.helmReq p.val) (bVa b 0x10) (4 * bAt b 0x18 4) with
        | (w, .held) => some w
        | _ => none
    | .wait _ => none
  match held with
  | some w => .next (s.waking w)
  | none => s.onEntry p.val (fun k => !(decide (2 ≤ k ∧ k ≤ 4))) (submitRoom (s.gen p.val))
    fun s b => s.submit p.val b

/-! CANCEL, PAUSE and RESUME (R323 to R325). -/

def execCancel (p : Fin 16) (s : State) : Ans :=
  s.onEntry p.val (· == 2) (fun _ => 2) fun s b =>
    s.updGen p.val fun g => match g.live (eId b) with
      | none => g.push (entryDone b stAbortNothing none)
      | some r => (g.endReq r evCancelled stCancelled 0).push (entryDone b stDone (some r))

/-- A PAUSE waits for the end of a running step. -/
def execPause (p : Fin 16) (s : State) : Ans :=
  s.onEntry p.val (· == 3) (fun _ => 1) fun s b =>
    s.updGen p.val fun g => match g.live (eId b) with
      | none => g.push (entryDone b stAbortNothing none)
      | some r =>
        if r.paused.isSome || r.pausing then g.push (entryDone b stAbortNothing (some r))
        else if g.step.isNone then g.pause r 1
        else g.updReq r.window fun x => { x with pausing := true }

/-- A resumed request is marked, and its RESUMED event comes when it rejoins a step. -/
def execResume (p : Fin 16) (s : State) : Ans :=
  s.onEntry p.val (· == 4) (fun _ => 1) fun s b =>
    s.updGen p.val fun g => match g.live (eId b) with
      | none => g.push (entryDone b stAbortNothing none)
      | some r =>
        if r.paused = some 1 then
          g.updReq r.window fun x => { x with paused := none, resumed := true, moved := false }
        else g.push (entryDone b stAbortNothing (some r))

/-- A request has stayed paused for PAUSE_MS: its private pages go to LPDDR6 (R324). -/
def execPauseTimeout (p : Fin 16) (id : Word) (s : State) : Ans :=
  .next (match (s.gen p.val).live id with
    | some r =>
      if s.enabled p.val && r.paused.isSome && !r.moved then
        (s.moveWindow p.val r.window true).updGen p.val
          (·.updReq r.window fun x => { x with moved := true })
      else s
    | none => s)

/-! Starting a step (R298 to R303, R323). -/

/-- Copies the frames of a shared page into private ones of a window (R298). -/
def State.copyShared (s : State) (p w i : Nat) : State :=
  let g := s.gen p
  let d := g.desc
  let old := g.page (g.at_ w i)
  let from_ := (List.range d.layers).map fun l =>
    s.pageFrame p (d.pageVa w l i) (old.frames.getD l (false, 0))
  let s := s.updGen p fun g => (g.drop (g.at_ w i)).newPage (Config.freePick s.free) w i
  let new := (s.gen p).page ((s.gen p).at_ w i)
  ((List.range d.layers).foldl (fun s l =>
    match from_[l]?, new.frames[l]? with
    | some f, some t => (s.copyPage f ⟨.bd, t.2, 0⟩ d.frame p (d.pageVa w l i)).1
    | _, _ => s) s).tickFree

/-- Gives the rows of an item their pages: a new one, a private copy, or their own made writable. -/
def State.givePages (s : State) (p : Nat) (rows : List GenRow) : State :=
  match rows with
  | [] => s
  | r :: _ =>
    ((rows.map fun x => (s.gen p).desc.pageOf x.pos).eraseDups).foldl (fun s i =>
      let g := s.gen p
      let n := g.at_ r.win i
      if n = 0 then (s.updGen p fun g => g.newPage (Config.freePick s.free) r.win i).tickFree
      else if 1 < (g.page n).refs then s.copyShared p r.win i
      else s.updGen p (·.updPage n fun x => { x with ro := x.node })) s

/-- Pages of the chosen items, in order; one whose pages cannot be found is paused with reason 3
(R322). -/
def State.prepare (s : State) (p : Nat) (items : List (GenReq × List GenRow)) : State :=
  items.foldl (fun s e =>
    match (s.gen p).byWin e.1.window with
    | none => s
    | some r =>
      if !reqRuns r then s
      else
        let need := (s.gen p).desc.layers * ((s.gen p).pagesFor e.2).length
        let x := s.reclaim p r.prio need
        if x.2 then x.1.givePages p e.2 else s.updGen p (·.pause r 3)) s

/-- Pauses requests of lower priority that the step would include until a late request's item fits
(R323). -/
def lateGo (w prio : Nat) : Nat → Gen → Gen
  | 0, g => g
  | fuel + 1, g =>
    let items := g.choose
    if items.any fun e => e.1.window == w then g
    else
      let lower := (items.filter fun e => decide (e.1.prio < prio)).map (·.1)
      let least := (byPriority lower).getLast?.map (·.prio)
      match (lower.filter fun r => some r.prio == least).foldl
          (fun (a : Option GenReq) r => match a with
            | none => some r
            | some b => some (if b.order < r.order then r else b)) none with
      | none => g
      | some r => lateGo w prio fuel (g.pause r 2)

/-- A request that has waited beyond its target, as `late` says. -/
def latePauses (g : Gen) (late : List Word) : Gen :=
  (byPriority (g.reqs.filter fun r => reqRuns r && late.contains r.id && g.desc.lat.getD r.prio 0 != 0)).foldl
    (fun g r => if (itemOf g.desc r).isEmpty then g else lateGo r.window r.prio g.reqs.length g) g

/-- Requests that the engine resumes: paused with reasons 2 to 4 before this step, once their items
fit and their frames are free (R323). -/
def resumeFits (g : Gen) (was : List Nat) : Gen :=
  (byPriority (g.reqs.filter fun r => was.contains r.window)).foldl (fun g r =>
    let rows := itemOf g.desc r
    let used := (g.choose.map fun e => e.2.length).sum
    if !rows.isEmpty && decide (used + rows.length ≤ g.desc.rowsMax)
        && decide (g.desc.layers * (g.pagesFor rows).length ≤ (g.freeFrames false).length) then
      g.updReq r.window fun x => { x with paused := none, resumed := true, moved := false }
    else g) g

/-- Paused by the engine itself. -/
def enginePaused (r : GenReq) : Bool :=
  !r.cancelled && (r.paused == some 2 || r.paused == some 3 || r.paused == some 4)

/-- Requests that the engine may resume: those paused for poisoned weights not while a set recovers
(R401). -/
def State.mayResume (s : State) (p : Nat) (r : GenReq) : Bool :=
  enginePaused r && !(r.paused == some 4 && (List.range 16).any fun k => ((s.part p).wset k).state == 3)

/-- The engine may start a step: serving, none running, every set that it reads free of recovery
(R327, R328, R385). -/
def State.mayStep (s : State) (p : Nat) : Bool :=
  let g := s.gen p
  s.enabled p && !(s.part p).resetting && g.state == 1 && !g.park && !g.stopping && g.step.isNone
  && !s.genSets p 3 && !s.genSets p 4

/-- RESUMED events and the return of LPDDR6 pages, as frames are free, for what rejoins. -/
def State.rejoin (s : State) (p : Nat) (items : List (GenReq × List GenRow)) : State :=
  items.foldl (fun s e =>
    match (s.gen p).byWin e.1.window with
    | none => s
    | some r =>
      if r.resumed then
        (s.updGen p fun g => (g.updReq r.window fun x => { x with resumed := false }).push
          (reqEvent r evResumed)).moveWindow p r.window false
      else s) s

/-- Choice and pages of the next step. -/
def State.planStep (s : State) (p : Nat) (late : List Word) : State × List (GenReq × List GenRow) :=
  let was := ((s.gen p).reqs.filter (s.mayResume p)).map (·.window)
  let s := s.updGen p fun g => resumeFits (latePauses g late) was
  let items := (s.gen p).choose
  let s := s.prepare p items
  let items := items.filter fun e => match (s.gen p).byWin e.1.window with
    | some r => reqRuns r
    | none => false
  (s.rejoin p items, items)

/-- The ring lacks room for what the step's commit can cause, on top of the events of its start. -/
def evtShort (g : Gen) (items : List (GenReq × List GenRow)) : Bool :=
  decide (g.evtN < g.evtUsed + g.ready.length + (items.map commitEvents).sum)

/-- Writes the batch table and places the template (R299). -/
def State.launch (s : State) (p : Nat) (rows : List GenRow) : Went State :=
  let g := s.gen p
  let no := g.stepNo.toNat + 1
  let st : GenStep := { no := no, rows := rows, left := g.desc.tplN, failed := none }
  let s := s.updPart p fun x => { x with gen := { x.gen with step := some st, evtFull := false } }
  match s.xwrite (s.helmReq p) g.desc.batchVa (batchBytes no rows) with
  | (s', .fail status m) => .on ((s'.updStep p fun st => { st with
      failed := some (BitVec.ofNat 8 status, BitVec.ofNat 64 m.va) }).genSkip p)
  | (w, .held) => .wait w
  | (s', .ok _) => .on (tplGo p 256 s')

def execGenStepStart (p : Fin 16) (late : List Word) (s : State) : Ans :=
  .next (
    if !s.mayStep p.val then s
    else
      let x := s.planStep p.val late
      if x.2.isEmpty then x.1.genEvents p.val
      else if evtShort (x.1.gen p.val) x.2 then
        s.updPart p.val fun y => { y with gen := { y.gen with evtFull := true } }
      else match (x.1.genEvents p.val).launch p.val (x.2.flatMap (·.2)) with
        | .wait w => s.waking w
        | .on s' => s'.tickFree)

/-- A write of PAR_GEN_EVT_HEAD: the events that are ready go out, and steps are no longer held once
the ring has room. -/
def State.genEvtHead (s : State) (p v : Nat) : State :=
  let s := (s.updPart p fun x => { x with gen := { x.gen with evtHead := BitVec.ofNat 17 v } }).genEvents p
  if (s.gen p).evtFull then
    let x := s.planStep p []
    if evtShort (x.1.gen p) x.2 then s
    else s.updPart p fun y => { y with gen := { y.gen with evtFull := false } }
  else s

/-! Committing a step (R302, R316, R317, R320). -/

/-- What the commands of the template left for a row: the main head's record, the extra heads'
tokens, ACCEPT and YIELD. -/
structure RowOut where
  row : GenRow
  token : Word
  logprob : Word
  entropy : Word
  heads : List Word
  accept : Bool
  yields : Bool
  deriving DecidableEq, Repr

/-- Row `i` from the slices of the output region: records of heads 0 to SPEC_HEADS, verdicts. -/
def rowOut (recs : List (List Byte)) (verdicts : List Byte) (i : Nat) (r : GenRow) : RowOut :=
  let w := fun (bs : List Byte) off => BitVec.ofNat 32 (bAt bs (16 * i + off) 4)
  let v := bAt verdicts (4 * i) 4
  { row := r, token := w (recs.headD []) 0, logprob := w (recs.headD []) 4, entropy := w (recs.headD []) 8
    heads := recs.tail.map fun b => w b 0
    accept := if recs.length = 1 then false else bit v 0
    yields := if recs.length = 1 then r.kind == 1 || r.kind == 2 else bit v 1 }

def areasGo (p : Nat) : List (Nat × Nat) → State → State × XR (List (List Byte))
  | [], s => (s, .ok [])
  | (va, n) :: as_, s =>
    match s.xread (s.helmReq p) va n with
    | (s', .ok b) => match areasGo p as_ s' with
      | (s'', .ok bs) => (s'', .ok (b :: bs))
      | r => r
    | (s', .held) => (s', .held)
    | (s', .fail st a) => (s', .fail st a)

/-- The rows' outputs. -/
def State.outputs (s : State) (p : Nat) (st : GenStep) : State × XR (List RowOut) :=
  let d := (s.gen p).desc
  let n := st.rows.length
  let heads := (List.range (d.specHeads + 1)).map fun h => (d.outVa + 16 * h * d.rowsMax, 16 * n)
  let all := if d.specHeads = 0 then heads else heads ++ [(d.outVa + 80 * d.rowsMax, 4 * n)]
  match areasGo p all s with
  | (s', .ok bs) =>
    let recs := bs.take (d.specHeads + 1)
    (s', .ok (st.rows.zipIdx.map fun e => rowOut recs (bs.getD (d.specHeads + 1) []) e.2 e.1))
  | (s', .held) => (s', .held)
  | (s', .fail st a) => (s', .fail st a)

/-- A record of the row holds the token of a NaN or +Inf logit (R314). -/
def nonFinite (o : RowOut) : Bool :=
  ((o.row.kind != 0 || o.row.target != noTarget) && o.token == noToken)
  || (o.row.kind != 0 && o.heads.contains noToken)

/-- The tokens yielded, each with its row and ACC. -/
def yieldsOf : List RowOut → List (RowOut × Nat)
  | [] => []
  | o :: os =>
    let acc := match os with
      | n :: _ => if n.row.kind = 3 ∧ n.accept then 2 ^ (n.row.head - 1) else 0
      | [] => 0
    if o.yields then (o, acc) :: yieldsOf os else yieldsOf os

def isStop (r : GenReq) (t : Word) : Bool :=
  (t == r.stop0 && r.stop0 != noTarget) || (t == r.stop1 && r.stop1 != noTarget)

/-- A rollout record (R320). -/
def rolloutBytes (r : GenReq) (o : RowOut) (acc epoch : Nat) : List Byte :=
  leBytes 4 o.token.toNat ++ leBytes 4 o.logprob.toNat ++ leBytes 4 o.entropy.toNat
  ++ leBytes 4 (acc + 16 * b2n (isStop r o.token) + epoch * 2 ^ 16)

/-- Why the request ends with this token (R326): the reasons that apply. -/
def endReasons (d : GenDesc) (r : GenReq) (count : Nat) (o : RowOut) : List Nat :=
  (if r.maxNew ≤ count then [1] else []) ++ (if isStop r o.token then [2] else [])
  ++ (if d.posMax < o.row.pos + 1 then [3] else [])

/-- Tokens up to the one that ends the request. -/
def keepGo (d : GenDesc) (r : GenReq) : List (RowOut × Nat) → Nat → List (RowOut × Nat)
  | [], _ => []
  | y :: ys, n => if (endReasons d r (n + 1) y.1).isEmpty then y :: keepGo d r ys (n + 1) else [y]

/-- Writes rollout records; held memory holds the commit. -/
def rolloutGo (p : Nat) (r : GenReq) (epoch : Nat) :
    List (Nat × RowOut × Nat) → State → Went State
  | [], s => .on s
  | (i, o, acc) :: ys, s =>
    match s.xwrite (s.helmReq p) (r.rollVa + 16 * (r.sample * r.maxNew + i))
        (rolloutBytes r o acc epoch) with
    | (w, .held) => .wait w
    | (s', _) => rolloutGo p r epoch ys s'

/-- Inserts the prompt blocks that the step completed (R297). -/
def insertBlocks (g : Gen) (r : GenReq) (valid : Nat) : Gen :=
  let n := shareBlocks g.desc r.prompt.length
  let keys := blockKeys g.desc r.prompt n
  (List.range n).foldl (fun g i =>
    if r.valid < (i + 1) * g.desc.tokens ∧ (i + 1) * g.desc.tokens ≤ valid then
      (g.insert r.window i (keys.getD i 0) (if i = 0 then g.desc.salt else keys.getD (i - 1) 0)
        (blockTokens g.desc r.prompt i)).1
    else g) g

/-- Zero acceptance (R317): the request after the step, and whether speculation ends now. -/
def specCount (g : Gen) (r : GenReq) (os : List RowOut) : GenReq × Bool :=
  let guesses := os.filter fun o => o.row.kind == 3
  if guesses.isEmpty then (r, false)
  else if guesses.any (·.accept) then ({ r with zeroRuns := 0 }, false)
  else
    let n := r.zeroRuns + 1
    let lim := if g.desc.specOff = 0 then 64 else g.desc.specOff
    let off := g.desc.specOff != 0xFFFF && decide (lim ≤ n) && !r.specOff
    ({ r with zeroRuns := n, specOff := r.specOff || off }, off)

/-- One request's part of the commit. -/
def State.commitReq (s : State) (p no : Nat) (r : GenReq) (os : List RowOut) : Went State :=
  let g := s.gen p
  let d := g.desc
  if r.cancelled then .on (s.updGen p (·.release r))
  else if os.any nonFinite then
    -- which status of R230 this event carries is left open (log entry 23)
    .on (s.updGen p fun g =>
      (g.push (reqEvent r evFailed (statuses.getD (Config.freePick s.free r.window % statuses.length) 0) 1
        no)).release r).tickFree
  else
    let scored := (os.filter fun o => o.row.target != noTarget).map fun o => (o.row.pos, o, 0)
    let ys := keepGo d r (yieldsOf os) r.count
    let recs := if r.score then scored
      else ys.map fun y => (y.1.row.pos + 1 - r.prompt.length, y.1, y.2)
    match rolloutGo p r g.epoch.toNat recs s with
    | .wait w => .wait w
    | .on s =>
      let count := r.count + recs.length
      let x := specCount g r os
      let prompt := (os.filter fun o => o.row.kind == 0 || o.row.kind == 1).length
      let valid := match ys.getLast? with
        | some y => y.1.row.pos + 1
        | none => r.valid + prompt
      let r' := { x.1 with
        count := count, valid := valid
        last := match ys.getLast? with | some y => some y.1.token | none => r.last
        guesses := match ys.getLast? with
          | some y => y.1.heads.zipIdx.map fun e => (e.2 + 1, e.1)
          | none => r.guesses }
      let why := match ys.getLast? with
        | some y => endReasons d r count y.1
        -- the reason of a scoring request's end is left open (log entry 23)
        | none => if r.score && decide (promptRows r ≤ valid) then [1, 2, 3] else []
      let s := s.updGen p fun g =>
        let g := insertBlocks g r (min valid (promptRows r))
        let g := (g.updReq r.window fun _ => r').join r'
        let g := if r.stream && !ys.isEmpty then g.push (reqEvent r' evTokens 0 0 no) else g
        if x.2 then g.push (reqEvent r' evSpecOff 0 0 no) else g
      let s := if x.2 then s.record { code := 0x4010, unit := s.uPartHelm p, part := some p
                                      arg0 := some r.id.toNat } else s
      .on ((match why[Config.freePick s.free r.window % why.length]? with
        | some w => s.updGen p fun g => (g.push (reqEvent r' evFinished 0 w no)).release r'
        | none => s).tickFree)

/-- Requests of the step in batch-table order, each with its rows' outputs. -/
def stepReqs (g : Gen) (os : List RowOut) : List (GenReq × List RowOut) :=
  ((os.map fun o => o.row.win).eraseDups).filterMap fun w =>
    (g.byWin w).map fun r => (r, os.filter fun o => o.row.win == w)

def commitGo (p no : Nat) : List (GenReq × List RowOut) → State → Went State
  | [], s => .on s
  | (r, os) :: rs, s => match s.commitReq p no r os with
    | .wait w => .wait w
    | .on s => commitGo p no rs s

/-- What happens at a step's end whatever its outcome: requests cancelled in it are released, pauses
take effect, a pending park or disable completes (R324, R325, R328). -/
def State.stepEnd (s : State) (p : Nat) : State :=
  let s := s.updGen p fun g =>
    let g := { g with step := none }
    let g := (g.reqs.filter (·.cancelled)).foldl (fun g r => g.release r) g
    (g.reqs.filter (·.pausing)).foldl (fun g r => g.pause r 1) g
  let s := s.updPart p fun x => { x with gen := { x.gen with
    state := if x.gen.state = 1 ∧ x.gen.park then 2 else x.gen.state } }
  (if (s.gen p).stopping then s.genEnd p else s).genEvents p

/-! Discarding a step (R327). -/

/-- The address lies in a shard of a registered set that the condition picks. -/
def inSets (x : Part) (va : Nat) (f : WeightSet → Bool := fun _ => true) : Bool :=
  (List.range 16).any fun k =>
    let w := x.wset k
    decide (2 ≤ w.state.toNat) && f w && w.entries.any fun e =>
      (List.range e.copies).any fun j => decide (e.dst.getD j 0 ≤ va ∧ va < e.dst.getD j 0 + e.len)

/-- The requests of a failed step, by the failure. -/
def State.discard (s : State) (p : Nat) (st : GenStep) (status va : Nat) : State :=
  let wins := (st.rows.map (·.win)).eraseDups
  let rs := (s.gen p).reqs.filter fun r => wins.contains r.window && !r.cancelled
  let each := fun (g : Gen) (f : Gen → GenReq → Gen) => rs.foldl f g
  let s := s.updGen p fun g =>
    let retry := g.retry
    let g := { g with step := none, discards := g.discards + 1 }
    if status = stPoison ∧ inSets (s.part p) va then
      let g := { (each g fun g r => if r.paused.isNone then g.pause r 4 else g) with retry := false }
      -- a set that is LOST already does not come back (R402)
      if inSets (s.part p) va (·.state == 4) then g.weightLost else g
    else if status = stPoison ∧ 2 ^ 55 ≤ va then
      match g.byWin (fld va 36 19) with
      | some r => if r.cancelled then g else g.fail r stPoison 3
      | none => g
    else if retry then { (each g fun g r => g.fail r status 2) with retry := false }
    else { g with retry := true }
  if (s.gen p).discards ≥ 3 ∧ (s.gen p).state = 1 then
    (s.updPart p fun x => { x with gen := { x.gen with state := 3 } }).eventP 0x4020 (s.uPartHelm p) p
  else s

/-- Every template command has its record: the step commits or is discarded. -/
def execGenStepCommit (p : Fin 16) (s : State) : Ans :=
  .next (
    let g := s.gen p.val
    match g.step with
    | none => s
    | some st =>
      if st.left ≠ 0 || !s.enabled p.val then s
      else if g.stopping then s.stepEnd p.val
      else match st.failed with
        | some f => (s.discard p.val st f.1.toNat f.2.toNat).stepEnd p.val
        | none =>
          match s.outputs p.val st with
          | (w, .held) => s.waking w
          | (s', .fail status m) => (s'.discard p.val st status m.va).stepEnd p.val
          | (s', .ok os) =>
            match commitGo p.val st.no (stepReqs g os) s' with
            | .wait w => s.waking w
            | .on s' => (s'.updPart p.val fun x => { x with gen := { x.gen with
                stepNo := BitVec.ofNat 64 st.no, discards := 0, retry := false } }).stepEnd p.val)

end Sys2Proof.Machine
end

