-- ==== Sys2Proof/Machine/Attend.lean ====
section
/-! DEFINITION. ATTEND, SAMPLE and VERIFY_HEADS (R301, R304 to R315). Readings: log entry 24. -/

namespace Sys2Proof.Machine

/-! The batch table as a command reads it. -/

def rowOf (b : List Byte) : GenRow :=
  let w := bAt b 4 4
  { target := BitVec.ofNat 32 (bAt b 0 4), pos := w % 2 ^ 24, kind := fld w 24 2, head := fld w 26 3
    win := bAt b 8 4 % 2 ^ 19, token := BitVec.ofNat 32 (bAt b 12 4) }

def State.readBatch (s : State) (p va : Nat) : State × XR (List GenRow) :=
  match s.xread (s.helmReq p) va 64 with
  | (s', .held) => (s', .held)
  | (s', .fail st a) => (s', .fail st a)
  | (s', .ok h) =>
    let n := bAt h 8 4
    match s'.xread (s.helmReq p) (va + 64) (16 * n) with
    | (s'', .held) => (s'', .held)
    | (s'', .fail st a) => (s'', .fail st a)
    | (s'', .ok b) => (s'', .ok ((List.range n).map fun i => rowOf ((b.drop (16 * i)).take 16)))

/-- How a command over rows ends: a RESULT, held, the failure of an access, or DEVICE_FAULT with a
DETAIL and a RESULT. -/
inductive RowEnd where
  | ok (n : Nat)
  | held
  | fail (st : Nat) (m : Miss)
  | fault (detail result : Nat)
  deriving DecidableEq, Repr

/-- Ends a command over rows. Once it has begun to write, a failure without ATOMIC leaves its
destinations undefined (R230). -/
def State.endRows (s0 : State) (p : Nat) (c : Cmd) (dst : List (Nat × Nat)) (x : State × RowEnd) :
    State :=
  match x with
  | (w, .held) => s0.waking w
  | (s, .ok n) => s.finish p c (endDone n)
  | (s, .fault d r) => s.finish p c (endWith stDeviceFault d r true)
  | (s, .fail st va) =>
    let s := if staged c then s else dst.foldl (fun s r => s.scramble p r.1 r.2) s
    s.finish p c (endAt st va (staged c))

/-- Bytes as a command sees them: its own staged writes lie over memory (R306). -/
def State.ownRead (s : State) (r : Req) (c : Cmd) (va n : Nat) : State × XR (List Byte) :=
  match s.xread r va n with
  | (s', .ok bs) =>
    let ws := (s'.cmdNow r.part c).staged
    if ws.isEmpty then (s', .ok bs)
    else (s', .ok ((piecesOf va n).flatMap fun pc =>
      (List.range pc.2).map fun i =>
        let old := bs.getD (pc.1 - va + i) 0
        match s'.place r.part r.unit .read pc.1 with
        | .err _ => old
        | .ok h =>
          match ws.reverse.find? fun w => w.1 == hitCode h
              && decide (w.2.1 ≤ h.addr + i ∧ h.addr + i < w.2.1 + w.2.2.length) with
          | some w => w.2.2.getD (h.addr + i - w.2.1) old
          | none => old))
  | r => r

/-! ATTEND. -/

/-- An attention profile (R304). -/
structure Profile where
  hq : Nat
  qFmt : BitVec 16
  pFmt : BitVec 16
  outFmt : Nat
  sigma : Word
  blog : Nat
  bias : Nat
  swin : Nat
  slopeVa : Nat
  deriving DecidableEq, Repr

def profileOf (b : List Byte) : Profile :=
  { hq := bAt b 0 2, qFmt := BitVec.ofNat 16 (bAt b 2 2), pFmt := BitVec.ofNat 16 (bAt b 4 2)
    outFmt := bAt b 6 2, sigma := BitVec.ofNat 32 (bAt b 8 4), blog := bAt b 0x0C 1
    bias := bAt b 0x0D 1, swin := bAt b 0x10 4, slopeVa := bVa b 0x18 }

/-- OUT_FMT: FP32 or BF16 with RND = 0; SCALE_SRC says nothing there (R67, R68). -/
def outFmtBad (w : Nat) : Bool :=
  let f := FmtWord.of (BitVec.ofNat 16 w)
  f.reserved false || decide (1 < f.fmt) || f.rnd != 0

def profileBad (d : GenDesc) (b : List Byte) : Bool :=
  let x := profileOf b
  !bZero b [(0x0E, 2), (0x14, 4), (0x1F, 1), (0x20, 32)]
  || x.hq == 0 || x.hq % d.hkv != 0 || decide (128 < x.hq / d.hkv)
  || !floatFmtOk x.qFmt d.hdim.log2 || (FmtWord.of x.qFmt).rnd == 1
  || !floatFmtOk x.pFmt x.blog || outFmtBad x.outFmt
  || !decide (5 ≤ x.blog ∧ x.blog ≤ 10) || decide (1 < x.bias)

def aLayer (c : Cmd) : Nat := c.f 0x38 16
def aProf (c : Cmd) : Nat := c.f 0x3A 4
def aAppend (c : Cmd) : Bool := c.fb 0x3A 4

/-- The core that computes head group `h`: CORE_FIRST + (h mod CORE_N) (R306). -/
def State.headReq (s : State) (p : Nat) (c : Cmd) (h : Nat) : Req :=
  ⟨p, uCore ((s.coreAt p (atCoreFirst c + h % atCoreN c)).getD 0)⟩

/-- The core of a SAMPLE or VERIFY_HEADS (R51). -/
def State.coreReq (s : State) (p : Nat) (c : Cmd) : Req :=
  ⟨p, uCore ((((cmdCores c).head?).bind (s.coreAt p)).getD 0)⟩

/-- The first row of R307's table: the profile, or why there is none. -/
def State.attendProfile (s : State) (p : Nat) (c : Cmd) : State × (Profile ⊕ RowEnd) :=
  let g := s.gen p
  if !g.active || decide (g.desc.profN ≤ aProf c) || decide (g.desc.layers ≤ aLayer c) then
    (s, .inr (.fault 0x1101 0))
  else match s.xread (s.helmReq p) (g.desc.profVa + 64 * aProf c) 64 with
    | (s', .held) => (s', .inr .held)
    | (s', .fail st va) => (s', .inr (.fail st va))
    | (s', .ok b) => (s', if profileBad g.desc b then .inr (.fault 0x1101 0) else .inl (profileOf b))

/-- The rows of each window are contiguous and ascend by one: the first row that breaks this. -/
def rowsBroken : List GenRow → List GenRow → Option Nat
  | _, [] => none
  | seen, r :: rs =>
    let ok := match seen with
      | [] => true
      | q :: _ => if q.win = r.win then r.pos == q.pos + 1 else !(seen.any fun x => x.win == r.win)
    if ok then rowsBroken (r :: seen) rs else some seen.length

/-- Address of a key or value row in the cache (R292, R293). -/
def cacheVa (d : GenDesc) (layer h pos w : Nat) (value : Bool) : Nat :=
  d.pageVa w layer (d.pageOf pos)
  + (h * d.tokens + pos % d.tokens + b2n value * d.hkv * d.tokens) * d.rowBytes

/-- A row of the cache: its data, then its scale bytes (R291, R292, R306). -/
def cacheBytes (d : GenDesc) (xs : List Word) : List Byte :=
  let f := { FmtWord.of d.kvFmt with scaleSrc := false }
  let bsz := if f.blk = 0 then d.hdim else 2 ^ f.blk
  let blocks := (chunksOf bsz (xs.length + 1) (xs.map fun x => (F32.dec x, 0))).map (convertBlock f 127)
  packBits (fmtBits f.fmt) (blocks.flatMap (·.2)) (fun _ => 0)
  ++ (if f.blk = 0 then [] else blocks.map fun b => BitVec.ofNat 8 b.1)

/-- Elements of a stored row, entering an array (R74). -/
def cacheElems (d : GenDesc) (bs : List Byte) : List FVal :=
  let f := FmtWord.of d.kvFmt
  let n := fmtBits f.fmt
  let data := d.hdim * n / 8
  (unpackBits 0 n d.hdim (bs.take data)).zipIdx.map fun e =>
    arrElem f.fmt e.1 (if f.blk = 0 then 127 else bAt bs (data + e.2 / 2 ^ f.blk) 1)

def words32 (bs : List Byte) : List Word :=
  (List.range (bs.length / 4)).map fun i => BitVec.ofNat 32 (bAt bs (4 * i) 4)

/-- Appends one row's keys and values, head by head. -/
def appendGo (p : Nat) (c : Cmd) (d : GenDesc) (layer : Nat) :
    List (GenRow × Nat × Nat × Bool) → State → State × RowEnd
  | [], s => (s, .ok 0)
  | (r, i, h, value) :: rs, s =>
    match s.xread (s.headReq p c h) (c.va 0x30 + ((2 * i + b2n value) * d.hkv + h) * d.hdim * 4)
        (d.hdim * 4) with
    | (s', .held) => (s', .held)
    | (s', .fail st va) => (s', .fail st va)
    | (s', .ok b) =>
      match s'.cmdWrite p c (s.headReq p c h) (cacheVa d layer h r.pos r.win value)
          (cacheBytes d (words32 b)) with
      | (s'', .held) => (s'', .held)
      | (s'', .fail st va) => (s'', .fail st va)
      | (s'', .ok _) => appendGo p c d layer rs s''

/-- Reads the elements of cache rows in order. -/
def cacheGo (r : Req) (c : Cmd) (d : GenDesc) : List Nat → State → State × XR (List (List FVal))
  | [], s => (s, .ok [])
  | va :: vs, s =>
    match s.ownRead r c va d.rowBytes with
    | (s', .held) => (s', .held)
    | (s', .fail st a) => (s', .fail st a)
    | (s', .ok b) => match cacheGo r c d vs s' with
      | (s'', .ok es) => (s'', .ok (cacheElems d b :: es))
      | e => e

/-- The query's elements. Where its shared scales lie is not stated, so their codes are open: a function
of the query alone, so that the row depends on nothing else (R86; DESIGN CHOICE, log entry 24). -/
def queryElems (d : GenDesc) (fmt : BitVec 16) (bs : List Byte) : List FVal :=
  let f := FmtWord.of fmt
  (unpackBits 0 (fmtBits f.fmt) d.hdim bs).zipIdx.map fun e =>
    arrElem f.fmt e.1 (if f.blk = 0 then 127 else (Config.queryCode bs fmt (e.2 / 2 ^ f.blk)).toNat)

/-- The score of key `j` (R306). -/
def scoreOf (x : Profile) (slope : Word) (pos j : Nat) (q k : List FVal) : Word :=
  let s := fmul (arrayDot q k) x.sigma
  if x.bias = 1 then fadd s (fmul slope (f32OfInt ((j : Int) - pos))) else s

/-- Keys of a row that are not masked: from the sliding window's start to POS. -/
def firstKey (x : Profile) (pos : Nat) : Nat := if x.swin = 0 then 0 else pos + 1 - x.swin

/-- Output of one row and head from its query's bytes, keys and values. ATTEND declares no seed and no
scale address for P: with RND = 1 in P_FMT each key's draw, and with SCALE_SRC = 1 each block's scale
code, is open: a function of the query, the format and the place in the row, so that a row computed
again gives the same bits (R8, R86, R104; DESIGN CHOICE, log entry 24). -/
def attendOut (x : Profile) (d : GenDesc) (slope : Word) (pos : Nat) (qbs : List Byte)
    (ks vs : List (List FVal)) : List Word :=
  let q := queryElems d x.qFmt qbs
  let j0 := firstKey x pos
  let keys := (List.range (pos + 1)).map fun j =>
    if j < j0 then ((none : Option Word), 0, []) else
      (some (scoreOf x slope pos j q (ks.getD (j - j0) [])), (Config.probDraw qbs x.pFmt pos j).toNat
        , vs.getD (j - j0) [])
  (attnRow x.blog d.hdim (FmtWord.of x.pFmt)
    (fun m b => (Config.probCode qbs x.pFmt pos m b).toNat) keys).1

def outBytes (x : Profile) (os : List Word) : List Byte :=
  os.flatMap fun o => if x.outFmt % 16 = 0 then leBytes 4 o.toNat
    else leBytes 2 (convertTo 1 (defaultRnd 1) false (F32.dec o))

/-- One row and head: query, slope, keys, values, output. -/
def State.attendHead (s : State) (p : Nat) (c : Cmd) (x : Profile) (d : GenDesc) (r : GenRow) (i g : Nat) :
    State × RowEnd :=
  let layer := aLayer c
  let h := g * d.hkv / x.hq
  let n := i * x.hq + g
  let qb := d.hdim * fmtBits (FmtWord.of x.qFmt).fmt / 8
  let q := s.headReq p c h
  match s.xread q (c.va 0x18 + n * qb) qb with
  | (s, .held) => (s, .held)
  | (s, .fail st va) => (s, .fail st va)
  | (s, .ok qbs) =>
    match (if x.bias = 1 then s.xread q (x.slopeVa + 4 * g) 4 else (s, .ok [])) with
    | (s, .held) => (s, .held)
    | (s, .fail st va) => (s, .fail st va)
    | (s, .ok sb) =>
      let js := (List.range (r.pos + 1)).drop (firstKey x r.pos)
      match cacheGo q c d (js.map fun j => cacheVa d layer h j r.win false) s with
      | (s, .held) => (s, .held)
      | (s, .fail st va) => (s, .fail st va)
      | (s, .ok ks) =>
        match cacheGo q c d (js.map fun j => cacheVa d layer h j r.win true) s with
        | (s, .held) => (s, .held)
        | (s, .fail st va) => (s, .fail st va)
        | (s, .ok vs) =>
          let out := outBytes x (attendOut x d (BitVec.ofNat 32 (bAt sb 0 4)) r.pos qbs ks vs)
          match s.cmdWrite p c q (c.va 0x20 + n * out.length) out with
          | (s, .held) => (s, .held)
          | (s, .fail st va) => (s, .fail st va)
          | (s, .ok _) => (s, .ok 0)

def attendGo (p : Nat) (c : Cmd) (x : Profile) (d : GenDesc) :
    List (GenRow × Nat × Nat) → State → State × RowEnd
  | [], s => (s, .ok 0)
  | (r, i, g) :: rs, s =>
    match s.attendHead p c x d r i g with
    | (s', .ok _) => attendGo p c x d rs s'
    | e => e

def outSize (x : Profile) : Nat := if x.outFmt % 16 = 0 then 4 else 2

/-- Appended rows as ranges. -/
def appendRanges (d : GenDesc) (layer : Nat) (rows : List GenRow) : List (Nat × Nat) :=
  rows.flatMap fun r => (List.range d.hkv).flatMap fun h =>
    [(cacheVa d layer h r.pos r.win false, d.rowBytes), (cacheVa d layer h r.pos r.win true, d.rowBytes)]

def State.runAttend (s : State) (p : Nat) (c : Cmd) : State :=
  match s.attendProfile p c with
  | (s1, .inr e) => s.endRows p c [] (s1, e)
  | (s1, .inl x) =>
    let d := (s.gen p).desc
    match s1.readBatch p (c.va 0x28) with
    | (s2, .held) => s.endRows p c [] (s2, .held)
    | (s2, .fail st va) => s.endRows p c [] (s2, .fail st va)
    | (s2, .ok rows) =>
      match rowsBroken [] rows, rows.findIdx? fun r => decide (d.posMax < r.pos) with
      | some i, _ => s.endRows p c [] (s2, .fault 0x1102 i)
      | none, some i => s.endRows p c [] (s2, .fault 0x1103 i)
      | none, none =>
        let n := rows.length
        let idx := rows.zipIdx
        let adds := if aAppend c then
            idx.flatMap fun e => [false, true].flatMap fun v => (List.range d.hkv).map fun h => (e.1, e.2, h, v)
          else []
        let dst := (c.va 0x20, n * x.hq * d.hdim * outSize x) ::
          (if aAppend c then appendRanges d (aLayer c) rows else [])
        match appendGo p c d (aLayer c) adds s2 with
        | (s3, .ok _) =>
          match attendGo p c x d (idx.flatMap fun e => (List.range x.hq).map fun g => (e.1, e.2, g)) s3 with
          | (s4, .ok _) => s.endRows p c dst (s4, .ok n)
          | e => s.endRows p c dst e
        | e => s.endRows p c dst e

def execAttend (p : Fin 16) (q : Fin 64) (slot : BitVec 16) (s : State) : Ans :=
  s.onCmd p q slot (·.op == opAttend) fun c => s.runAttend p.val c

/-! SAMPLE. -/

def saV (c : Cmd) : Nat := c.f 0x38 32
def saHead (c : Cmd) : Nat := c.f 0x3C 8

/-- A logit that makes the record 0xFFFF_FFFE (R311). -/
def badLogit (z : Word) : Bool := fnan z || z == F32.posInf

/-- Lowest index holding the largest value. -/
def argMax (zs : List Word) : Nat :=
  let m := F32.dec (maxOf zs)
  (zs.findIdx? fun z => FVal.eqv (F32.dec z) m).getD 0

/-- Insertion by descending value; an equal one already there stays ahead. -/
def insDesc (x : Nat × Word) : List (Nat × Word) → List (Nat × Word)
  | [] => [x]
  | y :: ys => if FVal.lt (F32.dec y.2) (F32.dec x.2) then x :: y :: ys else y :: insDesc x ys

def descOrder (zs : List Word) : List (Nat × Word) :=
  zs.zipIdx.foldl (fun l e => insDesc (e.2, e.1) l) []

/-- Running sums, each addition rounded. -/
def runSums : Word → List Word → List Word
  | _, [] => []
  | a, e :: es => let c := fadd a e; c :: runSums c es

/-- Values along `keep`, up to and with the first whose running sum reaches the share. -/
def cutAt (lim : Word) : List (Nat × Word) → List (Nat × Word)
  | [] => []
  | x :: xs => if FVal.lt (F32.dec x.2) (F32.dec lim) || fnan x.2 || fnan lim then x :: cutAt lim xs
      else [x]

/-- The sampling entry of a window (R308). -/
structure SParam where
  seed : Dword
  id : Nat
  tinv : Word
  topP : Word
  topK : Nat
  deriving DecidableEq, Repr

def sparamOf (b : List Byte) : SParam :=
  { seed := BitVec.ofNat 64 (bAt b 0 8), id := bAt b 8 4, tinv := BitVec.ofNat 32 (bAt b 12 4)
    topP := BitVec.ofNat 32 (bAt b 16 4), topK := bAt b 20 4 }

def tinvZero (x : SParam) : Bool := fzero x.tinv

/-- The temperature applied. -/
def heated (x : SParam) (zs : List Word) : List Word :=
  if tinvZero x then zs else zs.map fun z => fmul z x.tinv

/-- The choice of R311 without a target. -/
def chooseToken (x : SParam) (pos : Nat) (zs es : List Word) : Nat :=
  if tinvZero x then argMax zs
  else
    let order := descOrder zs
    let keep := if x.topK = 0 ∨ zs.length ≤ x.topK then order else order.take x.topK
    let cs := (keep.map (·.1)).zip (runSums 0 (keep.map fun k => es.getD k.1 0))
    let last := fun (l : List (Nat × Word)) => (l.getLast?.map (·.2)).getD 0
    let p := F32.dec x.topP
    let cs := if FVal.lt (.fin false 0 0) p && FVal.lt p (.fin false 1 0) then
        cutAt (fmul x.topP (last cs)) cs else cs
    let u := philox x.seed (pos + x.id * 2 ^ 32) 0 2
    let t := fmul (F32.rnd (.fin false (u / 256) (-24))) (last cs)
    match cs.find? fun k => FVal.lt (F32.dec t) (F32.dec k.2) with
    | some k => k.1
    | none => (cs.getLast?.map (·.1)).getD 0

/-- Token, logprob and entropy of a main-head row (R311); a target beyond the vocabulary has a free
logprob. -/
def sampleMain (free : Nat) (x : SParam) (r : GenRow) (zs : List Word) : Word × Word × Word :=
  if zs.any badLogit then (noToken, F32.nan, F32.nan)
  else
    let z := heated x zs
    let m := maxOf z
    let es := z.map (lpTerm m)
    let sm := pairTree es
    let tok := if r.target != noTarget then r.target.toNat else chooseToken x (r.pos + 1) z es
    let lp := match z[tok]? with
      | some zt => lpLast zt m sm
      | none => BitVec.ofNat 32 (Config.freePick free tok)
    let ts := (z.zip es).map fun e => if e.2 = 0 then 0 else fmul e.2 (fsub e.1 m)
    (BitVec.ofNat 32 tok, lp,
      fsub (fmul (vlog2 sm) ln2) (fmul (pairTree ts) (vrcp sm)))

/-- Token of an extra head (R312). -/
def sampleExtra (zs : List Word) : Word :=
  if zs.any badLogit then noToken else BitVec.ofNat 32 (argMax zs)

def sampleRecord (t lp ent : Word) : List Byte :=
  leBytes 4 t.toNat ++ leBytes 4 lp.toNat ++ leBytes 4 ent.toNat ++ leBytes 4 0

/-- A record is written for the row (R311, R312). -/
def sampleRow (head : Nat) (r : GenRow) : Bool :=
  r.kind != 0 || (head == 0 && r.target != noTarget)

def sampleGo (p : Nat) (c : Cmd) : List (GenRow × Nat) → Nat → State → State × RowEnd
  | [], n, s => (s, .ok n)
  | (r, i) :: rs, n, s =>
    if !sampleRow (saHead c) r then sampleGo p c rs n s
    else
      match s.xread (s.coreReq p c) (c.va 0x18 + i * saV c * 4) (saV c * 4) with
      | (s, .held) => (s, .held)
      | (s, .fail st va) => (s, .fail st va)
      | (s, .ok zb) =>
        match (if saHead c = 0 then s.xread (s.coreReq p c) (c.va 0x30 + 32 * r.win) 32 else (s, .ok [])) with
        | (s, .held) => (s, .held)
        | (s, .fail st va) => (s, .fail st va)
        | (s, .ok pb) =>
          let zs := words32 zb
          let rec_ := if saHead c = 0 then
              let o := sampleMain s.free (sparamOf pb) r zs
              sampleRecord o.1 o.2.1 o.2.2
            else sampleRecord (sampleExtra zs) 0 0
          match s.cmdWrite p c (s.coreReq p c) (c.va 0x28 + 16 * i) rec_ with
          | (s, .held) => (s, .held)
          | (s, .fail st va) => (s, .fail st va)
          | (s, .ok _) => sampleGo p c rs (n + 1) s

def State.runSample (s : State) (p : Nat) (c : Cmd) : State :=
  if 4 < saHead c ∨ saV c < 2 ∨ 1048576 < saV c then s.endRows p c [] (s, .fault 0x1104 0)
  else match s.readBatch p (c.va 0x20) with
    | (s', .held) => s.endRows p c [] (s', .held)
    | (s', .fail st va) => s.endRows p c [] (s', .fail st va)
    | (s', .ok rows) =>
      let x := sampleGo p c rows.zipIdx 0 s'
      let dst := (rows.zipIdx.filter fun e => sampleRow (saHead c) e.1).map fun e => (c.va 0x28 + 16 * e.2, 16)
      s.endRows p c dst (x.1.tickFree, x.2)

def execSample (p : Fin 16) (q : Fin 64) (slot : BitVec 16) (s : State) : Ans :=
  s.onCmd p q slot (·.op == opSample) fun c => s.runSample p.val c

/-! VERIFY_HEADS (R315). -/

/-- Verdicts of rows in order: (ACCEPT, YIELD), from each row and its main token; `prev` is the row
before with its main token and YIELD. -/
def verdictsGo : Option (GenRow × Word × Bool) → List (GenRow × Word) → List (Bool × Bool)
  | _, [] => []
  | prev, (r, t) :: rs =>
    let v := if r.kind = 1 ∨ r.kind = 2 then (false, true)
      else if r.kind = 3 then
        let a := match prev with
          | some (q, qt, y) => q.win == r.win && y && qt == r.token
          | none => false
        (a, a)
      else (false, false)
    v :: verdictsGo (some (r, t, v.2)) rs

def verdictGo (p : Nat) (c : Cmd) : List ((Bool × Bool) × Nat) → State → State × RowEnd
  | [], s => (s, .ok 0)
  | (v, i) :: vs, s =>
    match s.cmdWrite p c (s.coreReq p c) (c.va 0x28 + 4 * i) (leBytes 4 (b2n v.1 + 2 * b2n v.2)) with
    | (s, .held) => (s, .held)
    | (s, .fail st va) => (s, .fail st va)
    | (s, .ok _) => verdictGo p c vs s

/-- The main tokens of the rows whose record a guess is held against; other slots are not read. -/
def tokensGo (p : Nat) (c : Cmd) : List (GenRow × Nat) → State → State × XR (List Word)
  | [], s => (s, .ok [])
  | (r, i) :: rs, s =>
    match (if r.kind = 0 then (s, XR.ok [(0 : Byte)])
        else s.xread (s.coreReq p c) (c.va 0x20 + 16 * i) 4) with
    | (s', .held) => (s', .held)
    | (s', .fail st a) => (s', .fail st a)
    | (s', .ok b) => match tokensGo p c rs s' with
      | (s'', .ok ts) => (s'', .ok (BitVec.ofNat 32 (bAt b 0 4) :: ts))
      | r => r

def State.runVerify (s : State) (p : Nat) (c : Cmd) : State :=
  match s.readBatch p (c.va 0x18) with
  | (s', .held) => s.endRows p c [] (s', .held)
  | (s', .fail st va) => s.endRows p c [] (s', .fail st va)
  | (s1, .ok rows) =>
    match tokensGo p c rows.zipIdx s1 with
    | (s2, .held) => s.endRows p c [] (s2, .held)
    | (s2, .fail st va) => s.endRows p c [] (s2, .fail st va)
    | (s2, .ok ts) =>
      let vs := verdictsGo none (rows.zip ts)
      match verdictGo p c vs.zipIdx s2 with
      | (s3, .ok _) => s.endRows p c [] (s3, .ok (vs.filter (·.2)).length)
      | e => s.endRows p c [(c.va 0x28, 4 * rows.length)] e

def execVerifyHeads (p : Fin 16) (q : Fin 64) (slot : BitVec 16) (s : State) : Ans :=
  s.onCmd p q slot (·.op == opVerify) fun c => s.runVerify p.val c

end Sys2Proof.Machine
end

