-- ==== Sys2Proof/Machine/Loom.lean ====
section
/-! DEFINITION. LOOM_MOVE (R374 to R382): the elements a member needs, their reading with the rules for
poisoned sources, the conversion of a destination part (R375) and its writing. -/

namespace Sys2Proof.Machine

/-! Tiles (R51). -/

/-- Ports and controllers behind the granules of a range, as unit ids. -/
def State.homes (s : State) (p va n : Nat) : List Nat :=
  match s.pages p va n with
  | .err _ => []
  | .ok gs => (gs.flatMap fun g =>
      let t := tierOf (leafTier g.leaf)
      let lo := max va g.va / 4096
      let hi := (min (va + n) (g.va + leafSize g.leaf) - 1) / 4096
      -- the ports of a tile change from granule to granule, eight in turn (R158)
      (List.range (min 8 (hi - lo + 1))).filterMap fun i =>
        let a := leafFrame g.leaf + ((lo + i) * 4096 - g.va)
        match t with
        | .bd => some (uBdp (bdPortOf a))
        | .lp => some (uLpc (lpCtrlOf a))
        | .host => none).eraseDups

/-- Tile of a port or controller. -/
def tileOfHome (u : Nat) : Nat := if u < 0x7000 then (u - 0x6000) / 8 else (u - 0x7000) / 2

/-- Tiles whose memory holds ranges of a partition. -/
def State.rangeTiles (s : State) (p : Nat) (rs : List (Nat × Nat)) : List Nat :=
  (rs.flatMap fun r => (s.homes p r.1 r.2).map tileOfHome).eraseDups

/-! Conversion. -/

/-- The FP32 value that the conversion of an element starts from (R88, R375). -/
def layoutWord (x : Layout) (bits code : Nat) : Word :=
  if x.split then BitVec.ofNat 32 bits else F32.rnd (widen x.f.fmt bits code)

/-- Cells of block (u, v) of a part. -/
def layoutCells (x : Layout) (u v : Nat) : List (Nat × Nat) :=
  let b := x.block
  (List.range b.1).flatMap fun di => (List.range b.2).filterMap fun dj =>
    let i := u * b.1 + di
    let j := v * b.2 + dj
    if i < x.partRows ∧ j < x.partCols then some (i, j) else none

def layoutBlocks (x : Layout) : List (Nat × Nat) :=
  let b := x.block
  (List.range (ceilDiv x.partRows b.1)).flatMap fun u =>
    (List.range (ceilDiv x.partCols b.2)).map fun v => (u, v)

/-- Global cells of a block of a part. -/
def globalCells (x : Layout) (part : Nat) (uv : Nat × Nat) : List (Nat × Nat) :=
  (layoutCells x uv.1 uv.2).map fun q => (x.row0 part + q.1, x.col0 part + q.2)

/-- The cells of a destination block lie within one source part (R376). -/
def oneSource (a : Layout) (cells : List (Nat × Nat)) : Bool :=
  let ps := cells.map fun q => a.partAt q.1 q.2
  ps.all (· == ps.headD 0)

/-- What the source elements of one destination block become: bits and scale code of each (R375). -/
def convertCells (a b : Layout) (xs : List ((Nat × Nat) × Nat × Nat)) : List (Nat × Nat) :=
  if b.split then xs.map fun x => ((layoutWord a x.2.1 x.2.2).toNat, 127)
  else
    let y := convertBlock { b.f with scaleSrc := false } 127 (xs.map fun x =>
      (F32.dec (layoutWord a x.2.1 x.2.2), convDraw b.seed b.tensor (x.1.1 * b.cols + x.1.2)))
    y.2.map fun e => (e, y.1)

/-- What the destination part of a rank reads, in units (R376, R377). -/
def moveUnits (a b : Layout) (n rank : Nat) : List MoveUnit :=
  (layoutBlocks b).flatMap fun uv =>
    let cells := globalCells b (b.partOf n rank) uv
    if !sameForm a b && oneSource a cells then
      [⟨true, (cells.map fun q => a.partAt q.1 q.2).headD 0, cells⟩]
    else cells.map fun q => ⟨false, a.partAt q.1 q.2, [q]⟩

/-- What a destination part receives: element bits by row and column, and the scale byte of each
block. -/
structure PartData where
  bits : Nat → Nat → Nat
  codes : List ((Nat × Nat) × Nat)

/-- `src i j` gives element [i][j] of the global tensor as its unit was delivered. -/
def movedPart (a b : Layout) (part : Nat) (src : Nat → Nat → Nat × Nat) : PartData :=
  let out := fun uv =>
    let xs := (globalCells b part uv).map fun q => (q, src q.1 q.2)
    if sameForm a b || oneSource a (xs.map (·.1)) then xs.map (·.2) else convertCells a b xs
  { bits := fun i j =>
      let uv := (i / b.block.1, j / b.block.2)
      ((out uv).getD ((layoutCells b uv.1 uv.2).idxOf (i, j)) (0, 127)).1
    codes := if b.scaled then (layoutBlocks b).map fun uv => (uv, ((out uv).headD (0, 127)).2) else [] }

/-- The writes of a part: address and bytes. Bits past the last element of a row do not arise
(R373). -/
def partWrites (b : Layout) (d : PartData) : List (Nat × List Byte) :=
  let row := fun (base i lo n : Nat) =>
    ((b.rowRange base i 0 b.partCols).1,
      packBits n ((List.range b.partCols).map fun j => d.bits i j / 2 ^ lo % 2 ^ n) fun _ => 0)
  let rows := (List.range b.partRows).map fun i =>
    if b.split then row b.base i 16 16 else row b.base i 0 b.ebits
  let res := if b.split then (List.range b.partRows).map fun i => row b.res i 0 16 else []
  let scales := d.codes.map fun e =>
    (b.scale + e.1.1 * b.spitch + e.1.2, [(BitVec.ofNat 8 e.2 : Byte)])
  rows ++ res ++ scales

def writesBytes (ws : List (Nat × List Byte)) : Nat := (ws.map fun w => w.2.length).sum

/-! Writing. -/

/-- A Loom's write: its tile's byte counter moves with what is written (R383). -/
def State.loomWrite (s : State) (p va : Nat) (bs : List Byte) : State × XR Unit :=
  let count := fun (s' : State) (lim : Nat) =>
    (piecesOf va bs.length).foldl (fun s' pc =>
      if lim ≤ pc.1 then s'
      else match s.place p (s.loomFor p va) .write pc.1 with
        | .ok h => s'.loomWrote (tileOfFrame h.tier h.addr) pc.2
        | .err _ => s') s'
  match s.xwrite ⟨p, s.loomFor p va⟩ va bs with
  | (s', .ok u) => (count s' (va + bs.length), .ok u)
  | (s', .fail st m) => (count s' (m.va / 64 * 64), .fail st m)
  | r => r

/-- Writes several runs in order. -/
def loomWrites (p : Nat) : List (Nat × List Byte) → State → State × XR Unit
  | [], s => (s, .ok ())
  | w :: ws, s =>
    match s.loomWrite p w.1 w.2 with
    | (s', .ok _) => loomWrites p ws s'
    | r => r

/-! Reading one source element of this member's own part. -/

def State.bitsOf (s : State) (p : Nat) (x : Layout) (base i j : Nat) : State × XR Nat :=
  let r := x.rowRange base i j 1
  match s.xread ⟨p, s.loomFor p r.1⟩ r.1 r.2 with
  | (s', .ok bs) => (s', .ok ((unpackBits (j * x.ebits % 8) x.ebits 1 bs).getD 0 0))
  | (s', .held) => (s', .held)
  | (s', .fail st va) => (s', .fail st va)

/-- Element [i][j] of the part: its bits and its scale code. -/
def State.layoutElem (s : State) (p : Nat) (x : Layout) (i j : Nat) : State × XR (Nat × Nat) :=
  match s.bitsOf p x x.base i j with
  | (s1, .held) => (s1, .held)
  | (s1, .fail st va) => (s1, .fail st va)
  | (s1, .ok b) =>
    if x.split then
      match s1.bitsOf p x x.res i j with
      | (s2, .ok lo) => (s2, .ok (b * 65536 + lo, 127))
      | (s2, .held) => (s2, .held)
      | (s2, .fail st va) => (s2, .fail st va)
    else if x.scaled then
      match s1.xread ⟨p, s1.loomFor p (x.scaleAt i j)⟩ (x.scaleAt i j) 1 with
      | (s2, .ok bs) => (s2, .ok (b, leNat bs))
      | (s2, .held) => (s2, .held)
      | (s2, .fail st va) => (s2, .fail st va)
    else (s1, .ok (b, 127))

def unitGo (p : Nat) (a : Layout) (part : Nat) : List (Nat × Nat) → State → List ((Nat × Nat) × Nat × Nat) →
    State × XR (List ((Nat × Nat) × Nat × Nat))
  | [], s, acc => (s, .ok acc)
  | q :: qs, s, acc =>
    match s.layoutElem p a (q.1 - a.row0 part) (q.2 - a.col0 part) with
    | (s', .ok v) => unitGo p a part qs s' (acc ++ [(q, v)])
    | (s', .held) => (s', .held)
    | (s', .fail st m) => (s', .fail st m)

/-- A unit of the own source part as its holder delivers it: global index, bits and scale code of each
element. -/
def State.readUnit (s : State) (p : Nat) (a b : Layout) (u : MoveUnit) :
    State × XR (List (Nat × Nat × Nat)) :=
  match unitGo p a u.part u.cells s [] with
  | (s', .ok xs) =>
    let vs := if u.conv then convertCells a b xs else xs.map (·.2)
    (s', .ok (List.zipWith (fun q v => (q.1 * a.cols + q.2, v)) u.cells vs))
  | (s', .held) => (s', .held)
  | (s', .fail st m) => (s', .fail st m)

/-! What a member has. -/

/-- Ranks of the member and of its group: alone with LOCAL. -/
def State.loomRank (s : State) (c : Cmd) : Nat × Nat :=
  if loomLocal c then (0, 1) else ((s.group (colGroup c)).rank, (s.group (colGroup c)).n)

def tensorGot (l : LoomRun) (t : Nat) : SMap (Nat × Nat) := SMap.get [] l.got t

/-- Received elements are kept as bits and 1 + scale code, so that an unlisted one is absent. -/
def elemGot (l : LoomRun) (t k : Nat) : Option (Nat × Nat) :=
  match SMap.get (0, 0) (tensorGot l t) k with
  | (_, 0) => none
  | (b, c + 1) => some (b, c)

def loomTake (t k : Nat) (v : Nat × Nat) (l : LoomRun) : LoomRun :=
  { l with got := SMap.set [] l.got t (SMap.set (0, 0) (tensorGot l t) k (v.1, v.2 + 1)) }

def unitKey (a : Layout) (u : MoveUnit) : Nat := match u.cells with
  | q :: _ => q.1 * a.cols + q.2
  | [] => 0

def unitGot (l : LoomRun) (t : Nat) (a : Layout) (u : MoveUnit) : Bool :=
  u.cells.all fun q => (elemGot l t (q.1 * a.cols + q.2)).isSome

/-! Holders (R377). -/

/-- The place of holder `r` in the order in which `dest` prefers holders: its own copy, then the fewest
hops, then the lowest rank. -/
def State.holderKey (s : State) (g dest r : Nat) : Nat :=
  if r = dest then 0
  else match (s.group g).members[dest]?, (s.group g).members[r]? with
    | some x, some y => (s.hopsTo y.coord.toNat x.coord.toNat + 1) * 256 + r
    | _, _ => 2 ^ 32 + r

/-- The holder of a part that `dest` prefers, of those that come after `last`. -/
def State.nextHolder (s : State) (g n : Nat) (a : Layout) (part dest : Nat) (last : Option Nat) :
    Option Nat :=
  let key := s.holderKey g dest
  let hs := (List.range n).filter fun r =>
    a.partOf n r == part && last.all fun x => decide (key x < key r)
  hs.foldl (fun (b : Option Nat) r => match b with
    | some x => if key r < key x then some r else b
    | none => some r) none

/-- The units that the other ranks read from this member first. -/
def State.loomOwes (s : State) (c : Cmd) (l : LoomRun) : List (Nat × Nat × MoveUnit) :=
  let r := s.loomRank c
  l.tensors.zipIdx.flatMap fun e => (List.range r.2).flatMap fun dest =>
    if dest = r.1 ∨ s.nextHolder (colGroup c) r.2 e.1.1 (e.1.1.partOf r.2 r.1) dest none ≠ some r.1 then []
    else ((moveUnits e.1.1 e.1.2 r.2 dest).filter fun u => u.part == e.1.1.partOf r.2 r.1).map fun u =>
      (e.2, dest, u)

/-! Poison (R382). -/

/-- A weight set of the partition that holds a VA: its state. -/
def State.setStateAt (s : State) (p va : Nat) : Option Nat :=
  (List.range 16).findSome? fun k =>
    let w := (s.part p).wset k
    if w.entries.any fun e => (e.dst.take e.copies).any fun d => decide (d ≤ va ∧ va < d + e.len) then
      some w.state.toNat
    else none

inductive LoomStop where
  | none
  /-- Another holder, of this rank, is to be read. -/
  | ask (rank : Nat)
  | wait
  | miss (st : Nat) (m : Miss)
  | fail (st detail : Nat) (result : Option Nat)

/-- What a failed read of a unit for rank `dest` means. -/
def State.loomPoison (s : State) (p : Nat) (c : Cmd) (a : Layout) (dest st : Nat) (m : Miss) : LoomStop :=
  let r := s.loomRank c
  if st ≠ stPoison then .miss st m
  else match s.nextHolder (colGroup c) r.2 a (a.partOf r.2 r.1) dest (some r.1) with
    | some h => .ask h
    | none => match s.setStateAt p m.va with
      | some 2 | some 3 => .wait
      | some 4 => .fail stWeightLost 0x1320 none
      | _ => .miss st m

/-- Asks the holder `h` to send rank `dest` a unit. -/
def State.askUnit (s : State) (c : Cmd) (t h dest key : Nat) : State :=
  s.sendTo (colGroup c) h msgChunk
    (s.groupKey c ++ [1] ++ leBytes 4 t ++ leBytes 1 dest ++ leBytes 8 key)

/-- Reads the units of one tensor that this member holds itself and still lacks. -/
def ownGo (p : Nat) (c : Cmd) (t : Nat) (a b : Layout) :
    List MoveUnit → State → LoomRun → State × LoomRun × LoomStop
  | [], s, l => (s, l, .none)
  | u :: us, s, l =>
    let r := s.loomRank c
    if u.part ≠ a.partOf r.2 r.1 ∨ unitGot l t a u ∨ l.asked.contains (t, unitKey a u) then
      ownGo p c t a b us s l
    else match s.readUnit p a b u with
      | (s', .ok vs) => ownGo p c t a b us s' (vs.foldl (fun l v => loomTake t v.1 v.2 l) l)
      | (w, .held) => ownGo p c t a b us (s.waking w) l
      | (s', .fail st m) => match s'.loomPoison p c a r.1 st m with
        | .ask h => ownGo p c t a b us (s'.askUnit c t h r.1 (unitKey a u))
            { l with asked := l.asked ++ [(t, unitKey a u)] }
        | .wait => ownGo p c t a b us s' { l with waits := true }
        | e => (s', l, e)

def loomRead (p : Nat) (c : Cmd) : List ((Layout × Layout) × Nat) → State → LoomRun →
    State × LoomRun × LoomStop
  | [], s, l => (s, l, .none)
  | (ab, t) :: ts, s, l =>
    let r := s.loomRank c
    match ownGo p c t ab.1 ab.2 (moveUnits ab.1 ab.2 r.2 r.1) s l with
    | (s', l', .none) => loomRead p c ts s' l'
    | x => x

/-- Elements for a rank join those of the same tensor and rank. -/
def joinOut (t dest : Nat) (vs : List (Nat × Nat × Nat)) :
    List (Nat × Nat × List (Nat × Nat × Nat)) → List (Nat × Nat × List (Nat × Nat × Nat))
  | [] => [(t, dest, vs)]
  | e :: es => if e.1 = t ∧ e.2.1 = dest then (t, dest, e.2.2 ++ vs) :: es else e :: joinOut t dest vs es

/-- Reads what other ranks are to get; what cannot be read yet stays owed. -/
def serveGo (p : Nat) (c : Cmd) : List (Nat × Nat × MoveUnit) → State → LoomRun →
    List (Nat × Nat × List (Nat × Nat × Nat)) →
    State × LoomRun × List (Nat × Nat × List (Nat × Nat × Nat)) × LoomStop
  | [], s, l, out => (s, l, out, .none)
  | e :: es, s, l, out =>
    match l.tensors[e.1]? with
    | none => serveGo p c es s l out
    | some (a, b) => match s.readUnit p a b e.2.2 with
      | (s', .ok vs) => serveGo p c es s' l (joinOut e.1 e.2.1 vs out)
      | (w, .held) => serveGo p c es (s.waking w) { l with owed := l.owed ++ [e] } out
      | (s', .fail st m) => match s'.loomPoison p c a e.2.1 st m with
        | .ask h => serveGo p c es (s'.askUnit c e.1 h e.2.1 (unitKey a e.2.2)) l out
        | .wait => serveGo p c es s' { l with owed := l.owed ++ [e], waits := true } out
        | x => (s', l, out, x)

/-- A data message of a LOOM_MOVE: tensor, and index, bits and code of each element. -/
def State.sendElems (s : State) (c : Cmd) (e : Nat × Nat × List (Nat × Nat × Nat)) : State :=
  s.sendTo (colGroup c) e.2.1 msgChunk (s.groupKey c ++ [0] ++ leBytes 4 e.1
    ++ e.2.2.flatMap fun v => leBytes 8 v.1 ++ leBytes 4 v.2.1 ++ leBytes 1 v.2.2)

/-- Every needed element of every tensor is there. -/
def loomComplete (l : LoomRun) (n rank : Nat) : Bool :=
  l.tensors.zipIdx.all fun e => (moveUnits e.1.1 e.1.2 n rank).all (unitGot l e.2 e.1.1)

/-- All writes of this member's destinations. Every rank holds a part (R371), so there are some. -/
def loomOutput (l : LoomRun) (n rank : Nat) : List (Nat × List Byte) :=
  l.tensors.zipIdx.flatMap fun e =>
    let b := e.1.2
    partWrites b (movedPart e.1.1 b (b.partOf n rank) fun i j =>
      (elemGot l e.2 (i * b.cols + j)).getD (0, 127))

/-- The end of a LOOM_MOVE on a member: at once, or when the others have got what it still owes them
(R381). -/
def State.loomDone (s : State) (p : Nat) (c : Cmd) (l : LoomRun) (bytes : Nat) : State :=
  if l.owed.isEmpty then s.finish p c (endDone bytes)
  else s.updCmd p c (Cmd.updColl fun k => { k with committed := some bytes })

/-- Writes the destinations once every element is there (R381); a member that waits for a recovery sends
keep-alives (R382). -/
def State.loomWriteAll (s : State) (p : Nat) (c : Cmd) (l : LoomRun) : State :=
  let r := s.loomRank c
  match l.coll.committed with
  | some n => s.loomDone p c l n
  | none =>
    if loomComplete l r.2 r.1 then
      let ws := loomOutput l r.2 r.1
      match loomWrites p ws s with
      | (w, .held) => s.waking w
      | (s', .fail st m) => s'.missGroup p c st m (!loomLocal c)
      | (s', .ok _) => s'.loomDone p c l (writesBytes ws)
    else if l.waits && !loomLocal c then s.sendOthers (colGroup c) msgKeepAlive (s.groupKey c)
    else s

/-- Goes on with a LOOM_MOVE in its data phase as far as it can (R377, R381, R382, R406). -/
def State.loomStep (s : State) (p : Nat) (c : Cmd) : State :=
  match (s.cmdNow p c).prog with
  | .loom l =>
    if l.coll.phase != .data || s.loomYields p c then s
    else
      let s := s.loomsAct p (s.cmdNow p c)
      let x := serveGo p c l.owed s { l with owed := [], waits := false } []
      let s := x.2.2.1.foldl (fun s e => s.sendElems c e) x.1
      let y := match x.2.2.2 with
        | .none => loomRead p c l.tensors.zipIdx s x.2.1
        | e => (s, x.2.1, e)
      match y with
      | (s, _, .miss st m) => s.missGroup p c st m (!loomLocal c)
      | (s, _, .fail st detail result) => s.endGroup p c st detail result (!loomLocal c)
      | (s, l, _) => (s.updCmd p c fun y => { y with prog := .loom l }).loomWriteAll p c l
  | _ => s

/-! Descriptors. -/

/-- Checks of R373, R374 and R378 for one tensor. -/
def tensorBad (n : Nat) (local_ : Bool) (sb db : List Byte) : Bool :=
  let a := layoutOf sb
  let b := layoutOf db
  layoutBad sb true false || layoutBad db false (!sameForm a b)
  || a.rows != b.rows || a.cols != b.cols
  || n % a.parts != 0 || n % b.parts != 0
  || (local_ && (a.parts != 1 || b.parts != 1))

/-- A range as far as it translates, without the lines behind it (R283, R379): the failing status and
VA. -/
def rangeGo (r : Req) (acc : Access) : List (Nat × Nat) → State → State × Option (Nat × Miss)
  | [], s => (s, none)
  | (va, _) :: ps, s =>
    let x := s.senseLeaf r.part r.unit va
    match x.1.placeAt acc va x.2.1 with
    | .err (.status st ev) =>
      ((if ev then x.1.eventP 0x1011 r.unit r.part else x.1).found x.2.2.1,
        some (st, ⟨va, r.unit, if ev then some x.1.seqNext else x.2.2.2⟩))
    | _ => rangeGo r acc ps (x.1.found x.2.2.1)

/-- One address in each 4 KiB page of [va, va + n). -/
def pageStarts (va n : Nat) : List (Nat × Nat) :=
  if n = 0 then []
  else (va, 1) :: (List.range ((va + n - 1) / 4096 - va / 4096)).map fun i =>
    ((va / 4096 + 1 + i) * 4096, 1)

def State.rangeCheck (s : State) (r : Req) (acc : Access) (rs : List (Nat × Nat)) :
    State × Option (Nat × Miss) :=
  rangeGo r acc (rs.flatMap fun x => pageStarts x.1 x.2) s

/-- What the start of a LOOM_MOVE found. -/
inductive LoomStart where
  | held
  | miss (st : Nat) (m : Miss)
  | fail (st detail result : Nat) (tell : Bool)
  | ok (tensors : List (Layout × Layout)) (hashed : List Byte)

/-- Reads and checks the descriptors and ranges (R379). -/
def State.loomOpen (s : State) (p : Nat) (c : Cmd) : State × LoomStart :=
  let r := s.loomRank c
  let n := loomN c
  let q : Req := ⟨p, s.loomFor p (c.va 0x18)⟩
  match s.xread q (c.va 0x18) (128 * n) with
  | (s, .held) => (s, .held)
  | (s, .fail st m) => (s, .miss st m)
  | (s, .ok sb) => match s.xread q (c.va 0x20) (128 * n) with
    | (s, .held) => (s, .held)
    | (s, .fail st m) => (s, .miss st m)
    | (s, .ok db) =>
      let ds := (List.range n).map fun i =>
        ((sb.drop (128 * i)).take 128, (db.drop (128 * i)).take 128)
      match ds.zipIdx.find? fun e => tensorBad r.2 (loomLocal c) e.1.1 e.1.2 with
      | some e => (s, .fail stDeviceFault 0x1301 e.2 false)
      | none =>
        let ts := ds.map fun d => (layoutOf d.1, layoutOf d.2)
        match s.rangeCheck q .read (ts.flatMap fun t => t.1.ranges) with
        | (s, some (st, m)) => (s, .miss st m)
        | (s, none) => match s.rangeCheck q .write (ts.flatMap fun t => t.2.ranges) with
          | (s, some (st, m)) => (s, .miss st m)
          | (s, none) =>
            (s, .ok ts (ds.flatMap fun d => d.1.take 0x18 ++ (d.1.drop 0x40).take 12
              ++ d.2.take 0x18 ++ (d.2.drop 0x40).take 12))

/-- Tiles that hold a source or a destination of a LOOM_MOVE (R51). -/
def State.moveTiles (s : State) (p : Nat) (ts : List (Layout × Layout)) : List Nat :=
  s.rangeTiles p (ts.flatMap fun t => t.1.ranges ++ t.2.ranges)

/-- A LOCAL LOOM_MOVE runs at once; over a group it waits for its admission. One that waits for a
recovery goes on when its row runs again. -/
def State.startLoom (s : State) (p : Nat) (c : Cmd) : State :=
  match c.prog with
  | .none =>
    if loomLocal c then
      match s.loomOpen p c with
      | (w, .held) => s.waking w
      | (s', .miss st m) => s'.finish p c (endAt st m true)
      | (s', .fail st detail result _) => s'.finish p c (endWith st detail result true)
      | (s', .ok ts _) =>
        let l : LoomRun :=
          { coll := { group := 0, ordinal := 0, hash := 0, phase := .data }, tensors := ts }
        ((s'.loomsTake p c (s'.moveTiles p ts)).updCmd p c fun y => { y with prog := .loom l }).loomStep p c
    else
      let k : Coll := { group := colGroup c, ordinal := colOrd c, hash := 0 }
      s.updCmd p c fun y => { y with prog := .loom { coll := k, tensors := [] } }
  | .loom _ => s.loomStep p c
  | _ => s

def execLoomMove (p : Fin 16) (q : Fin 64) (slot : BitVec 16) (s : State) : Ans :=
  .next (match s.rowCmd p.val q.val slot.toNat fun c => c.op == opLoomMove with
    | none => s
    | some c => s.startLoom p.val c)

/-- LOOM_MOVEs that wait for a recovery try again. -/
def State.loomRetry (s : State) (p : Nat) : State :=
  ((s.part p).cmds.filter fun c => c.op == opLoomMove && cmdLive c).foldl
    (fun s c => s.loomStep p c) s

end Sys2Proof.Machine
end

