-- ==== Sys2Proof/Machine/Load.lean ====
section
/-! DEFINITION. WEIGHT_LOAD: manifests (R387, R388), LOAD over its ring (R389 to R394), ADOPT (R395) and
RETIRE (R396). -/

namespace Sys2Proof.Machine

def isWeight (mode : Nat) (c : Cmd) : Bool := c.op == opWeightLoad && loadMode c == mode
def loadGen (c : Cmd) : Bool := c.fb 0x29 0
def loadMan (c : Cmd) : Nat := c.va 0x18

def retBytes : Nat := 64 * chunkBytes

/-! Manifests. -/

/-- The header breaks R387. -/
def manHeaderBad (set : Nat) (h : List Byte) : Bool :=
  bAt h 0 4 != 0x4D4E5357 || bAt h 4 2 != 1 || bAt h 6 1 != set || bAt h 8 4 == 0
  || decide (65536 < bAt h 8 4) || bVa h 0x10 % 64 != 0
  || !(bZero h [(7, 1), (0x0C, 4), (0x17, 1), (0x1F, 1), (0x20, 32)])

def manEntryOf (b : List Byte) (crcBase : Nat) : ManEntry :=
  { copies := bAt b 4 1, hostSrc := bit (bAt b 5 1) 0, len := bAt b 8 5
    digest := (b.drop 0x10).take 32, hostVa := bVa b 0x30
    dst := (List.range 4).map fun j => bVa b (0x38 + 8 * j)
    repl := (List.range 4).map fun j => BitVec.ofNat 16 (bAt b (0x58 + 2 * j) 2), crcBase := crcBase }

/-- An entry breaks R388. ADOPT ignores DIGEST and HOST_VA (R395). -/
def manEntryBad (load : Bool) (e : Nat) (b : List Byte) : Bool :=
  let m := manEntryOf b 0
  bAt b 0 4 != e || decide (4 < m.copies) || decide (2 ≤ bAt b 5 1) || m.len == 0 || m.len % 64 != 0
  || !(bZero b [(6, 2), (0x0D, 3), (0x60, 32)]) || (load && bAt b 0x37 1 != 0)
  || (List.range m.copies).any (fun j => m.dst.getD j 0 % 64 != 0 || bAt b (0x3F + 8 * j) 1 != 0)
  || (List.range 4).any (fun j => bAt b (0x58 + 2 * j) 2 / 4096 % 8 != 0)

/-- Entries with the place of their first chunk in the CRC table. -/
def manEntries : List (List Byte) → Nat → List ManEntry
  | [], _ => []
  | b :: bs, k =>
    let e := manEntryOf b k
    e :: manEntries bs (if e.copies = 0 then k else k + manChunks e)

def crcCount (es : List ManEntry) : Nat :=
  (es.map fun e => if e.copies = 0 then 0 else manChunks e).sum

/-- The pages of a range are mapped and pinned, whatever their tier (R387). -/
def State.pinned (s : State) (p va n : Nat) : Bool :=
  match s.pages p va n with
  | .err _ => false
  | .ok gs => gs.all fun g => leafPin g.leaf

/-- HOST_VA lies in host-memory pages with ENC = 0 (R388). -/
def State.hostPages (s : State) (p va n : Nat) : Bool :=
  match s.pages p va n with
  | .err _ => false
  | .ok gs => gs.all fun g => leafTier g.leaf == 2 && !leafEnc g.leaf

inductive ManStart where
  | held
  | miss (st : Nat) (m : Miss)
  | fail (st detail : Nat) (result : Option Nat)
  | ok (es : List ManEntry) (crcVa retVa : Nat)

/-- Reads and checks a manifest. A broken header has no entry index: RESULT is then a free value. -/
def State.readManifest (s : State) (p : Nat) (c : Cmd) (load : Bool) : State × ManStart :=
  let q : Req := ⟨p, s.loomFor p (loadMan c)⟩
  match s.xread q (loadMan c) 64 with
  | (s, .held) => (s, .held)
  | (s, .fail st m) => (s, .miss st m)
  | (s, .ok h) =>
    if manHeaderBad (loadSet c) h || (load && bVa h 0x18 % chunkBytes != 0) then
      (s, .fail stDeviceFault 0x1302 none)
    else match s.xread q (loadMan c + 64) (128 * bAt h 8 4) with
      | (s, .held) => (s, .held)
      | (s, .fail st m) => (s, .miss st m)
      | (s, .ok body) =>
        let bs := (List.range (bAt h 8 4)).map fun i => (body.drop (128 * i)).take 128
        let es := manEntries bs 0
        let s := ((s.touchTables p (loadMan c) (64 + 128 * bs.length)).touchTables p (bVa h 0x10)
          (8 * crcCount es)).touchTables p (bVa h 0x18) (if load then retBytes else 0)
        match bs.zipIdx.find? fun e => manEntryBad load e.2 e.1 || (load && bit (bAt e.1 5 1) 0
            && !s.hostPages p (bVa e.1 0x30) (bAt e.1 8 5)) with
        | some e => (s, .fail stDeviceFault 0x1302 (some e.2))
        | none =>
          if !s.pinned p (loadMan c) (64 + 128 * bs.length)
              || (crcCount es != 0 && !s.pinnedRange p (bVa h 0x10) (8 * crcCount es) false)
              || (load && !s.pinnedRange p (bVa h 0x18) retBytes false) then
            (s, .fail stDeviceFault 0x1302 none)
          else (s, .ok es (bVa h 0x10) (bVa h 0x18))

/-- The failed start of a WEIGHT_LOAD: the set is left as it was (R389). -/
def State.failWeight (s : State) (p : Nat) (c : Cmd) (st detail : Nat) (result : Option Nat) : State :=
  let v := result.getD (s.freeVal % 2 ^ 64)
  (if result.isSome then s else s.tickFree).finish p c (endWith st detail v true)

/-- Tiles that hold what a LOAD or ADOPT writes and reads: copies, CRC table, retention region (R51). -/
def State.loadTiles (s : State) (p : Nat) (es : List ManEntry) (crcVa : Nat) (retVa : Option Nat) :
    List Nat :=
  s.rangeTiles p ((es.flatMap fun e => (e.dst.take e.copies).map fun va => (va, e.len))
    ++ [(crcVa, 8 * crcCount es)] ++ match retVa with
      | some va => [(va, retBytes)]
      | none => [])

/-- LOAD from its dispatch: the state it needs, the manifest, and LOADING (R384, R389). -/
def State.startLoad (s : State) (p : Nat) (c : Cmd) : State :=
  let w := (s.part p).wset (loadSet c)
  if w.state != 0 && w.state != 4 then
    s.failWeight p c stDeviceFault 0x1303 (some w.state.toNat)
  else match s.readManifest p c true with
    | (w, .held) => s.waking w
    | (s, .miss st m) => s.finish p c (endAt st m true)
    | (s, .fail st detail result) => s.failWeight p c st detail result
    | (s, .ok es crcVa retVa) =>
      let l : LoadRun :=
        { set := loadSet c, coll := { group := gGroup c, ordinal := gOrd c, hash := 0 }
          entries := es, crcVa := crcVa, retVa := retVa, genFlag := loadGen c }
      let s := s.updSet p (loadSet c) fun w => { w with
        state := 1, man := BitVec.ofNat 56 (loadMan c), entries := [], recoveries := [] }
      (s.loomsTake p c (s.loadTiles p es crcVa (some retVa))).updCmd p c fun y => { y with prog := .load l }

def execLoad (p : Fin 16) (q : Fin 64) (slot : BitVec 16) (s : State) : Ans :=
  s.onNew p q slot (isWeight 0) fun c => s.startLoad p.val c

/-! The run of a LOAD. -/

def State.loadOf (s : State) (p : Nat) (c : Cmd) : Option LoadRun :=
  match (s.cmdNow p c).prog with
  | .load l => some l
  | _ => none

def State.updLoad (s : State) (p : Nat) (c : Cmd) (f : LoadRun → LoadRun) : State :=
  s.updCmd p c fun y => { y with prog := match y.prog with | .load l => .load (f l) | g => g }

def loadBytes (l : LoadRun) : Nat := (l.entries.map fun e => e.copies * e.len).sum

/-- Every rank has reported: the load ends, or commits (R393). -/
def State.loadSettle (s : State) (p : Nat) (c : Cmd) : State :=
  match s.loadOf p c with
  | none => s
  | some l =>
    let n := (s.group l.coll.group).n
    let all := (List.range n).all fun r => l.reports.any fun e => e.1 == r
    match (List.range n).findSome? fun r => l.reports.find? fun e => e.1 == r && e.2.1 != 0 with
    | some f =>
      if !all then s
      else
        let detail := match l.failure with | some x => x.2.1 | none => 0x1313
        let s := s.updSet p l.set fun w => { w with last := BitVec.ofNat 16 f.2.2 }
        s.endGroup p c f.2.1 detail (some (f.2.2 % 2 ^ 32 + f.1 * 2 ^ 32))
    | none =>
      if !all then s
      else
        let s := s.updSet p l.set fun w => { w with
          state := 2, gen := w.gen || l.genFlag, entries := l.entries, crcVa := l.crcVa }
        s.finish p c (endDone (loadBytes l))

/-- This member's own report: its failure, or no failure so far. -/
def State.loadReport (s : State) (p : Nat) (c : Cmd) (kind st shard : Nat) : State :=
  match s.loadOf p c with
  | none => s
  | some l =>
    let me := (s.group l.coll.group).rank
    let s := s.updLoad p c fun l => { l with reports := l.reports.filter (·.1 != me) ++ [(me, st, shard)] }
    (s.sendOthers l.coll.group kind
      (leBytes 8 l.coll.ordinal ++ leBytes 1 st ++ leBytes 4 shard)).loadSettle p c

def State.loadFailOwn (s : State) (p : Nat) (c : Cmd) (st detail shard : Nat) : State :=
  (s.updLoad p c fun l => { l with failure := some (st, detail, shard) }).loadReport p c msgLoadFail st
    shard

/-- A good chunk: written to each copy, its CRC-64 to the table, and passed on through the retention
region (R390, R391). -/
def State.loadTake (s : State) (p : Nat) (c : Cmd) (shard chunk : Nat) (bs : List Byte) (crc : Dword) :
    Went State :=
  match s.loadOf p c with
  | none => .on s
  | some l =>
    let e := l.entries.getD shard ⟨0, false, 0, [], 0, [], [], 0⟩
    let g := s.group l.coll.group
    let passes := decide (g.rank + 1 < g.n)
    let slot := l.passed % 64
    let table := if e.copies = 0 then []
      else [(l.crcVa + 8 * (e.crcBase + chunk), leBytes 8 crc.toNat)]
    let copies := (List.range e.copies).map fun j => (chunkVa e j chunk, bs)
    let kept := if passes then [(l.retVa + chunkBytes * slot, bs)] else []
    match loomWrites p (copies ++ table ++ kept) s with
    | (w, .held) => .wait w
    | (s, .fail st _) => .on (s.loadFailOwn p c st 0 shard)
    | (s, .ok _) =>
      let s := s.updLoad p c fun l => { l with good := l.good ++ [(shard, chunk)] }
      .on (if passes then
        (s.sendTo l.coll.group (g.rank + 1) msgLoadChunk
          (leBytes 4 shard ++ leBytes 4 chunk ++ leBytes 8 crc.toNat ++ bs)).updLoad p c fun l => { l with
            kept := ((shard, chunk, slot) :: l.kept.filter fun k => k.2.2 != slot).take 64
            passed := l.passed + 1 }
      else s)

def shardComplete (l : LoadRun) (i : Nat) (e : ManEntry) : Bool :=
  (List.range (manChunks e)).all fun k => l.good.contains (i, k)

def heldShards (l : LoadRun) : List (ManEntry × Nat) := l.entries.zipIdx.filter fun x => x.1.copies != 0

/-- Computes the digest of each held shard whose chunks have all arrived, from its first copy (R392). -/
def loadDigests (p : Nat) (c : Cmd) : List (ManEntry × Nat) → State → State
  | [], s => s
  | (e, i) :: xs, s =>
    match s.loadOf p c with
    | none => s
    | some l =>
      if l.failure.isSome || l.checked.contains i || !shardComplete l i e then loadDigests p c xs s
      else match s.xread ⟨p, s.loomFor p (chunkVa e 0 0)⟩ (chunkVa e 0 0) e.len with
        | (w, .held) => s.waking w
        | (s, .fail st _) => s.loadFailOwn p c st 0 i
        | (s, .ok bs) =>
          if sha256 bs = e.digest then
            loadDigests p c xs (s.updLoad p c fun l => { l with checked := l.checked ++ [i] })
          else s.loadFailOwn p c stShardCorrupt 0x1311 i

/-- After END, or at a deadline met: success once every held shard is right. -/
def State.loadCheck (s : State) (p : Nat) (c : Cmd) : State :=
  match s.loadOf p c with
  | none => s
  | some l0 =>
    let s := loadDigests p c (heldShards l0) s
    match s.loadOf p c with
    | none => s
    | some l =>
      let me := (s.group l.coll.group).rank
      if l.ended && l.failure.isNone && !(l.reports.any fun r => r.1 == me)
          && (heldShards l).all (fun x => l.checked.contains x.2) then
        s.loadReport p c msgLoadSuccess 0 0
      else s

/-- Every chunk of the load in manifest order. -/
def loadOrder (l : LoadRun) : List (Nat × Nat) :=
  l.entries.zipIdx.flatMap fun x => (List.range (manChunks x.1)).map fun k => (x.2, k)

/-- The head reads one chunk from HOST_VA. -/
def State.headChunk (s : State) (p : Nat) (l : LoadRun) (shard chunk : Nat) :
    State × XR (List Byte) :=
  let e := l.entries.getD shard ⟨0, false, 0, [], 0, [], [], 0⟩
  s.xread ⟨p, s.loomFor p (chunkVa e 0 chunk)⟩ (e.hostVa + chunkBytes * chunk) (chunkLen e chunk)

/-- The head reads and sends what it has not sent yet, then END (R390). -/
def headGo (p : Nat) (c : Cmd) : List (Nat × Nat) → State → State
  | [], s =>
    match s.loadOf p c with
    | none => s
    | some l =>
      let s := if 1 < (s.group l.coll.group).n then s.sendTo l.coll.group 1 msgLoadEnd [] else s
      (s.updLoad p c fun l => { l with ended := true }).loadCheck p c
  | (i, k) :: xs, s =>
    match s.loadOf p c with
    | none => s
    | some l =>
      if l.failure.isSome then s
      else match s.headChunk p l i k with
        | (w, .held) => s.waking w
        | (s, .fail st _) => s.loadFailOwn p c st 0 i
        | (s', .ok bs) => match s'.loadTake p c i k bs (crc64 bs) with
          | .wait w => s.waking w
          | .on s' => headGo p c xs (s'.updLoad p c fun l => { l with sent := l.sent + 1 })

/-! Its messages. -/

/-- The live command over a group with an ordinal that a condition picks. -/
def State.groupCmd (s : State) (p g ord : Nat) (f : Cmd → Bool) : Option Cmd :=
  if s.enabled p then
    s.pickCmd p fun c => overGroup c && cmdLive c && gGroup c == g && gOrd c == ord && f c
  else none

def State.onLoad (s : State) (p : Fin 16) (g : BitVec 12) (ord : BitVec 48)
    (f : Cmd → LoadRun → State) : Ans :=
  .next (match s.groupCmd p.val g.toNat ord.toNat fun c => isLoad c && cmdPhase c == .data with
    | none => s
    | some c => match s.loadOf p.val c with
      | some l => f c l
      | none => s)

/-- No failure has been reported: chunks still count. -/
def loadRuns (l : LoadRun) : Bool := l.failure.isNone && l.reports.all fun r => r.2.1 == 0

/-- A chunk from upstream. One that fails its check is re-requested, at most four times; one that cannot
be written yet, or comes while the Loom yields (R406), is kept. -/
def State.takeLoadChunk (s : State) (p : Nat) (c : Cmd) (shard chunk : Nat) (bytes : List Byte)
    (crc : Dword) : State :=
  match s.loadOf p c with
  | none => s
  | some l => match l.entries[shard]? with
    | none => s
    | some e =>
      let me := (s.group l.coll.group).rank
      let keep := fun (s : State) => s.updLoad p c fun l => { l with
        inbox := l.inbox ++ [(shard, chunk, bytes, crc)] }
      if !loadRuns l || l.good.contains (shard, chunk) || manChunks e ≤ chunk || me == 0 then s
      else if s.loomYields p c then keep s
      else if crc64 bytes == crc && bytes.length == chunkLen e chunk then
        match (s.loomsAct p (s.cmdNow p c)).loadTake p c shard chunk bytes crc with
        | .wait w => keep (s.waking w)
        | .on s' => s'.loadCheck p c
      else
        let n := l.bad.count (shard, chunk)
        let s := s.updLoad p c fun l => { l with bad := l.bad ++ [(shard, chunk)] }
        if n < 4 then
          s.sendTo l.coll.group (me - 1) msgLoadRerequest (leBytes 4 shard ++ leBytes 4 chunk)
        else s

def State.takeLoadEnd (s : State) (p : Nat) (c : Cmd) : State :=
  match s.loadOf p c with
  | none => s
  | some l =>
    let g := s.group l.coll.group
    if l.ended || g.rank == 0 then s
    else
      let s := if g.rank + 1 < g.n then s.sendTo l.coll.group (g.rank + 1) msgLoadEnd [] else s
      (s.updLoad p c fun l => { l with ended := true }).loadCheck p c

/-- Takes the chunks that are kept. -/
def State.loadInbox (s : State) (p : Nat) (c : Cmd) : State :=
  match s.loadOf p c with
  | none => s
  | some l => l.inbox.foldl (fun s e => s.takeLoadChunk p c e.1 e.2.1 e.2.2.1 e.2.2.2)
      (s.updLoad p c fun l => { l with inbox := [] })

/-- The data phase goes on: kept chunks, and at the head the next ones (R390, R406). -/
def State.loadStep (s : State) (p : Nat) (c : Cmd) : State :=
  match s.loadOf p c with
  | none => s
  | some l =>
    if l.coll.phase != .data || s.loomYields p c then s
    else
      let s := s.loadInbox p c
      if (s.group l.coll.group).rank == 0 && !l.ended && l.reports.isEmpty then
        headGo p c ((loadOrder l).drop l.sent) (s.loomsAct p (s.cmdNow p c))
      else s

/-- The data phase begins, with what came early. -/
def State.loadBegin (s : State) (p : Nat) (c : Cmd) : State :=
  match s.loadOf p c with
  | none => s
  | some l =>
    let s := s.updLoad p c fun l => { l with endIn := false }
    (if l.endIn then s.takeLoadEnd p c else s).loadStep p c

/-- A LOAD in its header phase keeps what arrives. -/
def State.loadEarly (s : State) (p : Fin 16) (g : BitVec 12) (ord : BitVec 48)
    (f : LoadRun → LoadRun) : State :=
  match s.groupCmd p.val g.toNat ord.toNat fun c => isLoad c && cmdPhase c == .header with
  | some c => s.updLoad p.val c f
  | none => s

def execLoadChunk (p : Fin 16) (g : BitVec 12) (ord : BitVec 48) (shard chunk : Nat)
    (bytes : List Byte) (crc : Dword) (s : State) : Ans :=
  (s.loadEarly p g ord fun l => { l with inbox := l.inbox ++ [(shard, chunk, bytes, crc)] }).onLoad p g ord
    fun c _ => s.takeLoadChunk p.val c shard chunk bytes crc

def execLoadEnd (p : Fin 16) (g : BitVec 12) (ord : BitVec 48) (s : State) : Ans :=
  (s.loadEarly p g ord fun l => { l with endIn := true }).onLoad p g ord
    fun c _ => s.takeLoadEnd p.val c

/-- The downstream neighbour asks for a chunk again: from the retention region, or at the head from host
memory. One that can no longer be served is not sent. -/
def execLoadRerequest (p : Fin 16) (g : BitVec 12) (ord : BitVec 48) (shard chunk : Nat) (s : State) :
    Ans :=
  s.onLoad p g ord fun _ l =>
    let x := s.group g.toNat
    let e := l.entries.getD shard ⟨0, false, 0, [], 0, [], [], 0⟩
    let kept := l.kept.find? fun k => k.1 == shard && k.2.1 == chunk
    let r := match kept with
      | some k => s.xread ⟨p.val, s.loomFor p.val l.retVa⟩ (l.retVa + chunkBytes * k.2.2) (chunkLen e chunk)
      | none =>
        if x.rank = 0 ∧ shard < l.entries.length ∧ chunk < manChunks e then
          s.headChunk p.val l shard chunk
        else (s, .held)
    if x.n ≤ x.rank + 1 then s
    else match r with
      | (s', .ok bs) => s'.sendTo g.toNat (x.rank + 1) msgLoadChunk
          (leBytes 4 shard ++ leBytes 4 chunk ++ leBytes 8 (crc64 bs).toNat ++ bs)
      | (s', .fail _ _) => s'
      | (w, .held) => s.waking w

/-- The deadline: every held shard must be complete (R392). -/
def execLoadDeadline (p : Fin 16) (g : BitVec 12) (ord : BitVec 48) (s : State) : Ans :=
  s.onLoad p g ord fun c l =>
    let me := (s.group g.toNat).rank
    if l.failure.isSome || l.reports.any (fun r => r.1 == me) then s
    else match (heldShards l).find? fun x => !shardComplete l x.2 x.1 with
      | some (_, i) =>
        let failed := l.bad.any fun b => b.1 == i && !l.good.contains b
        if failed then s.loadFailOwn p.val c stShardCorrupt 0x1310 i
        else s.loadFailOwn p.val c stShardMissing 0x1312 i
      | none => (s.updLoad p.val c fun l => { l with ended := true }).loadCheck p.val c

def loadAddReport (rank st shard : Nat) (l : LoadRun) : LoadRun :=
  { l with reports := l.reports.filter (·.1 != rank) ++ [(rank, st, shard)] }

/-- Another member's outcome. A member that has not reported stops and reports that it has not
failed. -/
def execLoadFail (p : Fin 16) (g : BitVec 12) (ord : BitVec 48) (rank : Fin 256) (status : BitVec 8)
    (shard : Nat) (s : State) : Ans :=
  s.onLoad p g ord fun c l =>
    let x := s.group g.toNat
    if x.n ≤ rank.val || rank.val == x.rank then s
    else
      let s := s.updLoad p.val c (loadAddReport rank.val status.toNat shard)
      if l.reports.any fun r => r.1 == x.rank then s.loadSettle p.val c
      else s.loadReport p.val c msgLoadFail 0 0

def execLoadSuccess (p : Fin 16) (g : BitVec 12) (ord : BitVec 48) (rank : Fin 256) (s : State) : Ans :=
  s.onLoad p g ord fun c _ =>
    let x := s.group g.toNat
    if x.n ≤ rank.val || rank.val == x.rank then s
    else (s.updLoad p.val c (loadAddReport rank.val 0 0)).loadSettle p.val c

/-! ADOPT and RETIRE. -/

/-- Ends a command with a RESULT that no rule states: a free value (log entry 21). -/
def State.finishOpen (s : State) (p : Nat) (c : Cmd) (st detail : Nat) (kept : Bool) : State :=
  s.tickFree.finish p c (endWith st detail (s.freeVal % 2 ^ 64) kept)

/-- What reading the copies of a chunk gave. -/
inductive AdoptRes where
  | held
  | fail (st : Nat) (m : Miss)
  | differ
  | ok (crc : Dword)

def adoptGo (p : Nat) (e : ManEntry) (chunk : Nat) : List Nat → Option (List Byte) → State → State × AdoptRes
  | [], first, s => (s, .ok (crc64 (first.getD [])))
  | j :: js, first, s =>
    let va := chunkVa e j chunk
    match s.xread ⟨p, s.loomFor p va⟩ va (chunkLen e chunk) with
    | (s, .held) => (s, .held)
    | (s, .fail st a) => (s, .fail st a)
    | (s, .ok bs) =>
      if first.isNone || first == some bs then adoptGo p e chunk js (some bs) s
      else (s, .differ)

/-- Reads every copy of every held chunk and fills the CRC table; ends the command when it fails. -/
def adoptAll (p : Nat) (c : Cmd) (es : List ManEntry) (crcVa : Nat) :
    List (Nat × Nat) → State → Went State
  | [], s =>
    let s := s.updSet p (loadSet c) fun w => { w with
      state := 2, gen := w.gen || loadGen c, entries := es, crcVa := crcVa }
    .on (s.finishOpen p c stDone 0 false)
  | (i, k) :: xs, s =>
    let e := es.getD i ⟨0, false, 0, [], 0, [], [], 0⟩
    match adoptGo p e k (List.range e.copies) none s with
    | (w, .held) => .wait w
    | (s, .fail st va) => .on ((s.emptySet p (loadSet c)).finish p c (endAt st va))
    | (s, .differ) =>
      let s := (s.emptySet p (loadSet c)).updSet p (loadSet c) fun w =>
        { w with last := BitVec.ofNat 16 i }
      .on (s.finishOpen p c stShardCorrupt 0x1310 false)
    | (s, .ok crc) =>
      match s.loomWrite p (crcVa + 8 * (e.crcBase + k)) (leBytes 8 crc.toNat) with
      | (w, .held) => .wait w
      | (s, .fail st va) => .on ((s.emptySet p (loadSet c)).finish p c (endAt st va))
      | (s, .ok _) => adoptAll p c es crcVa xs s

def State.startAdopt (s : State) (p : Nat) (c : Cmd) : State :=
  let w := (s.part p).wset (loadSet c)
  if w.state != 0 then s.failWeight p c stDeviceFault 0x1303 (some w.state.toNat)
  else match s.readManifest p c false with
    | (w, .held) => s.waking w
    | (s1, .miss st m) => s1.finish p c (endAt st m true)
    | (s1, .fail st detail result) => s1.failWeight p c st detail result
    | (s1, .ok es crcVa _) =>
      let s1 := s1.updSet p (loadSet c) fun w => { w with
        state := 1, man := BitVec.ofNat 56 (loadMan c) }
      let order := (es.zipIdx.filter fun x => x.1.copies != 0).flatMap fun x =>
        (List.range (manChunks x.1)).map fun k => (x.2, k)
      let s1 := s1.loomsTake p c (s1.loadTiles p es crcVa none)
      if s1.loomYields p c then s
      else match adoptAll p c es crcVa order (s1.loomsAct p (s1.cmdNow p c)) with
      | .on s2 => s2
      | .wait w => s.waking w

def execAdopt (p : Fin 16) (q : Fin 64) (slot : BitVec 16) (s : State) : Ans :=
  s.onNew p q slot (isWeight 1) fun c => s.startAdopt p.val c

/-- RETIRE waits while a recovery runs (R396), and while a LOAD of the set does. -/
def execRetire (p : Fin 16) (q : Fin 64) (slot : BitVec 16) (s : State) : Ans :=
  s.onNew p q slot (isWeight 2) fun c =>
    let w := (s.part p.val).wset (loadSet c)
    if w.state == 3 then s
    else if w.state == 1 then s.failWeight p.val c stDeviceFault 0x1303 (some 1)
    else
      ((s.emptySet p.val (loadSet c)).updSet p.val (loadSet c) fun w =>
        { w with gen := false }).finishOpen p.val c stDone 0 false

end Sys2Proof.Machine
end

