-- ==== Sys2Proof/Machine/Coll.lean ====
section
/-! DEFINITION. COLLECTIVE (R266 to R286): admission, the header, exponent and data phases, stalls, and
what resets do to the commands over a group. -/

namespace Sys2Proof

def ColRegs.stages (x : ColRegs) : List ColStage :=
  [x.stage0, x.stage1, x.stage2, x.stage3].filter fun e => e.slots != 0

end Sys2Proof

namespace Sys2Proof.Machine

def chunkElems : Nat := 1024

def isSumRed (c : Cmd) : Bool := colReduces (colOp c) && colRed c == 0

/-- Elements of the full buffer, which the chunks count (R99). -/
def collTotal (c : Cmd) (n : Nat) : Nat :=
  match colOp c with
  | 1 | 2 | 5 => n * colCount c
  | _ => colCount c

def collChunks (c : Cmd) (n : Nat) : Nat := ceilDiv (collTotal c n) chunkElems

/-- Elements [start, stop) of a chunk. -/
def chunkSpan (c : Cmd) (n k : Nat) : Nat × Nat :=
  (k * chunkElems, min (collTotal c n) ((k + 1) * chunkElems))

/-- Elements of the full buffer that come from a rank in a movement: its block, or ROOT's whole. -/
def rankSpan (c : Cmd) (rank : Nat) : Nat × Nat :=
  if colOp c = 4 then (if rank = colRoot c then (0, colCount c) else (0, 0))
  else (rank * colCount c, (rank + 1) * colCount c)

def meetSpan (a b : Nat × Nat) : Nat × Nat := (max a.1 b.1, max (max a.1 b.1) (min a.2 b.2))

/-- Ranks whose elements a chunk of a movement holds. -/
def chunkRanks (c : Cmd) (n k : Nat) : List Nat :=
  (List.range n).filter fun r =>
    let m := meetSpan (chunkSpan c n k) (rankSpan c r)
    decide (m.1 < m.2)

/-- Elements of a chunk that this member's destination holds. -/
def dstSpan (c : Cmd) (n rank k : Nat) : Nat × Nat :=
  let m := chunkSpan c n k
  match colOp c with
  | 1 => meetSpan m (rank * colCount c, (rank + 1) * colCount c)
  | 3 => if rank = colRoot c then m else (m.1, m.1)
  | _ => m

/-- Place of full-buffer element `e` in this member's destination. -/
def dstIndex (c : Cmd) (rank e : Nat) : Nat := if colOp c = 1 then e - rank * colCount c else e

/-! The descriptor hash (R272). -/

def collHash (c : Cmd) (epoch : Nat) : Dword :=
  let op := colOp c
  sha256Key (leBytes 1 op ++ leBytes 1 (if colReduces op then colRed c else 0) ++ leBytes 2 (colIn c)
    ++ leBytes 2 (colOut c) ++ leBytes 1 (if op = 3 ∨ op = 4 then colRoot c else 0) ++ leBytes 1 epoch
    ++ leBytes 4 (colCount c) ++ leBytes 2 (colGroup c) ++ leBytes 2 0 ++ leBytes 8 (colOrd c)
    ++ leBytes 4 (if colStepEn c then colStep c else 0)
    ++ leBytes 4 (b2n (colStepEn c) + 2 * b2n (colNf c)))

def loomHash (c : Cmd) (epoch : Nat) (hashed : List Byte) : Dword :=
  sha256Key (leBytes 1 0x38 ++ leBytes 1 epoch ++ leBytes 2 (colGroup c) ++ leBytes 8 (colOrd c)
    ++ leBytes 4 (loomN c) ++ hashed)

def loadHash (c : Cmd) (epoch : Nat) (es : List ManEntry) : Dword :=
  sha256Key (leBytes 1 0x39 ++ leBytes 1 epoch ++ leBytes 2 (gGroup c) ++ leBytes 8 (gOrd c)
    ++ leBytes 4 es.length ++ es.zipIdx.flatMap fun e =>
      leBytes 4 e.2 ++ leBytes 8 e.1.len ++ e.1.digest)

/-! Reading the source. -/

/-- The collective engine that acts: of the tiles whose links the group uses, which one is the module's
choice (R51, R278). -/
def State.uEngine (s : State) (c : Cmd) : Nat :=
  let ts := s.groupTiles c
  uColl (ts.getD (Config.freePick s.free 3 % ts.length) (Config.freePick s.free 3 % 4))

/-- Elements [i, j) of the source, as bits. -/
def State.srcBits (s : State) (p : Nat) (c : Cmd) (i j : Nat) : State × XR (List Nat) :=
  let b := collBits (colIn c)
  let a := 8 * colSrc c + i * b
  if j ≤ i then (s, .ok [])
  else match s.xread ⟨p, s.uEngine c⟩ (a / 8) ((a % 8 + (j - i) * b + 7) / 8) with
    | (s, .ok bs) => (s, .ok (unpackBits (a % 8) b (j - i) bs))
    | (s, .held) => (s, .held)
    | (s, .fail st va) => (s, .fail st va)

/-- A source element widened exactly to FP32 (R100, R268). -/
def srcWord (c : Cmd) (b : Nat) : Word := F32.rnd (elemVal (colIn c % 16) b)

/-- e_loc as it is sent: 0x8000 for none (R276). -/
def elocBits (e : Option Int) : BitVec 16 :=
  match e with
  | none => 0x8000
  | some x => BitVec.ofInt 16 x

def elocOf (b : BitVec 16) : Option Int := if b = 0x8000 then none else some b.toInt

/-- e_loc of the chunks of one batch of 256. -/
def elocGo (p : Nat) (c : Cmd) (n : Nat) : List Nat → State → List (BitVec 16) →
    State × XR (List (BitVec 16))
  | [], s, acc => (s, .ok acc)
  | k :: ks, s, acc =>
    let m := chunkSpan c n k
    match s.srcBits p c m.1 m.2 with
    | (s, .ok bs) => elocGo p c n ks s (acc ++ [elocBits (collExpLocal (bs.map (srcWord c)))])
    | (s, .held) => (s, .held)
    | (s, .fail st va) => (s, .fail st va)

def batchChunks (c : Cmd) (n batch : Nat) : List Nat :=
  (List.range 256).filterMap fun i =>
    if batch * 256 + i < collChunks c n then some (batch * 256 + i) else none

/-- MAX, MIN and the movements send no e_loc (R276). -/
def State.elocs (s : State) (p : Nat) (c : Cmd) (batch : Nat) : State × XR (List (BitVec 16)) :=
  if isSumRed c then elocGo p c (s.group (colGroup c)).n (batchChunks c (s.group (colGroup c)).n batch) s []
  else (s, .ok [])

/-! Headers (R276, R277). -/

def State.updColl (s : State) (p : Nat) (c : Cmd) (f : Coll → Coll) : State :=
  s.updCmd p c (Cmd.updColl f)

def State.collNow (s : State) (p : Nat) (c : Cmd) : Option Coll := (s.cmdNow p c).coll

def headerBytes (key : List Byte) (h : CollHeader) : List Byte :=
  key ++ leBytes 1 h.rank ++ leBytes 8 h.hash.toNat ++ leBytes 1 (b2n h.stepEn)
  ++ leBytes 4 h.step.toNat ++ h.elocs.flatMap fun e => leBytes 2 e.toNat

/-- The exponents of a batch as the group agreed them: the largest of what arrived and this member's
own. -/
def agreeBatch (batch : Nat) (own got : List (List (BitVec 16))) (k : Coll) : Coll :=
  let all := own ++ got
  let width := (all.map List.length).foldl max 0
  { k with
    batches := batch + 1
    exps := (List.range width).foldl (fun m i =>
      SMap.set 0 m (batch * 256 + i) (collExp (all.map fun l => (l[i]?).bind elocOf))) k.exps }

/-! Data (R276, R278). -/

/-- Destination bytes at an element's place: bits outside the run keep their value. -/
def mergeBits (old : List Byte) (lo n : Nat) (es : List Nat) : List Byte :=
  let x := leNat old
  let k := es.length * n
  let v := es.foldr (fun e a => e % 2 ^ n + 2 ^ n * a) 0
  leBytes old.length (x % 2 ^ lo + v * 2 ^ lo + x / 2 ^ (lo + k) * 2 ^ (lo + k))

/-- Writes destination elements from index `i` on, in memory or in the FEED core's scratchpad. -/
def State.dstWrite (s : State) (p : Nat) (c : Cmd) (i : Nat) (es : List Nat) : State × XR Unit :=
  let b := collBits (colOut c)
  let a := 8 * colDst c + i * b
  let n := (a % 8 + es.length * b + 7) / 8
  if es.isEmpty then (s, .ok ())
  else if colFeed c then
    match s.coreAt p (colFeedCore c) with
    | none => (s, .ok ())
    | some k =>
      let old := (List.range n).map fun j => scrByte (s.core k) (a / 8 + j)
      (s.scrStore k 5 [(a / 8, mergeBits old (a % 8) b es)], .ok ())
  else
    let aligned := a % 8 = 0 ∧ es.length * b % 8 = 0
    if aligned then s.xwrite ⟨p, s.uEngine c⟩ (a / 8) (mergeBits (List.replicate n 0) (a % 8) b es)
    else match s.xread ⟨p, s.uEngine c⟩ (a / 8) n with
      | (s', .ok old) => s'.xwrite ⟨p, s.uEngine c⟩ (a / 8) (mergeBits old (a % 8) b es)
      | (s', .held) => (s', .held)
      | (s', .fail st m) => (s', .fail st m)

/-- One chunk more is written; FEED adds a credit for each chunk that lengthens the leading run (R271).
A counter beyond 65,535 is left open. -/
def creditGo (p : Nat) (c : Cmd) : Nat → State → State
  | 0, s => s
  | fuel + 1, s =>
    match s.collNow p c, s.coreAt p (colFeedCore c) with
    | some k, some core =>
      if SMap.get false k.written k.credited then
        let v := SMap.get 0 (s.core core).cc (colCc c) + 1
        let w := if v ≤ 65535 then v else s.freeVal % 65536
        let s := s.tickFree.updCore core fun x => { x with cc := SMap.set 0 x.cc (colCc c) w }
        creditGo p c fuel (s.updColl p c fun k => { k with credited := k.credited + 1 })
      else s
    | _, _ => s

def State.chunkWritten (s : State) (p : Nat) (c : Cmd) (k : Nat) : State :=
  let s := s.updColl p c fun x => { x with
    written := SMap.set false x.written k true, partials := SMap.set ([], []) x.partials k ([], []) }
  if colFeed c then creditGo p c (collChunks c (s.group (colGroup c)).n + 1) s else s

/-- The rounded, converted elements of a reduction's chunk (R101, R268). -/
def reducedBits (c : Cmd) (E : Int) (es : List CollElem) : List Nat :=
  let f := FmtWord.of (BitVec.ofNat 16 (colOut c))
  (es.map fun e =>
    let w := if colRed c = 0 then collResult E e else BitVec.ofNat 32 e.n.toNat
    convertTo f.fmt (rndOf f 0) f.ovfInf (F32.dec w))

/-- MAX and MIN of R268: +0 above −0, any NaN gives the canonical NaN. -/
def foldWord (red : Nat) (a b : Word) : Word :=
  if fnan a || fnan b then F32.nan else if red = 1 then fmax a b else fmin a b

def combine (red : Nat) (a b : List CollElem) : List CollElem :=
  List.zipWith (fun x y =>
    if red = 0 then collAdd x y
    else ⟨(foldWord red (BitVec.ofNat 32 x.n.toNat) (BitVec.ofNat 32 y.n.toNat)).toNat, 0⟩) a b

/-- Adds a partial result to a chunk; one that repeats a rank changes nothing. -/
def addPartial (red k : Nat) (ranks : List Nat) (es : List CollElem) (x : Coll) : Coll :=
  let old := SMap.get ([], []) x.partials k
  if ranks.any (old.1.contains ·) then x
  else
    let es := if old.1.isEmpty then es else combine red old.2 es
    { x with partials := SMap.set ([], []) x.partials k (old.1 ++ ranks, es) }

/-- The wire form of a chunk of a SUM: 1,024 numbers of 8 bytes, then 256 bytes of tags (R276). -/
def sumWire (es : List CollElem) : List Byte :=
  let pad := es ++ List.replicate (chunkElems - es.length) ⟨0, 0⟩
  pad.flatMap (fun e => leBytes 8 (bitsOfInt 64 e.n))
  ++ leBytes 256 (pad.foldr (fun e a => e.tag % 4 + 4 * a) 0)

/-! Staging (R280). Chunk `k` has one buffer of one staging core: cores in turn, then buffers (log entry
22). The numbers of a SUM and their tags lie as on the wire; of other chunks the elements' bytes. -/

def slotBytes : Nat := 135168
def bufferBytes : Nat := 8448

/-- Core and scratchpad offset of a chunk's buffer. -/
def State.stageAt (s : State) (p : Nat) (x : Coll) (k : Nat) : Option (Nat × Nat) :=
  let es := (s.part p).col.stages
  (es[k % es.length]?).bind fun e => (s.coreAt p e.core.toNat).map fun core =>
    (core, e.off.toNat * 4096 + x.slot * slotBytes + k / es.length % 16 * bufferBytes)

/-- Another chunk that is not complete yet holds the buffer. -/
def State.stageBusy (s : State) (p : Nat) (x : Coll) (k : Nat) : Bool :=
  let n := 16 * (s.part p).col.stages.length
  x.partials.any fun e => e.1 != k && e.1 % n == k % n

/-- The runs that elements of a reduction take in a buffer at `a`. -/
def stageRuns (red a : Nat) (es : List CollElem) : List (Nat × List Byte) :=
  if red = 0 then
    [(a, es.flatMap fun e => leBytes 8 (bitsOfInt 64 e.n)),
      (a + 8192, leBytes ((es.length + 3) / 4) (es.foldr (fun e x => e.tag % 4 + 4 * x) 0))]
  else [(a, es.flatMap fun e => leBytes 4 e.n.toNat)]

/-- The elements that a buffer's bytes spell. -/
def stagedElems (x : Core) (red a n : Nat) : List CollElem :=
  let num := fun b m => leNat ((List.range m).map fun i => scrByte x (b + i))
  (List.range n).map fun i =>
    if red = 0 then ⟨signedOf 64 (num (a + 8 * i) 8), num (a + 8192 + i / 4) 1 / 4 ^ (i % 4) % 4⟩
    else ⟨num (a + 4 * i) 4, 0⟩

def runsStand (x : Core) (rs : List (Nat × List Byte)) : Bool :=
  rs.all fun r => (List.range r.2.length).map (fun i => scrByte x (r.1 + i)) == r.2

/-- A chunk's elements as its buffer holds them: what a kernel has written over them has changed them. -/
def State.restage (s : State) (p : Nat) (c : Cmd) (k : Nat) : State :=
  match s.collNow p c with
  | none => s
  | some x => match SMap.get ([], []) x.partials k, s.stageAt p x k with
    | ([], _), _ => s
    | (ranks, es), some (core, a) =>
      if runsStand (s.core core) (stageRuns (colRed c) a es) then s
      else s.updColl p c fun y => { y with
        partials := SMap.set ([], []) y.partials k (ranks, stagedElems (s.core core) (colRed c) a es.length) }
    | _, none => s

def State.stageRunsAt (s : State) (p : Nat) (c : Cmd) (k : Nat) (f : Nat → List (Nat × List Byte)) : State :=
  match s.collNow p c with
  | none => s
  | some x => match s.stageAt p x k with
    | some (core, a) => s.scrStore core 5 (f a)
    | none => s

/-- Adds a partial result to a chunk in its buffer. -/
def State.stagePartial (s : State) (p : Nat) (c : Cmd) (k : Nat) (ranks : List Nat) (es : List CollElem) :
    State :=
  let s := (s.restage p c k).updColl p c (addPartial (colRed c) k ranks es)
  match s.collNow p c with
  | none => s
  | some x => s.stageRunsAt p c k fun a => stageRuns (colRed c) a (SMap.get ([], []) x.partials k).2

/-- The bytes of a chunk message: epoch, ordinal, chunk, data; chunks are striped over the ten streams
(R251). -/
def State.chunkMsg (s : State) (c : Cmd) (k : Nat) (bs : List Byte) : List Byte :=
  s.groupKey c ++ leBytes 8 k ++ bs

/-- ALL_TO_ALL: elements `d` of every rank's destination come from this member. Block `j` of the source
goes to rank `j`, the own one straight to the destination. -/
def allToAllGo (p : Nat) (c : Cmd) (k : Nat) (d : Nat × Nat) : List Nat → State → State × XR Unit
  | [], s => (s, .ok ())
  | j :: js, s =>
    let me := (s.group (colGroup c)).rank
    match s.srcBits p c (d.1 - me * colCount c + j * colCount c) (d.2 - me * colCount c + j * colCount c) with
    | (s, .held) => (s, .held)
    | (s, .fail st va) => (s, .fail st va)
    | (s, .ok bs) =>
      if j = me then
        match s.dstWrite p c d.1 bs with
        | (s, .ok _) => allToAllGo p c k d js s
        | r => r
      else allToAllGo p c k d js
        (s.sendTo (colGroup c) j msgChunk (s.chunkMsg c k (packBits (collBits (colIn c)) bs fun _ => 0))
          (some (k % 10)))

/-- This member's own chunk: read, staged, counted in where its destination holds some of it, and sent. -/
def State.ownChunk (s : State) (p : Nat) (c : Cmd) (k : Nat) : State × XR Unit :=
  let g := s.group (colGroup c)
  let m := chunkSpan c g.n k
  let send := fun (s : State) (bs : List Byte) =>
    s.sendOthers (colGroup c) msgChunk (s.chunkMsg c k bs) (some (k % 10))
  let d := dstSpan c g.n g.rank k
  if colReduces (colOp c) then
    match s.srcBits p c m.1 m.2 with
    | (s, .held) => (s, .held)
    | (s, .fail st va) => (s, .fail st va)
    | (s, .ok bs) =>
      let E := ((s.collNow p c).map fun x => SMap.get 0 x.exps k).getD 0
      let es := bs.map fun b =>
        if colRed c = 0 then collElem E (srcWord c b) else ⟨(srcWord c b).toNat, 0⟩
      let s := if d.1 < d.2 then s.stagePartial p c k [g.rank] es
        else s.stageRunsAt p c k fun a => stageRuns (colRed c) a es
      let s := s.updColl p c fun x => { x with
        sent := SMap.set false x.sent k true, nf := x.nf || es.any fun e => e.tag != 0 }
      (send s (if colRed c = 0 then sumWire es else es.flatMap fun e => leBytes 4 e.n.toNat), .ok ())
  else
    -- the elements that come from this member; all sources but ALL_GATHER's are numbered as the buffer
    let own := meetSpan m (rankSpan c g.rank)
    let base := if colOp c = 2 then g.rank * colCount c else 0
    let s := s.updColl p c fun x => { x with sent := SMap.set false x.sent k true }
    let done := fun (s : State) =>
      (s.updColl p c fun x => { x with got := SMap.modify [] x.got k (· ++ [g.rank]) }, XR.ok ())
    if own.2 ≤ own.1 then (s, .ok ())
    else if colOp c = 5 then
      match allToAllGo p c k own (List.range g.n) s with
      | (s, .ok _) => done s
      | r => r
    else match s.srcBits p c (own.1 - base) (own.2 - base) with
    | (s, .held) => (s, .held)
    | (s, .fail st va) => (s, .fail st va)
    | (s, .ok bs) =>
      let raw := packBits (collBits (colIn c)) bs fun _ => 0
      match (send (s.stageRunsAt p c k fun a => [(a, raw)]) raw).dstWrite p c own.1 bs with
      | (s, .ok _) => done s
      | r => r

/-- The own source may be read: its exponent is known, or none is needed (R276). -/
def chunkReady (c : Cmd) (x : Coll) (k : Nat) : Bool :=
  !isSumRed c || decide (k < 256 * x.batches)

/-- A chunk of this member's destination is complete: every rank's part is in. -/
def chunkDone (c : Cmd) (n k : Nat) (x : Coll) : Bool :=
  if colReduces (colOp c) then
    (List.range n).all fun r => (SMap.get ([], []) x.partials k).1.contains r
  else (chunkRanks c n k).all fun r => (SMap.get [] x.got k).contains r

/-- Reads and sends this member's chunks, in order, as far as they are ready. -/
def collSendGo (p : Nat) (c : Cmd) : List Nat → State → State
  | [], s => s
  | k :: ks, s =>
    match s.collNow p c with
    | none => s
    | some x =>
      if SMap.get false x.sent k || s.stageBusy p x k then collSendGo p c ks s
      else if !chunkReady c x k then s
      else match s.ownChunk p c k with
        | (w, .held) => s.waking w
        | (s, .fail st va) => s.missGroup p c st va true
        | (s, .ok _) => collSendGo p c ks s

/-- Once the whole source has been read, its non-finite flag goes to the others (R270). -/
def State.collFlag (s : State) (p : Nat) (c : Cmd) : State :=
  match s.collNow p c with
  | none => s
  | some x =>
    let g := s.group (colGroup c)
    if colNf c && !x.flags.contains g.rank
        && (List.range (collChunks c g.n)).all fun k => SMap.get false x.sent k then
      (s.updColl p c fun x => { x with flags := x.flags ++ [g.rank] }).sendOthers (colGroup c) msgFlag
        (s.groupKey c ++ leBytes 1 (b2n x.nf))
    else s

/-- Writes the chunks of this member's destination that are complete. -/
def collWriteGo (p : Nat) (c : Cmd) : List Nat → State → State
  | [], s => s
  | k :: ks, s =>
    match s.collNow p c with
    | none => s
    | some x =>
      let g := s.group (colGroup c)
      let d := dstSpan c g.n g.rank k
      if d.2 ≤ d.1 || SMap.get false x.written k || !chunkDone c g.n k x then collWriteGo p c ks s
      else if colReduces (colOp c) then
        let m := chunkSpan c g.n k
        let s := s.restage p c k
        let y := (s.collNow p c).getD x
        let bits := reducedBits c (SMap.get 0 y.exps k) (SMap.get ([], []) y.partials k).2
        match s.dstWrite p c (dstIndex c g.rank d.1) ((bits.drop (d.1 - m.1)).take (d.2 - d.1)) with
        | (w, .held) => s.waking w
        | (s, .fail st va) => s.missGroup p c st va true
        | (s, .ok _) => collWriteGo p c ks (s.chunkWritten p c k)
      else collWriteGo p c ks (s.chunkWritten p c k)

/-- No flit of the group's chunks from this member waits for its ACK (R279). -/
def State.collAcked (s : State) (g : Nat) : Bool :=
  (List.range 64).all fun l =>
    !((s.link l).sent ++ (s.link l).held).any fun f =>
      f.kind == 3 && f.group.toNat == g && f.src.toNat == s.coord

/-- The commit point (R279): every destination element written, or on a member without a destination
every chunk acknowledged by the next hop, and every rank's non-finite flag in; then the non-finite word.
A member that still has chunks to send sends them before it ends. -/
def State.collCommit (s : State) (p : Nat) (c : Cmd) : State :=
  match s.collNow p c with
  | none => s
  | some x =>
    let g := s.group (colGroup c)
    let ks := List.range (collChunks c g.n)
    let sent := ks.all fun k => SMap.get false x.sent k
    let ready := if collDstCount c g.n g.rank = 0 then sent && s.collAcked (colGroup c)
      else ks.all fun k =>
        let d := dstSpan c g.n g.rank k
        decide (d.2 ≤ d.1) || SMap.get false x.written k
    let flagged := !colNf c || (List.range g.n).all (x.flags.contains ·)
    let result := collDstCount c g.n g.rank + b2n (colNf c && x.nf) * 2 ^ 40
    let done := fun (s : State) =>
      if sent then s.finish p c (endDone result)
      else s.updColl p c fun x => { x with committed := some result }
    match x.committed with
    | some r => if sent then s.finish p c (endDone r) else s
    | none =>
      if !(ready && flagged) then s
      else if nfWord c g.n g.rank then
        match s.xwrite ⟨p, s.uEngine c⟩ (nfVa c g.n g.rank) (leBytes 8 (b2n x.nf)) with
        | (w, .held) => s.waking w
        | (s, .fail st va) => s.missGroup p c st va true
        | (s, .ok _) => done s
      else done s

/-- An ACK has come: members without a destination may have reached their commit point. -/
def State.commitAcked (s : State) : State :=
  (List.range 16).foldl (fun s p =>
    ((s.part p).cmds.filter fun c => c.op == opCollective && cmdLive c && cmdPhase c == .data).foldl
      (fun s c => s.collCommit p c) s) s

/-- The data phase begins: this member's next batch of exponents is on its way (R276). -/
def State.sendBatch (s : State) (p : Nat) (c : Cmd) (batch : Nat) : State :=
  if isSumRed c && !(batchChunks c (s.group (colGroup c)).n batch).isEmpty then
    match s.elocs p c batch with
    | (s, .ok es) => s.sendOthers (colGroup c) msgExponents
        (s.groupKey c ++ leBytes 8 batch ++ es.flatMap fun e => leBytes 2 e.toNat)
    | (s, .fail st va) => s.missGroup p c st va true
    | (w, .held) => s.waking w
  else s

/-- A reduction's partial chunk: staged where this member's destination holds some of it, and kept while
its buffer is busy. -/
def State.takePartial (s : State) (p : Nat) (c : Cmd) (k : Nat) (ranks : List Nat) (es : List CollElem)
    (d : ChunkData) : State :=
  match s.collNow p c with
  | none => s
  | some x =>
    let g := s.group (gGroup c)
    let span := dstSpan c g.n g.rank k
    if span.2 ≤ span.1 || SMap.get false x.written k then s
    else if s.stageBusy p x k then s.updColl p c fun x => { x with inbox := x.inbox ++ [(k, d)] }
    else s.stagePartial p c k ranks es

/-- Units of the own part that a rank has asked for by their first elements. -/
def askedUnits (l : LoomRun) (t n me rank : Nat) (es : List Nat) : List (Nat × Nat × MoveUnit) :=
  match l.tensors[t]? with
  | none => []
  | some (a, b) => ((moveUnits a b n rank).filter fun u =>
      u.part == a.partOf n me && es.contains (unitKey a u)).map fun u => (t, rank, u)

/-- A chunk of the right shape for its command is counted in; another one changes nothing. -/
def State.takeChunk (s : State) (p : Nat) (c : Cmd) (k : Nat) (d : ChunkData) : State :=
  let g := s.group (gGroup c)
  let m := chunkSpan c g.n k
  let len := m.2 - m.1
  let ranksOk := fun (rs : List (Fin 256)) =>
    rs.all fun r => decide (r.val < g.n) && r.val != g.rank
  match d with
  | .sum ranks es =>
    if c.op == opCollective && isSumRed c && es.length == len && ranksOk ranks && decide (k < collChunks c g.n)
    then s.takePartial p c k (ranks.map (·.val)) es d
    else s
  | .flag ranks nf =>
    if c.op == opCollective && colNf c && ranksOk ranks then
      s.updColl p c fun x =>
        if ranks.any (fun r => x.flags.contains r.val) then x
        else { x with flags := x.flags ++ ranks.map (·.val), nf := x.nf || nf }
    else s
  | .fold ranks es =>
    if c.op == opCollective && colReduces (colOp c) && colRed c != 0 && es.length == len && ranksOk ranks
        && decide (k < collChunks c g.n) then
      s.takePartial p c k (ranks.map (·.val)) (es.map fun w => ⟨w.toNat, 0⟩) d
    else s
  | .bits rank es =>
    let r := meetSpan m (rankSpan c rank.val)
    let have_ := match s.collNow p c with
      | some x => (SMap.get [] x.got k).contains rank.val
      | none => true
    if c.op == opCollective && !colReduces (colOp c) && ranksOk [rank] && decide (r.1 < r.2) && !have_
        && es.length == r.2 - r.1 then
      let raw := packBits (collBits (colIn c)) es fun _ => 0
      match (s.stageRunsAt p c k fun a => [(a, raw)]).dstWrite p c r.1 es with
      | (w, .held) => s.waking w
      | (s, .fail st va) => s.missGroup p c st va true
      | (s, .ok _) => s.updColl p c fun x => { x with got := SMap.modify [] x.got k (· ++ [rank.val]) }
    else s
  | .tensor t es =>
    if isLoomGroup c then
      s.updCmd p c fun y => { y with prog := match y.prog with
        | .loom l => .loom (es.foldl (fun l e => loomTake t e.1 (e.2.1, e.2.2) l) l)
        | g => g }
    else s
  | .ask t rank es =>
    if isLoomGroup c && ranksOk [rank] then
      s.updCmd p c fun y => { y with prog := match y.prog with
        | .loom l => .loom { l with owed := l.owed ++ askedUnits l t g.n g.rank rank.val es }
        | g => g }
    else s

def State.takeInbox (s : State) (p : Nat) (c : Cmd) : State :=
  match s.collNow p c with
  | none => s
  | some k => k.inbox.foldl (fun s e => s.takeChunk p c e.1 e.2) (s.updColl p c fun k => { k with inbox := [] })

/-- Goes on with a COLLECTIVE in its data phase; chunks that waited for a buffer follow as buffers come
free. -/
def collRun (p : Nat) (c : Cmd) : Nat → State → State
  | 0, s => s
  | fuel + 1, s =>
    let ks := List.range (collChunks c (s.group (colGroup c)).n)
    let s' := ((collWriteGo p c ks (collSendGo p c ks s)).collFlag p c).collCommit p c
    match s'.collNow p c with
    | none => s'
    | some x => if x.inbox.isEmpty then s' else collRun p c fuel (s'.takeInbox p c)

def State.collStep (s : State) (p : Nat) (c : Cmd) : State :=
  collRun p c (((s.collNow p c).map fun x => x.inbox.length).getD 0 + 1) s

/-- Goes on with any command over a group in its data phase. -/
def State.groupStep (s : State) (p : Nat) (c : Cmd) : State :=
  if cmdPhase (s.cmdNow p c) != .data then s
  else if c.op == opCollective then s.collStep p c
  else if isLoad c then s.loadStep p c
  else s.loomStep p c

/-- The group's exponents of the next batch have come (R99, R276); one out of turn changes nothing. -/
def State.takeBatch (s : State) (p : Nat) (c : Cmd) (batch : Nat) (es : List (BitVec 16)) : State :=
  match s.collNow p c with
  | none => s
  | some k =>
    if batch != k.batches || es.length != (batchChunks c (s.group (colGroup c)).n batch).length then s
    else match s.elocs p c batch with
      | (w, .held) => s.waking w
      | (s, .fail st va) => s.missGroup p c st va true
      | (s, .ok own) =>
        let s := s.updColl p c (agreeBatch batch [own] [es])
        s.sendBatch p c (batch + 1)

/-- Takes the batches that have come, in their order; a member alone in its group agrees with itself. -/
def drainBatches (p : Nat) (c : Cmd) : Nat → State → State
  | 0, s => s
  | fuel + 1, s =>
    match s.collNow p c with
    | none => s
    | some k =>
      match k.batchIn.find? fun e => e.1 == k.batches with
      | some e => drainBatches p c fuel (s.takeBatch p c e.1 e.2)
      | none =>
        let own := (batchChunks c (s.group (colGroup c)).n k.batches).map fun _ => (0x8000 : BitVec 16)
        if (s.group (colGroup c)).n = 1 ∧ own ≠ [] then
          drainBatches p c fuel (s.takeBatch p c k.batches own)
        else s

def State.drainAll (s : State) (p : Nat) (c : Cmd) : State :=
  if isSumRed c then drainBatches p c (collChunks c (s.group (colGroup c)).n / 256 + 1) s else s

def State.startData (s : State) (p : Nat) (c : Cmd) : State :=
  let s := s.updColl p c fun k => { k with phase := .data }
  if c.op == opCollective then
    let hs := ((s.collNow p c).map (·.headers)).getD []
    let s := s.updColl p c (agreeBatch 0 [] (hs.map (·.elocs)))
    (((s.sendBatch p c 1).drainAll p c).takeInbox p c).groupStep p c
  else if isLoad c then s.loadBegin p c
  else
    let s := match (s.cmdNow p c).prog with
      | .loom l => s.updCmd p c fun y => { y with prog := .loom { l with owed := s.loomOwes c l } }
      | _ => s
    (s.takeInbox p c).groupStep p c

/-- The mismatch record of R277. -/
def State.mismatch (s : State) (p : Nat) (c : Cmd) (own : CollHeader) (st detail result : Nat)
    (lo hi : Nat × Nat) : State :=
  let seq := s.seqNext
  let s := s.record
    { code := 0x3020, unit := s.uPartHelm p, part := some p
      var := some (64, [(0x10, 8, own.hash.toNat), (0x18, 4, own.step.toNat), (0x1C, 2, gGroup c),
        (0x1E, 1, b2n own.stepEn), (0x1F, 1, st), (0x20, 8, lo.1), (0x28, 8, hi.1), (0x30, 4, lo.2),
        (0x34, 4, hi.2), (0x38, 8, gOrd c)]) }
  s.endGroup p c st detail (some result) false (some seq)

/-- Every header is in: the outcome of R277. -/
def State.headersDone (s : State) (p : Nat) (c : Cmd) : State :=
  match s.collNow p c with
  | none => s
  | some k =>
    let g := s.group k.group
    if k.phase != .header || !((List.range g.n).all fun r => k.headers.any fun h => h.rank == r) then s
    else match k.headers.find? fun h => h.rank == g.rank with
      | none => s
      | some own =>
        let hashes := k.headers.map fun h => h.hash.toNat
        let steps := k.headers.map fun h => h.step.toNat
        let lo := (hashes.foldl min own.hash.toNat, steps.foldl min own.step.toNat)
        let hi := (hashes.foldl max own.hash.toNat, steps.foldl max own.step.toNat)
        if k.headers.all (·.stepEn) && lo.2 != hi.2 then
          s.mismatch p c own stStepSkew 0x1021 (lo.2 + hi.2 * 2 ^ 32) lo hi
        else if lo.1 != hi.1 then
          s.mismatch p c own stDescMismatch 0x1020 (if hi.1 = own.hash.toNat then lo.1 else hi.1) lo hi
        else s.startData p c

/-- Takes a header; one of a rank that is not in the group or has sent one already changes nothing. -/
def State.takeHeader (s : State) (p : Nat) (c : Cmd) (h : CollHeader) : State :=
  match s.collNow p c with
  | none => s
  | some k =>
    if k.phase != .header || (s.group k.group).n ≤ h.rank || k.headers.any (fun x => x.rank == h.rank) then s
    else (s.updColl p c fun k => { k with headers := k.headers ++ [h] }).headersDone p c

/-- Sends this member's header once its first exponents can be read; host memory that is held keeps it
back. -/
def State.sendHeader (s : State) (p : Nat) (c : Cmd) : State :=
  match s.collNow p c with
  | none => s
  | some k =>
    let g := s.group k.group
    if k.phase != .header || k.headers.any (fun h => h.rank == g.rank) then s
    else
      let x := if c.op == opCollective then s.elocs p c 0 else (s, .ok [])
      match x with
      | (w, .held) => s.waking w
      | (s, .fail st va) => s.missGroup p c st va true
      | (s, .ok es) =>
        let step := c.op == opCollective && colStepEn c
        let h : CollHeader :=
          { rank := g.rank, hash := k.hash, stepEn := step
            step := if step then BitVec.ofNat 32 (colStep c) else 0, elocs := es }
        (s.sendOthers k.group msgHeader (headerBytes (s.groupKey c) h)).takeHeader p c h

/-! Admission (R274). -/

/-- The oldest dispatched command over a group that is not admitted. -/
def State.nextAdmit (s : State) (p : Nat) : Option Cmd :=
  ((s.part p).cmds.filter cmdWaiting).foldl (fun (a : Option Cmd) c =>
    match a with
    | none => some c
    | some b => if c.order < b.order then some c else some b) none

def State.admitted (s : State) (p : Nat) : Nat :=
  ((s.part p).cmds.filter fun c => cmdAdmitted c && c.op == opCollective).length

/-- Its header phase begins, with the headers that came early. -/
def State.enterHeader (s : State) (p : Nat) (c : Cmd) (hash : Dword) : State :=
  let epoch := (s.group (gGroup c)).epoch.toNat
  let mine := (s.part p).early.filter fun e => e.1 == gGroup c && e.2.1 == epoch && e.2.2.1 == gOrd c
  let s := s.updPart p fun x => { x with
    early := x.early.filter fun e => decide (gOrd c < e.2.2.1) }
  let s := s.updColl p c fun k => { k with phase := .header, hash := hash }
  (mine.foldl (fun s e => s.takeHeader p c e.2.2.2) s).sendHeader p c

def State.admitLoom (s : State) (p : Nat) (c : Cmd) (epoch : Nat) : State :=
  match s.loomOpen p c with
  | (w, .held) => s.waking w
  | (s, .miss st m) => s.missGroup p c st m true
  | (s, .fail st detail result tell) => s.endGroup p c st detail (some result) tell
  | (s, .ok ts hashed) =>
    let s := (s.loomsTake p c (s.moveTiles p ts)).updCmd p c fun y => { y with prog := match y.prog with
      | .loom l => .loom { l with tensors := ts }
      | g => g }
    s.enterHeader p c (loomHash c epoch hashed)

/-- The head of a LOAD must have HOSTSRC on every entry (R390). -/
def State.admitLoad (s : State) (p : Nat) (c : Cmd) (epoch : Nat) : State :=
  match s.loadOf p c with
  | none => s
  | some l =>
    match if (s.group l.coll.group).rank = 0 then l.entries.zipIdx.find? (fun e => !e.1.hostSrc)
        else none with
    | some e => s.endGroup p c stDeviceFault 0x1302 (some e.2) true
    | none => s.enterHeader p c (loadHash c epoch l.entries)

/-- A kernel runs on the FEED core. -/
def State.feedRuns (s : State) (p : Nat) (c : Cmd) : Bool :=
  match s.coreAt p (colFeedCore c) with
  | some k => (s.kernelOf k).isSome
  | none => false

def State.admitColl (s : State) (p : Nat) (c : Cmd) (epoch : Nat) : State :=
  let g := s.group (colGroup c)
  let src := collSrcBytes c g.n g.rank
  let dst := collRanges c g.n g.rank
  if colFeed c && !s.feedRuns p c then s.endGroup p c stDeviceFault 0x1040 none true
  else if colFeed c && !scrIn (colDst c) (collDstBytes c g.n g.rank) then
    s.endGroup p c stDeviceFault 0x0204 none true
  else match s.rangeCheck ⟨p, s.uEngine c⟩ .read (if src = 0 then [] else [(colSrc c, src)]) with
    | (s, some (st, va)) => s.missGroup p c st va true
    | (s, none) =>
      match s.rangeCheck ⟨p, s.uEngine c⟩ .write (if colFeed c then [] else dst) with
      | (s, some (st, va)) => s.missGroup p c st va true
      | (s, none) => s.enterHeader p c (collHash c epoch)

/-- ROOT and the sizes of R267. -/
def collSizeBad (c : Cmd) (n : Nat) : Bool :=
  ((colOp c == 3 || colOp c == 4) && decide (n ≤ colRoot c))
  || decide (2 ^ 40 ≤ n * colCount c)
  || decide (2 ^ 40 ≤ n * bitBytes (colCount c) (collBits (colIn c)))
  || decide (2 ^ 40 ≤ n * bitBytes (colCount c) (collBits (colOut c)))

/-- Staging: unusable, no slot free now, or a slot in every staging core (R274, R280). -/
def State.stagingBad (s : State) (p : Nat) : Bool :=
  (s.part p).col.stages.isEmpty
  || (s.part p).col.stages.any fun e => (s.coreAt p e.core.toNat).isNone

def State.stagingFull (s : State) (p : Nat) : Bool :=
  (s.part p).col.stages.any fun e => decide (e.slots.toNat ≤ s.admitted p)

/-- The lowest slot that no admitted collective holds (R274). -/
def State.takeSlot (s : State) (p : Nat) (c : Cmd) : State :=
  let held := ((s.part p).cmds.filter fun y => cmdAdmitted y && y.op == opCollective).filterMap fun y =>
    y.coll.map (·.slot)
  s.updColl p c fun x => { x with slot := ((List.range 16).find? fun i => !held.contains i).getD 0 }

/-- Admission of the command whose turn it is, in the order of checks of log entry 22. -/
def State.admitCmd (s : State) (p : Nat) (c : Cmd) : State :=
  let g := s.group (gGroup c)
  let ord := gOrd c
  let col := c.op == opCollective
  let last := (s.part p).col
  if !s.groupFor p (gGroup c) then s.endGroup p c stDeviceFault 0x1010
  else if g.state == .broken then s.endGroup p c stMemberLost 0x1011 (some g.lostRank)
  else if col && collSizeBad c g.n then s.endGroup p c stDeviceFault 0x0204
  else if last.any && decide (ord ≤ last.last.toNat) then
    let seq := s.seqNext
    (s.eventP 0x3023 (s.uPartHelm p) p).endGroup p c stOrderStall 0x1001 none false (some seq)
  else if col && s.stagingBad p then s.endGroup p c stBusy 0x1022
  else if col && s.stagingFull p then s
  else
    let gone := (s.part p).abandoned.contains (gGroup c, g.epoch.toNat, ord)
    let s := s.updPart p fun x => { x with
      col := { x.col with last := BitVec.ofNat 48 ord, any := true }
      abandoned := x.abandoned.filter fun e => decide (ord < e.2.2) }
    if gone then s.endGroup p c stOrderStall 0x1003
    else if col then (s.takeSlot p c).admitColl p c g.epoch.toNat
    else if isLoad c then s.admitLoad p c g.epoch.toNat
    else s.admitLoom p c g.epoch.toNat

/-- Admitted commands that held host memory kept back go on first. -/
def State.resumeGroups (s : State) (p : Nat) : State :=
  ((s.part p).cmds.filter cmdAdmitted).foldl (fun s c => (s.sendHeader p c).groupStep p c) s

def execCollectiveAdmit (p : Fin 16) (s : State) : Ans :=
  .next (
    if !s.enabled p.val then s
    else
      let s := s.resumeGroups p.val
      match s.nextAdmit p.val with
      | some c => if c.coll.isSome then s.admitCmd p.val c else s
      | none => s)

/-- The row of a COLLECTIVE hands it to the collective engine, where it waits for its admission. -/
def State.startColl (s : State) (p : Nat) (c : Cmd) : State :=
  s.updCmd p c fun y => { y with
    prog := .coll { group := colGroup c, ordinal := colOrd c, hash := 0 } }

def isColl (op : Nat) (c : Cmd) : Bool := c.op == opCollective && colOp c == op

def execAllReduce (p : Fin 16) (q : Fin 64) (slot : BitVec 16) (s : State) : Ans :=
  s.onNew p q slot (isColl 0) fun c => s.startColl p.val c
def execReduceScatter (p : Fin 16) (q : Fin 64) (slot : BitVec 16) (s : State) : Ans :=
  s.onNew p q slot (isColl 1) fun c => s.startColl p.val c
def execAllGather (p : Fin 16) (q : Fin 64) (slot : BitVec 16) (s : State) : Ans :=
  s.onNew p q slot (isColl 2) fun c => s.startColl p.val c
def execReduce (p : Fin 16) (q : Fin 64) (slot : BitVec 16) (s : State) : Ans :=
  s.onNew p q slot (isColl 3) fun c => s.startColl p.val c
def execBroadcast (p : Fin 16) (q : Fin 64) (slot : BitVec 16) (s : State) : Ans :=
  s.onNew p q slot (isColl 4) fun c => s.startColl p.val c
def execAllToAll (p : Fin 16) (q : Fin 64) (slot : BitVec 16) (s : State) : Ans :=
  s.onNew p q slot (isColl 5) fun c => s.startColl p.val c

/-! Messages of the other members. -/

/-- The live command that a message names by group, epoch and ordinal (R275). -/
def State.epochCmd (s : State) (p : Nat) (g : GroupName) (ord : BitVec 48) (f : Cmd → Bool) :
    Option Cmd :=
  if (s.group g.id.toNat).epoch == g.epoch then s.groupCmd p g.id.toNat ord.toNat f else none

/-- An ordinal that this member's partition has not come to yet (R273). -/
def State.ordAhead (s : State) (p : Nat) (ord : BitVec 48) : Bool :=
  let x := (s.part p).col
  s.enabled p && !(x.any && decide (ord.toNat ≤ x.last.toNat))

/-- A header that comes before this member's admission is kept for it; one of an ordinal already past
is dropped. -/
def execCollectiveHeader (p : Fin 16) (g : GroupName) (ord : BitVec 48) (h : CollHeader) (s : State) :
    Ans :=
  .next (match s.epochCmd p.val g ord cmdAdmitted with
    | some c => s.takeHeader p.val c h
    | none =>
      let e := (g.id.toNat, g.epoch.toNat, ord.toNat, h)
      if !s.ordAhead p.val ord
          || (s.part p.val).early.any (fun o => o.1 == e.1 && o.2.1 == e.2.1 && o.2.2.1 == e.2.2.1
            && o.2.2.2.rank == h.rank) then s
      else s.updPart p.val fun x => { x with early := x.early ++ [e] })

/-- A batch is kept until this member can take it, in the order of the batches. -/
def execExponentBatch (p : Fin 16) (g : GroupName) (ord : BitVec 48) (batch : Nat)
    (elocs : List (BitVec 16)) (s : State) : Ans :=
  .next (match s.epochCmd p.val g ord fun c => cmdAdmitted c && isSumRed c
      && c.op == opCollective with
    | some c =>
      let s := s.updColl p.val c fun k => { k with batchIn := k.batchIn ++ [(batch, elocs)] }
      if cmdPhase c == .data then (s.drainAll p.val c).groupStep p.val c else s
    | none => s)

/-- A chunk; one that comes in the header phase is kept until the data phase. -/
def execCollectiveChunk (p : Fin 16) (g : GroupName) (ord : BitVec 48) (chunk : Nat)
    (data : ChunkData) (s : State) : Ans :=
  .next (match s.epochCmd p.val g ord cmdAdmitted with
    | some c =>
      if cmdPhase c == .data then (s.takeChunk p.val c chunk data).groupStep p.val c
      else s.updColl p.val c fun k => { k with inbox := k.inbox ++ [(chunk, data)] }
    | none => s)

/-- 50 ms without a chunk sent or received (R281); a member whose source is held before its header
stalls too. -/
def execCollectiveStallTimeout (p : Fin 16) (g : BitVec 12) (ord : BitVec 48) (s : State) : Ans :=
  .next (match s.groupCmd p.val g.toNat ord.toNat fun c => !isLoad c && (cmdPhase c == .data
      || (cmdPhase c == .header && match c.coll with
        | some k => !(k.headers.any fun h => h.rank == (s.group k.group).rank)
        | none => false)) with
    | some c => s.endGroup p.val c stOrderStall 0x1002 none true
    | none => s)

/-- Some member's header has not come within the limit (R282). -/
def execHeaderTimeout (p : Fin 16) (g : BitVec 12) (ord : BitVec 48) (s : State) : Ans :=
  .next (match s.groupCmd p.val g.toNat ord.toNat fun c => cmdPhase c == .header with
    | some c => s.endGroup p.val c stOrderStall 0x1004 none true
    | none => s)

/-- Another member abandons: a live command ends at once (R281), and one that this member has not come
to yet ends at its admission (R282, R284). -/
def execAbandon (p : Fin 16) (g : GroupName) (ord : BitVec 48) (rank : Fin 256) (s : State) : Ans :=
  .next (
    let x := s.group g.id.toNat
    if x.epoch == g.epoch && (decide (x.n ≤ rank.val) || rank.val == x.rank) then s
    else match s.epochCmd p.val g ord fun _ => true with
      | some c => s.endGroup p.val c stOrderStall 0x1003
      | none =>
        let e := (g.id.toNat, g.epoch.toNat, ord.toNat)
        if s.ordAhead p.val ord && !(s.part p.val).abandoned.contains e then
          s.updPart p.val fun x => { x with abandoned := x.abandoned ++ [e] }
        else s)

/-- A keep-alive restarts the timers of R281, which are time and not state: the command it names goes on
as far as it can. -/
def execKeepAlive (p : Fin 16) (g : BitVec 12) (ord : BitVec 48) (rank : Fin 256) (s : State) : Ans :=
  .next (match s.groupCmd p.val g.toNat ord.toNat fun c => isLoomGroup c && cmdPhase c == .data
      && decide (rank.val < (s.group g.toNat).n) with
    | some c => s.groupStep p.val c
    | none => s)

/-- A core that stages or feeds a collective is reset (R285). -/
def State.collCoreReset (s : State) (core : Nat) : State :=
  (List.range 16).foldl (fun s p =>
    let uses := fun (c : Cmd) => c.op == opCollective && cmdLive c
      && ((colFeed c && s.coreAt p (colFeedCore c) == some core)
        || (cmdAdmitted c && (s.part p).col.stages.any fun e => s.coreAt p e.core.toNat == some core))
    ((s.part p).cmds.filter uses).foldl
      (fun s c => s.endGroup p c stDeviceFault 0x0013 none true) s) s

end Sys2Proof.Machine
end

