-- ==== Sys2Proof/Machine/Recovery.lean ====
section
/-! DEFINITION. Recovery of weight chunks from replicas: RECOVERY_FETCH, RECOVERY_ANSWER,
REPLICA_TIMEOUT and RECOVERY_TIMEOUT (R400 to R402). -/

namespace Sys2Proof.Machine

/-- What follows a recovery's outcome: waiting Loom moves and requests. -/
def State.afterRecovery (s : State) (p : Nat) : State := (s.genEvents p).loomRetry p

/-- The first copy of a chunk that reads without poison. -/
def copyGo (p k shard chunk : Nat) : List Nat → State → Found → State × Option (List Byte) × Found
  | [], s, f => (s, none, f)
  | j :: js, s, f =>
    let e := manEntry ((s.part p).wset k) shard
    let x := s.xreadLit ⟨p, s.loomFor p (chunkVa e j chunk)⟩ (chunkVa e j chunk) (chunkLen e chunk)
    match x.2.1 with
    | .ok bs => (x.1, some bs, f ++ x.2.2)
    | _ => copyGo p k shard chunk js x.1 (f ++ x.2.2)

/-- The present source gave nothing acceptable: the next one is tried; a table entry that cannot be read
loses the set. -/
def State.nextSource (s : State) (p k : Nat) (r : Recovery) : State :=
  let t := s.tableCrc p k r.shard r.chunk
  match t.2.1 with
  | none => (t.1.loseSet p k r).found t.2.2
  | some crc =>
    let x := t.1.recoverFrom p k r crc (r.source + 1)
    x.1.found (t.2.2 ++ x.2)

/-- Recoveries whose read of host memory was held try again (R238, R400). -/
def State.retryHost (s : State) (p k : Nat) : State :=
  (((s.part p).wset k).recoveries.filter fun r => r.source == 4).foldl (fun s r => s.nextSource p k r) s

def State.retryHosts (s : State) : State :=
  (List.range 16).foldl (fun s p =>
    if (List.range 16).any fun k => ((s.part p).wset k).recoveries.any fun r => r.source == 4 then
      ((List.range 16).foldl (fun s k => s.retryHost p k) s).afterRecovery p
    else s) s

/-- Another member asks this one for a chunk (R400): its bytes, or NONE. It is served as it comes, ahead
of what any command moves next. -/
def execRecoveryFetch (p set : Fin 16) (shard chunk : Nat) (coord : BitVec 8) (s : State) : Ans :=
  .next (
    let w := (s.part p.val).wset set.val
    let e := manEntry w shard
    let x := if (w.state == 2 || w.state == 3) && decide (shard < w.entries.length ∧ chunk < manChunks e)
        then copyGo p.val set.val shard chunk (List.range e.copies) s []
        else (s, none, [])
    let head := [BitVec.ofNat 8 set.val] ++ leBytes 4 shard ++ leBytes 4 chunk
    let s := x.1.found x.2.2
    s.post msgRecAnswer coord.toNat p.val 0 (s.anyStream msgRecAnswer)
      (head ++ match x.2.1 with | some bs => [1] ++ bs | none => [0]))

/-- The recovery of a chunk that waits for a replica's answer. -/
def State.askedRecovery (s : State) (p k shard chunk : Nat) : Option Recovery :=
  ((s.part p).wset k).recoveries.find? fun r =>
    r.shard == shard && r.chunk == chunk && decide (r.source ≤ 3)

def State.answerRecovery (s : State) (p k : Nat) (r : Recovery) (bytes : Option (List Byte)) : State :=
  match bytes with
  | none => s.nextSource p k r
  | some bs =>
    let t := s.tableCrc p k r.shard r.chunk
    match t.2.1 with
    | none => (t.1.loseSet p k r).found t.2.2
    | some crc =>
      let o := t.1.offerChunk p k r crc bs
      let s := o.1.found t.2.2
      if o.2 then s else s.nextSource p k r

/-- A replica answers, with the chunk or with NONE. -/
def execRecoveryAnswer (p set : Fin 16) (shard chunk : Nat) (bytes : Option (List Byte))
    (s : State) : Ans :=
  .next (match s.askedRecovery p.val set.val shard chunk with
    | none => s
    | some r => (s.answerRecovery p.val set.val r bytes).afterRecovery p.val)

/-- No answer within 50 ms counts as NONE. -/
def execReplicaTimeout (p set : Fin 16) (shard chunk : Nat) (s : State) : Ans :=
  .next (match s.askedRecovery p.val set.val shard chunk with
    | none => s
    | some r => (s.nextSource p.val set.val r).afterRecovery p.val)

/-- A recovery found no accepted chunk within 2 s: the set is LOST (R402). -/
def execRecoveryTimeout (p set : Fin 16) (shard chunk : Nat) (s : State) : Ans :=
  .next (match ((s.part p.val).wset set.val).recoveries.find? fun r =>
      r.shard == shard && r.chunk == chunk with
    | none => s
    | some r => (s.loseSet p.val set.val r).afterRecovery p.val)

end Sys2Proof.Machine
end

