-- ==== Sys2Proof/Machine/Links.lean ====
section
/-! DEFINITION. The link layer of the peer links (R243 to R249, R251 to R258), and the training,
failure and quarantine of the host-link ports (R491 to R495). -/

namespace Sys2Proof.Machine

/-- A bring-up step has completed. -/
def State.stepDone (s : State) (n : Nat) : Bool := s.bu.done != 0xF && decide (n ≤ s.bu.done.toNat)

/-! Route changes. -/

/-- UL_ROUTED: this module when it uses the port, and as many others as their own routes make it, a
free value (R496). -/
def State.refreshRouted (s : State) : State :=
  ((List.range 2).foldl (fun s u =>
    let n := if portLive (s.port u) then
        b2n (s.hostPort == some u) + Config.freePick s.free (1000 + u) % 64
      else 0
    s.updPort u fun x => { x with routed := BitVec.ofNat 8 n }) s).tickFree

/-- What no quarantined port holds any longer goes on: interrupts in their order, and the recoveries'
reads of host memory (R238, R400). -/
def State.releaseIrqs (s : State) : State :=
  if s.hostHeld then s
  else State.retryHosts { s with
    heldIrqs := [], out := s.out ++ s.heldIrqs.map fun e => Out.irq e.1 e.2 }

/-- This module's links that are out of service, bit by bit (R253). -/
def State.ownStates (s : State) : BitVec 64 :=
  BitVec.ofNat 64 ((List.range 64).foldl (fun a l => a + if linkServes (s.link l) then 0 else 2 ^ l) 0)

/-- Routes change: it is recorded, this module's link states go out to the others, and groups with an
unreachable member break (R253, R264). -/
def State.routesChanged (s : State) (unit : Nat) : State :=
  (((s.event 0x3010 unit).emit (.linkStates s.ownStates)).refreshRouted.releaseIrqs).breakLost

/-- `f` may change what is in service; when it does for link `l`, the routes change. -/
def State.withService (s : State) (l : Nat) (f : State → State) : State :=
  let s' := f s
  if linkServes (s.link l) == linkServes (s'.link l) then s' else s'.routesChanged (uLink l)

/-! Replay (R245, R246). -/

/-- The sender replays from its oldest flit without an ACK. -/
def State.replayLink (s : State) (l : Nat) : State :=
  match (s.link l).sent with
  | [] => s
  | f :: _ =>
    let s := s.updLink l fun k => { k with replays := satInc k.replays, replayCount := k.replayCount + 1 }
    s.emit (.replay l f.seq.toNat)

/-- Every flit up to the acknowledged number leaves the buffer; a number not in it changes nothing. -/
def State.ackThrough (s : State) (l : Nat) (seq : BitVec 12) : State :=
  let k := s.link l
  match k.sent.findIdx? fun f => f.seq == seq with
  | none => s
  | some i =>
    (s.updLink l fun k => { k with sent := k.sent.drop (i + 1), replayCount := 0 }).sendHeld l

/-- A link that has replayed one flit 8 times in vain retrains; else it replays (R246). -/
def State.replayOrRetrain (s : State) (l : Nat) : State :=
  if 8 ≤ (s.link l).replayCount then s.updLink l fun k => { k with state := 1, replayCount := 0 }
  else s.replayLink l

def execAckNack (l : Fin 64) (seq : BitVec 12) (nack : Bool) (s : State) : Ans :=
  .next (
    if !linkRuns (s.link l.val) then s
    else if nack then (s.ackThrough l.val (seq - 1)).commitAcked.replayOrRetrain l.val
    else (s.ackThrough l.val seq).commitAcked)

def execAckTimeout (l : Fin 64) (s : State) : Ans :=
  .next (if linkRuns (s.link l.val) && !(s.link l.val).sent.isEmpty then s.replayOrRetrain l.val else s)

/-! Violations and quarantine (R256, R257). -/

/-- Violations are counted over 1 ms of the link's own clock; whether the earlier ones still lie within
it is time, and so a free value (log entry 20). -/
def windowNext (occasion key old : Nat) : Nat :=
  if Config.freePick occasion key % 2 == 1 then 1 else old + 1

def State.quarantine (s : State) (l : Nat) : State :=
  s.withService l fun s =>
    ((s.updLink l fun k => { k with state := 4, quar := true }).event 0x3004 (uLink l)).emit
      (.control l true false)

/-- A flit with this sequence number broke the protocol. -/
def State.violation (s : State) (l seq reason : Nat) : State :=
  let n := windowNext s.free (uLink l) (s.link l).window
  let s := s.tickFree.updLink l fun k => { k with
    viol := satInc k.viol, violLast := BitVec.ofNat 8 reason, window := n }
  let s := s.emit (.nack (uLink l) (some seq) reason)
  if 64 < n && linkRuns (s.link l) then s.quarantine l else s

/-- PL_QCLR: nothing else ends a quarantine. A link that is up returns with the lanes it has (R257). -/
def State.plQclr (s : State) (l : Nat) : State :=
  if (s.link l).quar then
    s.withService l fun s =>
      ((s.updLink l fun k => { k with
          quar := false, window := 0
          state := if k.state == 4 then (if k.lanes == 2 then 2 else 3) else k.state }).event 0x3005
        (uLink l)).emit (.control l false false)
  else s

/-! Lanes and training (R247 to R249). -/

/-- The lowest of the tile's two spare lanes that no link has taken. -/
def State.tileSpare (s : State) (l : Nat) : Option Nat :=
  [0, 1].find? fun i => !(List.range 64).any fun k => k % 4 == l % 4 && (s.link k).took.contains i

/-- A spare stands in for a lane (R247, R458). -/
def State.standIn (s : State) (l lane i cause : Nat) : State :=
  let s := s.updLink l fun k => { k with
    spared := true, spareIdx := i == 1, sparedLane := lane == 1, took := k.took ++ [i] }
  (s.repairRec (uLink l) (lane + 2 * i) 5 cause).event 0x3002 (uLink l)

/-- Spares stand in for lanes out of use, while both ends have one free; the lanes that stay out. -/
def sparesGo (l cause : Nat) : List Nat → Nat → State → List Nat → State × List Nat
  | [], _, s, out => (s, out)
  | b :: bs, n, s, out => match n, s.tileSpare l with
    | m + 1, some i => sparesGo l cause bs m (s.standIn l b i cause) out
    | _, _ => sparesGo l cause bs n s (out ++ [b])

/-- What a training or a diagnosis showed of the two lanes, a stand-in counted as the lane it replaces.
`spares` = how many the other end has free. -/
def State.linkLanes (s : State) (l : Nat) (ok0 ok1 : Bool) (spares cause : Nat) : State :=
  let was := s.link l
  let r := sparesGo l cause ((if ok0 then [] else [0]) ++ (if ok1 then [] else [1])) spares s []
  let n := 2 - r.2.length
  let s := r.1.updLink l fun k => { k with
    lanes := BitVec.ofNat 2 n, lane0Bad := r.2.contains 0, lane1Bad := r.2.contains 1
    state := if n = 0 then 5 else if k.quar then 4 else if n = 2 then 2 else 3 }
  if n = 0 then s.event 0x3001 (uLink l)
  else if n = 1 && !(was.lane0Bad == r.2.contains 0 && was.lane1Bad == r.2.contains 1) then
    s.event 0x3003 (uLink l)
  else s

/-- The link replays from its oldest unacknowledged flit and goes on. -/
def State.linkResumes (s : State) (l : Nat) : State :=
  if linkRuns (s.link l) then (s.replayLink l).sendHeld l else s

/-- The link leads somewhere: its dimension has more than one module (R241), and its tile is not cut
off (R27). -/
def State.connected (s : State) (l : Nat) : Bool :=
  decide (1 < s.dimSize (dirOf l / 2)) && !s.tileCut (l % 4)

/-- A training ends. One that fails is followed by the diagnosis of each lane, and by another training
when no lane is to blame; the third failure in a row makes the link FAILED (R246 to R248). -/
def State.trained (s : State) (l : Nat) (t : LinkTraining) : State :=
  let n := if t.ok then 0 else (s.link l).fails + 1
  let s := s.updLink l fun k => { k with fails := n }
  if 3 ≤ n then (s.updLink l fun k => { k with state := 5, lanes := 0 }).event 0x3001 (uLink l)
  else if !t.ok && t.lanes.getLsbD 0 && t.lanes.getLsbD 1 then s.updLink l fun k => { k with state := 1 }
  else (s.linkLanes l (t.lanes.getLsbD 0) (t.lanes.getLsbD 1) t.partner.spares.val 6).linkResumes l

/-- A link trains with its partner; one cabled wrongly stays DOWN (R258). -/
def State.trainBody (s : State) (l : Nat) (t : LinkTraining) : State :=
  if !s.connected l || (s.link l).disable then s
  else
    let s := s.updLink l fun k => { k with
      peerCoord := t.partner.coord, peerLink := t.partner.link, mated := true, mgmtMode := false
      partnerOut := k.partnerOut && k.state == 1 }
    let right := t.partner.coord.toNat == s.neighbour s.coord (dirOf l)
      && t.partner.link.toNat == partnerLink l
    if right || !(t.lanes.getLsbD 0 || t.lanes.getLsbD 1) then s.trained l t
    else (s.updLink l fun k => { k with state := 0, lanes := 0 }).event 0x3006 (uLink l)

def State.trainLink (s : State) (l : Nat) (t : LinkTraining) : State :=
  s.withService l fun s => s.trainBody l t

/-- A neighbour that has not yet come to S8 is trained in management mode, and with a good descriptor
this module tells it the coordinate that it expects on that side, and the sizes (R449, R451). -/
def State.trainMgmt (s : State) (l : Nat) (t : LinkTraining) : State :=
  let n := b2n (t.lanes.getLsbD 0) + b2n (t.lanes.getLsbD 1)
  if n = 0 then s
  else
    let s := s.updLink l fun k => { k with
      mgmtMode := true, mated := true, lanes := BitVec.ofNat 2 n, state := if n = 2 then 2 else 3 }
    if s.bu.descBad then s
    else
      let m := s.mod
      s.emit (.place l (s.neighbour s.coord (dirOf l))
        (m.sizeX.toNat + m.sizeY.toNat * 4 + m.sizeZ.toNat * 16 + m.sizeW.toNat * 64))

/-- The window of corrected symbols of one lane ends (R247). -/
def execLaneFecWindow (l : Fin 64) (lane : Bool) (corr : BitVec 32) (spares : Fin 3) (s : State) : Ans :=
  .next (
    let n := l.val
    let k := s.link n
    if !linkRuns k then s
    else
      let s := s.updLink n fun k => { k with fecCorr := satAdd k.fecCorr corr.toNat }
      let bad := if lane then k.lane1Bad else k.lane0Bad
      if corr.toNat ≤ 2 ^ k.ceLog2.toNat || bad then s
      else s.withService n fun s =>
        (s.linkLanes n (lane && !k.lane0Bad) (!lane && !k.lane1Bad) spares.val 5).linkResumes n)

/-- PL_RETRAIN and PL_DISABLE (R258). -/
def State.plRetrain (s : State) (l : Nat) : State :=
  if s.stepDone 8 && s.connected l && !(s.link l).disable then
    s.withService l fun s => s.updLink l fun k => { k with state := 1, replayCount := 0, fails := 0 }
  else s

def State.plDisable (s : State) (l : Nat) (off : Bool) : State :=
  if off == (s.link l).disable then s
  else if off then
    s.withService l fun s =>
      (s.updLink l fun k => { k with disable := true, state := 0, lanes := 0 }).emit (.control l true true)
  else ((s.updLink l fun k => { k with disable := false }).emit (.control l false true)).plRetrain l

/-! Host-link ports (R493, R495). -/

def lanesUp (lanes : BitVec 4) : Nat := ((List.range 4).filter fun i => lanes.getLsbD i).length

/-- A port trains at the widest of 4, 2 or 1 lanes that its working lanes allow. -/
def State.trainPort (s : State) (u : Nat) (lanes : BitVec 4) : State :=
  let n := lanesUp lanes
  let w := if n = 4 then 4 else if 2 ≤ n then 2 else n
  let before := (s.port u).state
  let s := s.updPort u fun x => { x with
    lanes := BitVec.ofNat 3 w, mated := true
    state := if w = 0 then 5 else if x.quar then 4 else if w = 4 then 2 else 3 }
  let s := if w = 0 then s.event 0x8001 (uPort u)
    else if w = 4 then s else s.event 0x8003 (uPort u)
  if before == (s.port u).state then s else s.routesChanged (uPort u)

/-- The port leaves service. -/
def State.portDown (s : State) (u st : Nat) : State :=
  let was := portLive (s.port u)
  let s := s.updPort u fun x => { x with state := BitVec.ofNat 3 st, lanes := 0 }
  if was then s.routesChanged (uPort u) else s

/-- The tile of a port: UL0 on T0, UL1 on T3 (R43). -/
def tileOfPort (u : Nat) : Nat := 3 * u

def State.ulRetrain (s : State) (u : Nat) : State :=
  if (s.port u).disable || s.tileCut (tileOfPort u) then s else s.portDown u 1

def State.ulDisable (s : State) (u : Nat) (off : Bool) : State :=
  if off == (s.port u).disable then s
  else if off then (s.updPort u fun x => { x with disable := true }).portDown u 0
  else (s.updPort u fun x => { x with disable := false }).ulRetrain u

def State.ulQclr (s : State) (u : Nat) : State :=
  if (s.port u).quar then
    let s := s.updPort u fun x => { x with
      quar := false, window := 0
      state := if x.state == 4 then (if x.lanes == 4 then 2 else 3) else x.state }
    ((s.event 0x8011 (uPort u)).refreshRouted).releaseIrqs
  else s

/-- A flit from the adapter broke the protocol (R494, R495). -/
def State.ulViolation (s : State) (u reason : Nat) : State :=
  let n := windowNext s.free (uPort u) (s.port u).window
  let s := s.tickFree.updPort u fun x => { x with
    viol := satInc x.viol, violLast := BitVec.ofNat 8 reason, window := n }
  let s := s.emit (.nack (uPort u) none reason)
  if 64 < n && ((s.port u).state == 2 || (s.port u).state == 3) then
    (s.updPort u fun x => { x with state := 4, quar := true, quarCount := satInc x.quarCount }).event
      0x8010 (uPort u)
  else s

/-- A port may train: its tile is in service and it is not disabled. -/
def State.portTrains (s : State) (u : Nat) : Bool := !s.tileCut (tileOfPort u) && !(s.port u).disable

/-- A partner trains a link or port that this module holds DOWN, or a link that it has in management
mode (R249, R449, R519). -/
def execPartnerLinkTraining (t : LinkTraining) (s : State) : Ans :=
  .next (
    let l := t.link.val
    let k := s.link l
    if l < 64 then
      if !(k.state == 0 || k.mgmtMode) then s
      else if t.partner.mgmt then
        if s.stepDone 1 && s.connected l && !k.disable then s.trainMgmt l t else s
      else if s.stepDone 8 then s.trainLink l t else s
    else
      let u := l - 64
      if s.stepDone 1 && s.portTrains u && ((s.port u).state == 0 || (s.port u).state == 1) then
        s.trainPort u t.lanes
      else s)

/-- The end of a retraining (R246, R493). -/
def execLinkRetrainDone (l : Fin 66) (lanes : BitVec 4) (ok : Bool) (x : Partner) (s : State) : Ans :=
  .next (
    if l.val < 64 then
      if (s.link l.val).state == 1 then s.trainLink l.val ⟨l, lanes, ok, x⟩ else s
    else if s.portTrains (l.val - 64) && (s.port (l.val - 64)).state == 1 then
      s.trainPort (l.val - 64) lanes
    else s)

/-- A cable is unmated: its links that were in use are FAILED, the others stay as they are (R519). -/
def execCableUnmate (k : Fin 10) (s : State) : Ans :=
  .next (
    if k.val < 8 then
      let ls := (List.range (dirCount k.val)).map (dirBase k.val + ·)
      ls.foldl (fun s l => s.withService l fun s =>
        let live := (s.link l).state != 0 && (s.link l).state != 5
        let s := s.updLink l fun x => { x with mated := false, mgmtMode := false }
        if live then s.linkLanes l false false 0 6 else s) s
    else
      let u := k.val - 8
      let live := portLive (s.port u) || (s.port u).state == 1
      let s := s.updPort u fun x => { x with mated := false }
      if live then (s.portDown u 5).event 0x8001 (uPort u) else s)

/-! Arriving flits (R244, R251, R256). -/

/-- Types that carry sequence numbers: all but idle and ACK or NACK (log entry 20). -/
def sequenced (f : Flit) : Bool := f.kind != 0 && f.kind != 4

/-- How far behind the next expected number a flit lies, when it repeats one of the last 1,024. -/
def repeats (k : Link) (f : Flit) : Bool :=
  let d := (k.rxNext - f.seq).toNat
  decide (1 ≤ d ∧ d ≤ replayMax)

/-- The first reason of R256 that a flit gives, in the order of log entry 20. -/
def State.flitBad (s : State) (l : Nat) (f : Flit) (credit : Bool) : Option Nat :=
  let k := s.link l
  let mgmt := f.kind == 5 || f.kind == 6
  if k.state == 4 && !mgmt then some 0x0F
  else if 7 ≤ f.kind.toNat then some 0x02
  else if f.rsv != 0 || f.len == 0 || 240 < f.len.toNat then some 0x03
  else if sequenced f && !k.rxDiscard && f.seq != k.rxNext && !repeats k f then some 0x04
  else if !s.coordOk f.dest.toNat || !s.coordOk f.src.toNat then some 0x05
  else if !credit then some 0x06
  else if (f.kind == 2 || f.kind == 3) && f.dest.toNat == s.coord && !s.groupFor f.part.toNat f.group.toNat
  then some 0x07
  else if (f.kind == 2 || f.kind == 3) && f.dest.toNat == s.coord && Config.badMember f.payload then some 0x08
  else if mgmt && Config.badControl f.payload then some 0x09
  else none

/-- A link in management mode to the module with this coordinate (R451), or toward the host (R449). -/
def State.mgmtLink (s : State) (dest : Nat) : Option Nat :=
  let ls := (List.range 64).filter fun l => (s.link l).mgmtMode && linkRuns (s.link l)
  match ls.find? fun l => s.neighbour s.coord (dirOf l) == dest with
  | some l => some l
  | none => if s.stepDone 8 then none else ls.find? fun l => s.bu.hostDir == some (dirOf l)

/-- A flit for another module goes on toward it; one for an unreachable module is dropped (R253, R255).
Link control, idle and ACK flits stay on their link. Management flits also go over links in management
mode. -/
def State.forward (s : State) (l : Nat) (f : Flit) : State :=
  let dest := f.dest.toNat
  if dest == s.coord || f.kind == 0 || f.kind == 4 || f.kind == 6 then s
  else match if f.kind == 5 then s.mgmtLink dest else none with
    | some o => if o = l then s.event 0x3011 (uLink l) else s.sendFlit o { f with vc := 3 }
    | none =>
      let came := dirOpp (dirOf l)
      let next := s.onward f.src.toNat dest came
      match next, next.bind fun h => s.streamLink s.coord h.1 f.stream.toNat with
      | some (d, detour), some o =>
        let vc := if f.kind == 5 then 3 else s.hopVc d detour (some (came, f.vc.toNat))
        s.sendFlit o { f with vc := BitVec.ofNat 2 vc }
      | _, _ => s.event 0x3011 (uLink l)

/-- A flit arrives: one in sequence is acknowledged, and one that has come before is acknowledged again.
What it delivers to this module arrives as the commands of its own chapter. -/
def State.takeFlit (s : State) (l : Nat) (body : List Byte) (crc : Word) (credit : Bool) : State :=
  let f := readFlit body
  if !bodyOk body crc then
    (s.updLink l fun k => { k with crcFail := satInc k.crcFail, rxDiscard := true }).emit
      (.nack (uLink l) (some (s.link l).rxNext.toNat) 0x01)
  else match s.flitBad l f credit with
    | some reason => s.violation l f.seq.toNat reason
    | none =>
      let s := (s.ackThrough l f.ack).commitAcked
      if !sequenced f then s
      else if f.seq == (s.link l).rxNext then
        let s := s.updLink l fun k => { k with rxNext := k.rxNext + 1, rxDiscard := false }
        (s.emit (.ack l f.seq.toNat)).forward l f
      else if repeats (s.link l) f then s.emit (.ack l ((s.link l).rxNext - 1).toNat)
      else s

/-- Before S8 a link carries nothing but management and link control, in management mode (R249, R449). -/
def execDataPacket (l : Fin 64) (body : List Byte) (crc : Word) (credit : Bool) (s : State) : Ans :=
  .next (
    let k := s.link l.val
    let kind := (readFlit body).kind
    if k.mgmtMode && !(kind == 5 || kind == 6) then s
    else if linkRuns k || k.state == 4 then s.takeFlit l.val body crc credit
    else s)

/-! Link states of others (R253, R257). -/

def execLinkStateExchange (coord : BitVec 8) (mask : BitVec 64) (s : State) : Ans :=
  .next (
    if s.stepDone 8 && s.coordOk coord.toNat && coord.toNat != s.coord
        && SMap.get 0 s.remote coord.toNat != mask then
      ({ s with remote := SMap.set 0 s.remote coord.toNat mask }).routesChanged 0
    else s)

/-- The partner reports that its end is out of service, by a quarantine or a disable, or back. -/
def execLinkControl (l : Fin 64) (out disabled : Bool) (s : State) : Ans :=
  .next (
    let n := l.val
    let k := s.link n
    if k.disable || k.state == 0 || k.state == 5 then s
    else s.withService n fun s =>
      if out && disabled then
        s.updLink n fun k => { k with partnerOut := true, state := 0, lanes := 0 }
      else s.updLink n fun k => { k with partnerOut := out })

end Sys2Proof.Machine
end

