-- ==== Sys2Proof/Machine/Sound.lean ====
section
/-! DEFINITION. The Soundings table: merging a core's records (R335 to R338), the enable (R339) and
SOUND_READ (R340, R341). -/

namespace Sys2Proof

def Soundings.n (x : Soundings) : Nat := 2 ^ x.log2n.toNat
def Soundings.entryVa (x : Soundings) (i : Nat) : Nat := x.base.toNat + 128 * i

end Sys2Proof

namespace Sys2Proof.Machine

/-- MAXEXP as stored: 0x8000 = none. -/
def expBits (e : Option Int) : Nat :=
  match e with
  | none => 0x8000
  | some k => bitsOfInt 16 k

def expOf (b : Nat) : Option Int := if b = 0x8000 then none else some (signedOf 16 b)

/-- The engine's part of an entry, bytes 0x10 to 0x7F. -/
structure SndTotals where
  maxExp : Option Int
  trips : Nat
  records : Nat
  elems : Nat
  zero : Nat
  sat : Nat
  nan : Nat
  inf : Nat
  hist : List Nat
  deriving DecidableEq, Repr

def totalsOf (b : List Byte) : SndTotals :=
  { maxExp := expOf (bAt b 0x10 2), trips := bAt b 0x12 2, records := bAt b 0x14 4
    elems := bAt b 0x18 8, zero := bAt b 0x20 8, sat := bAt b 0x28 8, nan := bAt b 0x30 8
    inf := bAt b 0x38 8, hist := (List.range 16).map fun i => bAt b (0x40 + 4 * i) 4 }

def sat32 (n : Nat) : Nat := min n 0xFFFFFFFF

def totalsBytes (t : SndTotals) : List Byte :=
  leBytes 2 (expBits t.maxExp) ++ leBytes 2 t.trips ++ leBytes 4 t.records ++ leBytes 8 t.elems
  ++ leBytes 8 t.zero ++ leBytes 8 t.sat ++ leBytes 8 t.nan ++ leBytes 8 t.inf
  ++ t.hist.flatMap (leBytes 4)

/-- A merge (R337). -/
def mergeRec (t : SndTotals) (r : SndRec) : SndTotals :=
  { t with
    maxExp := maxExpOf t.maxExp r.maxExp, records := sat32 (t.records + 1)
    elems := t.elems + r.elems, zero := t.zero + r.zero, sat := t.sat + r.sat, nan := t.nan + r.nan
    inf := t.inf + r.inf, hist := t.hist.zipIdx.map fun e => sat32 (e.1 + SMap.get 0 r.hist e.2) }

/-- TRIPS bits that a merge sets: on, clear so far, and reached (R338). -/
def newTrips (host : List Byte) (t : SndTotals) : List Nat :=
  let reached : List Bool :=
    [bAt host 4 4 != 0 && decide (bAt host 4 4 ≤ t.sat),
     bAt host 8 4 != 0 && decide (bAt host 8 4 ≤ t.nan + t.inf),
     match expOf (bAt host 12 2), t.maxExp with
     | some thr, some e => decide (thr ≤ e)
     | _, _ => false]
  (List.range 3).filter fun i => reached.getD i false && !bit t.trips i

def State.updSnd (s : State) (p : Nat) (f : Soundings → Soundings) : State :=
  s.updPart p fun x => { x with snd := f x.snd }

/-- A record without an entry is counted; the first one after a clear is recorded (R335). -/
def State.sndDrop (s : State) (p : Nat) (r : SndRec) : State :=
  let first := (s.part p).snd.drop == 0
  let s := s.updSnd p fun x => { x with drop := satInc x.drop }
  if first then s.record { code := 0x5002, unit := s.uPartHelm p, part := some p
                           arg0 := some r.tensor.toNat }
  else s

/-- One threshold trips (R338). -/
def State.sndTrip (s : State) (p : Nat) (r : SndRec) (intr : Bool) (i : Nat) : State :=
  let s := s.updSnd p fun x => { x with trips := satInc x.trips }
  let s := s.eventPA 0x5001 (s.uPartHelm p) p r.tensor.toNat i
  if intr then s.irq p ((s.part p).queue (s.part p).snd.queue.toNat).vec.toNat else s

/-- Merges a record into its entry. An entry that cannot be read or written counts as absent (log
entry 25). -/
def State.sndMerge (s : State) (p : Nat) (r : SndRec) : State :=
  let x := (s.part p).snd
  let va := x.entryVa (r.tensor.toNat % x.n)
  match s.xreadNow (s.helmReq p) va 128 with
  | (s', .ok b) =>
    if bit (bAt b 0x0E 2) 0 && bAt b 0 4 == r.tensor.toNat then
      let t := mergeRec (totalsOf b) r
      let new := newTrips b t
      let t := { t with trips := new.foldl (fun a i => a + 2 ^ i) t.trips }
      match s'.xwriteNow (s.helmReq p) (va + 16) (totalsBytes t) with
      | (s'', .ok _) => new.foldl (fun s i => s.sndTrip p r (bit (bAt b 0x0E 2) 1) i) s''
      | (s'', _) => s''.sndDrop p r
    else s'.sndDrop p r
  | (s', _) => s'.sndDrop p r

/-- The helm core takes the oldest record that a core has passed; it is the kernel's commit point when
nothing else was left (R150, R337). -/
def execSoundingsRecord (c : Fin 192) (s : State) : Ans :=
  .next (match (s.core c.val).emitted, s.ownerOf (clusterOf c.val) with
    | r :: rs, some p =>
      let s := s.updCore c.val fun x => { x with emitted := rs }
      let s := if (s.part p).snd.en then s.sndMerge p r else s
      match s.kernelOf c.val with
      | some (p, cmd, k) => s.tryCommit p cmd k
      | none => s
    | _, _ => s)

/-- PAR_SND_EN = 1 checks the table (R339). -/
def State.sndOn (s : State) (p : Nat) : State :=
  let x := (s.part p).snd
  let ok := s.pinnedRange p x.base.toNat (128 * x.n) false
  s.updSnd p fun x => { x with en := ok, err := !ok }

/-! SOUND_READ. -/

/-- The part of an entry that CLEAR zeroes. -/
def State.sndClearEntry (s : State) (p i : Nat) : State × XR Unit :=
  s.xwriteNow (s.helmReq p) ((s.part p).snd.entryVa i + 16) (List.replicate 112 0)

/-- Copies entries in ascending index, each cleared as it is copied unless the command is staged. -/
def sndReadGo (p : Nat) (c : Cmd) : List Nat → State → State × RowEnd
  | [], s => (s, .ok 0)
  | i :: is, s =>
    match s.xread (s.helmReq p) ((s.part p).snd.entryVa (sndFirst c + i)) 128 with
    | (s', .held) => (s', .held)
    | (s', .fail st va) => (s', .fail st va)
    | (s', .ok b) =>
      match s'.cmdWrite p c (s.helmReq p) (c.va 0x18 + 128 * i) b with
      | (s'', .held) => (s'', .held)
      | (s'', .fail st va) => (s'', .fail st va)
      | (s'', .ok _) =>
        sndReadGo p c is
          (if sndClear c && !staged c then (s''.sndClearEntry p (sndFirst c + i)).1 else s'')

def State.runSoundRead (s : State) (p : Nat) (c : Cmd) : State :=
  if !(s.part p).snd.en then s.endRows p c [] (s, .fault 0x1210 0)
  else match sndReadGo p c (List.range (sndN c)) s with
    | (s', .ok _) =>
      let s' := if sndClear c && staged c then
          (List.range (sndN c)).foldl (fun s i => (s.sndClearEntry p (sndFirst c + i)).1) s'
        else s'
      s.endRows p c [] (s', .ok (sndN c))
    | e => s.endRows p c [(c.va 0x18, 128 * sndN c)] e

def execSoundRead (p : Fin 16) (q : Fin 64) (slot : BitVec 16) (s : State) : Ans :=
  s.onCmd p q slot (·.op == opSoundRead) fun c => s.runSoundRead p.val c

end Sys2Proof.Machine
end

