-- ==== Sys2Proof/Machine/Update.lean ====
section
/-! DEFINITION. The UPDATE command (R342 to R360): its tables, its checks, the recurrence and what it
stores. DW2 and W2 are summed in an order that free picks choose (R349). Readings: log entry 26. -/

namespace Sys2Proof.Machine

/-! Coefficients (R342). -/

structure Coef where
  alpha1 : Word
  beta1 : Word
  alpha2 : Word
  beta2 : Word
  gamma0 : Word
  gamma1 : Word
  eps : Word
  lambda_ : Word
  rho : Word
  ctl : Nat
  deriving DecidableEq, Repr

def coefOf (b : List Byte) : Coef :=
  let w := fun i => BitVec.ofNat 32 (bAt b (4 * i) 4)
  ⟨w 0, w 1, w 2, w 3, w 4, w 5, w 6, w 7, w 8, bAt b 0x24 4⟩

def cfA1 (k : Coef) : Bool := bit k.ctl 0
def cfA2 (k : Coef) : Bool := bit k.ctl 1
/-- p: 1 or 2. -/
def cfP (k : Coef) : Nat := if bit k.ctl 2 then 2 else 1
def cfDen (k : Coef) : Nat := fld k.ctl 3 2
def cfBc1 (k : Coef) : Bool := bit k.ctl 5
def cfBc2 (k : Coef) : Bool := bit k.ctl 6

def coefBad (b : List Byte) : Bool :=
  let k := coefOf b
  !bZero b [(0x28, 24)] || decide (128 ≤ k.ctl) || cfDen k == 3 || (cfDen k == 0 && !cfA2 k)
  || (cfBc1 k && !cfA1 k) || (cfBc2 k && !cfA2 k)
  || [k.alpha1, k.beta1, k.alpha2, k.beta2, k.gamma0, k.gamma1, k.eps, k.lambda_, k.rho].any
      fun x => !ffinite x

/-! Layer entries (R344, R345). -/

structure LayerEnt where
  w : Nat
  res : Nat
  a1 : Nat
  a2 : Nat
  a1s : Nat
  a2s : Nat
  count : Nat
  gidx : Nat
  seed : Dword
  tensor : Nat
  eta : Word
  a1f : BitVec 16
  a2f : BitVec 16
  coef : Nat
  form : Nat
  wsr : Bool
  kauto : Bool
  k : Int
  kn : Int
  lastT : Nat
  deriving DecidableEq, Repr

def layerOf (b : List Byte) : LayerEnt :=
  { w := bVa b 0, res := bVa b 8, a1 := bVa b 0x10, a2 := bVa b 0x18, a1s := bVa b 0x20
    a2s := bVa b 0x28, count := bAt b 0x30 5, gidx := bAt b 0x38 8
    seed := BitVec.ofNat 64 (bAt b 0x40 8), tensor := bAt b 0x48 4
    eta := BitVec.ofNat 32 (bAt b 0x4C 4), a1f := BitVec.ofNat 16 (bAt b 0x50 2)
    a2f := BitVec.ofNat 16 (bAt b 0x52 2), coef := bAt b 0x54 2, form := bAt b 0x56 1 % 4
    wsr := bit (bAt b 0x56 1) 2, kauto := bit (bAt b 0x56 1) 3
    k := signedOf 8 (bAt b 0x58 1), kn := signedOf 8 (bAt b 0x59 1), lastT := bAt b 0x5C 4 }

/-- A moment format: FP32, BF16 or FP16, or E5M2 or E4M3 along the elements with blocks of 32 to 256. -/
def momentFmtOk (w : BitVec 16) : Bool :=
  let f := FmtWord.of w
  !f.reserved false && f.rnd == 0 && !f.ovfInf && !f.scaleSrc
  && (decide (f.fmt ≤ 2)
      || ((f.fmt == 3 || f.fmt == 4) && f.dir == 0 && decide (5 ≤ f.blk ∧ f.blk ≤ 8)))

def momentScaled (w : BitVec 16) : Bool := (FmtWord.of w).blk != 0

def kOk (k : Int) : Bool := k % 2 == 0 && decide (-64 ≤ k ∧ k ≤ 64)

/-- The arrays that a layer uses, as (address, bytes): parameters, residuals, moments, scales. -/
def layerArrays (x : LayerEnt) (c : Coef) : List (Nat × Nat) :=
  let wb := if x.form = 0 then 4 else 2
  let moment := fun (on : Bool) (f : BitVec 16) (a sc : Nat) =>
    if !on then [] else
      (a, x.count * fmtBits (FmtWord.of f).fmt / 8) ::
        (if momentScaled f then [(sc, ceilDiv x.count (2 ^ (FmtWord.of f).blk))] else [])
  [(x.w, x.count * wb)] ++ (if x.form = 1 then [(x.res, x.count * 2)] else [])
  ++ moment (cfA1 c) x.a1f x.a1 x.a1s ++ moment (cfA2 c) x.a2f x.a2 x.a2s

/-- A reserved layer entry, apart from its coefficients. -/
def layerBad (b : List Byte) (c : Coef) : Bool :=
  let x := layerOf b
  !bZero b ([(0x35, 3), (0x57, 1), (0x78, 8)] ++ (List.range 6).map fun i => (8 * i + 7, 1))
  || decide (16 ≤ bAt b 0x56 1) || x.form == 3 || !momentFmtOk x.a1f || !momentFmtOk x.a2f
  || x.gidx % 256 != 0 || x.count == 0 || !kOk x.k || !kOk x.kn
  || (layerArrays x c).any fun r => r.1 % 64 != 0

/-! The recurrence (R346, R347). -/

/-- pow of R346. -/
def updPow (a : Word) (t : Nat) : Word :=
  (List.range 32).foldl (fun x i =>
    let x := fmul x x
    if bit t (31 - i) then fmul x a else x) F32.one

/-- A bias correction. -/
def updBc (on : Bool) (a : Word) (t : Nat) : Word :=
  if on then fdiv F32.one (fsub F32.one (updPow a t)) else F32.one

/-- What the elements of a layer share. -/
structure LayerRun where
  c : Coef
  eta : Word
  bc1 : Word
  bc2 : Word
  /-- The clip factor, with a scalar block. -/
  clip : Option Word
  k : Int
  /-- k − K. -/
  dk : Int
  deriving DecidableEq, Repr

/-- New moments and parameter of one element, from its stored moments as exact values. -/
def updElem (r : LayerRun) (w g : Word) (a1 a2 : FVal) : Word × Word × Word :=
  let c := r.c
  let p : Int := cfP c
  let a1 := if cfA1 c then F32.rnd (a1.scale r.dk) else 0
  let a2 := if cfA2 c then F32.rnd (a2.scale (p * r.dk)) else 0
  let g := match r.clip with | some x => fmul g x | none => g
  let gs := fscale2 g r.k
  let a1 := if cfA1 c then ffma c.alpha1 a1 (fmul c.beta1 gs) else a1
  let m := if cfA1 c then fmul a1 r.bc1 else 0
  let q := if cfP c = 1 then fabs gs else fmul gs gs
  let a2 := if cfA2 c then ffma c.alpha2 a2 (fmul c.beta2 q) else a2
  let v := if cfA2 c then fmul a2 r.bc2 else 0
  let num := ffma c.gamma1 m (fmul c.gamma0 gs)
  let d := match cfDen c with
    | 0 =>
      let h := r.k * p / 2
      fscale2 (fdiv num (fadd (fsqrt v) (fscale2 c.eps h))) (h - r.k)
    | 1 => fscale2 num (-r.k)
    | _ =>
      if fnan num then F32.nan else if fzero num then 0
      else if (F32.dec num).sign then fneg F32.one else F32.one
  let u := ffma c.lambda_ w d
  (a1, a2, ffma c.rho w (fmul (fneg r.eta) u))

/-! Storing (R348). -/

/-- Bits of a stored moment run and its scale codes. -/
def storeMoment (w : BitVec 16) (xs : List Word) : List Nat × List Nat :=
  let f := FmtWord.of w
  if f.fmt = 0 then (xs.map (·.toNat), [])
  else if f.blk = 0 then
    (xs.map fun x => convertTo f.fmt (defaultRnd f.fmt) false (F32.dec x), [])
  else
    let bs := (chunksOf (2 ^ f.blk) (xs.length + 1) (xs.map fun x => (F32.dec x, 0))).map
      (convertBlock f 127)
    (bs.flatMap (·.2), bs.map (·.1))

/-- Values of a stored moment run. -/
def loadMoment (w : BitVec 16) (bits codes : List Nat) : List FVal :=
  let f := FmtWord.of w
  bits.zipIdx.map fun e =>
    if f.blk = 0 then elemVal f.fmt e.1 else widen f.fmt e.1 (codes.getD (e.2 / 2 ^ f.blk) 127)

def elemBytes (n : Nat) (es : List Nat) : List Byte := es.flatMap (leBytes n)
def elemsOf (n : Nat) (bs : List Byte) : List Nat :=
  (List.range (bs.length / n)).map fun i => bAt bs (n * i) n

/-- A parameter as stored: the main array's bits and the residual's. -/
def storeW (x : LayerEnt) (i : Nat) (w : Word) : Nat × Nat :=
  match x.form with
  | 0 => (w.toNat, 0)
  | 1 => (w.toNat / 65536, w.toNat % 65536)
  | _ => (convertTo 1 (if x.wsr then .stoch (convDraw x.seed x.tensor (x.gidx + i)) else .even) false
      (F32.dec w), 0)

def loadW (x : LayerEnt) (hi res : Nat) : Word :=
  match x.form with
  | 0 => BitVec.ofNat 32 hi
  | 1 => BitVec.ofNat 32 (hi * 65536 + res)
  | _ => BitVec.ofNat 32 (hi * 65536)

/-! Statistics (R349 to R351). -/

def fp64 : FFmt :=
  ⟨52, 1023, 64, true, 0x7FEFFFFFFFFFFFFF, 0x7FF0000000000001, 0x7FF8000000000000⟩

def rnd64 (v : FVal) : FVal := fp64.dec (fp64.enc .even false v)

/-- The sum of FP64 terms in an order that `pick` chooses: two of them are added until one is left. -/
def sum64 (pick : Nat → Nat) : Nat → List FVal → FVal
  | 0, vs => vs.headD (.fin false 0 0)
  | n + 1, vs =>
    if vs.length ≤ 1 then vs.headD (.fin false 0 0)
    else
      let i := pick (2 * n) % vs.length
      let rest := vs.eraseIdx i
      let j := pick (2 * n + 1) % rest.length
      sum64 pick n (rnd64 (FVal.add (vs.getD i .nan) (rest.getD j .nan)) :: rest.eraseIdx j)

def stat64 (pick : Nat → Nat) (vs : List FVal) : Nat :=
  fp64.enc .even false (sum64 pick vs.length vs)

def sq64 (v : FVal) : FVal := rnd64 (FVal.mul v v)

/-- MAXE over stored values. -/
def maxE (vs : List FVal) : Int := match blockExp vs with | some e => e | none => -32768

/-- A value that storage loses: finite and nonzero before, stored as zero or as a subnormal of a
format of 16 bits or more. -/
def underflows (c : Nat) (before : Word) (bits : Nat) : Bool :=
  ffinite before && !fzero before &&
    match ffmtOf c with
    | none => false
    | some f =>
      let mag := bits % 2 ^ (f.width - 1)
      mag == 0 || (decide (c ≤ 2) && decide (mag < 2 ^ f.mant))

def notFinite (v : FVal) : Bool := v.isNan || v.isInf

/-- The largest exponent of a moment format, as R351 counts it. -/
def fmtLimit (w : BitVec 16) : Int := if (FmtWord.of w).fmt = 2 then 15 else 127

/-- KN for the next UPDATE. -/
def nextKn (x : LayerEnt) (c : Coef) (maxe : Int) (under nf : Nat) : Int :=
  let e := min (if cfA1 c then fmtLimit x.a1f else 127) (if cfA2 c then fmtLimit x.a2f else 127)
  let k := x.kn
  if !x.kauto then k
  else if nf > 0 then k
  else if maxe ≥ e - 8 then max (k - 16) (-64)
  else if under > 0 ∧ maxe ≤ e - 24 then min (k + 8) 64
  else k

/-! One layer. -/

/-- The arrays of a layer as read, and its gradients. -/
structure LayerData where
  hi : List Nat
  res : List Nat
  a1 : List FVal
  a2 : List FVal
  g : List Word
  deriving DecidableEq, Repr

/-- What a layer writes: each block of 256 elements its pieces, and its statistics. -/
structure LayerOut where
  blocks : List (List (Nat × List Byte))
  dw2 : Nat
  w2 : Nat
  maxe : Int
  under : Nat
  nf : Nat
  deriving DecidableEq, Repr

/-- Pieces of a moment array for the block at element `i0`. -/
def momentPieces (on : Bool) (f : BitVec 16) (a sc i0 : Nat) (xs : List Word) : List (Nat × List Byte) :=
  if !on then [] else
    let r := storeMoment f xs
    let n := fmtBits (FmtWord.of f).fmt / 8
    (a + i0 * n, elemBytes n r.1) ::
      (if momentScaled f then [(sc + i0 / 2 ^ (FmtWord.of f).blk, elemBytes 1 r.2)] else [])

def layerOut (pick : Nat → Nat) (x : LayerEnt) (r : LayerRun) (d : LayerData) : LayerOut :=
  let idx := List.range x.count
  let old := idx.map fun i => loadW x (d.hi.getD i 0) (d.res.getD i 0)
  let new := idx.map fun i => updElem r (old.getD i 0) (d.g.getD i 0) (d.a1.getD i .nan) (d.a2.getD i .nan)
  let ws := new.zipIdx.map fun e => storeW x e.2 e.1.2.2
  let stored := ws.map fun e => loadW x e.1 e.2
  let a1 := new.map (·.1)
  let a2 := new.map (·.2.1)
  let moments := (if cfA1 r.c then [(x.a1f, a1)] else []) ++ (if cfA2 r.c then [(x.a2f, a2)] else [])
  let vals := moments.flatMap fun e =>
    let b := storeMoment e.1 e.2
    loadMoment e.1 b.1 b.2
  let wb := if x.form = 0 then 4 else 2
  let block := fun (b : Nat) =>
    let i0 := 256 * b
    let cut := fun {α : Type} (l : List α) => (l.drop i0).take 256
    [(x.w + i0 * wb, elemBytes wb (cut (ws.map (·.1))))]
    ++ (if x.form = 1 then [(x.res + i0 * 2, elemBytes 2 (cut (ws.map (·.2))))] else [])
    ++ momentPieces (cfA1 r.c) x.a1f x.a1 x.a1s i0 (cut a1)
    ++ momentPieces (cfA2 r.c) x.a2f x.a2 x.a2s i0 (cut a2)
  { blocks := (List.range (ceilDiv x.count 256)).map block
    dw2 := stat64 pick ((stored.zip old).map fun e =>
      sq64 (rnd64 (FVal.add (F32.dec e.1) (F32.dec e.2).neg)))
    w2 := stat64 (fun n => pick (n + 2 * x.count)) (stored.map fun w => sq64 (F32.dec w))
    maxe := maxE vals
    under := (moments.map fun e =>
      let b := (storeMoment e.1 e.2).1
      ((e.2.zip b).filter fun y => underflows (FmtWord.of e.1).fmt y.1 y.2).length).sum
    nf := (stored.filter fun w => !ffinite w).length + (vals.filter notFinite).length }

/-- A statistic of 32 bits; beyond them the spec gives no value. -/
def stat32 (pick : Nat → Nat) (n : Nat) : Nat := if n < 2 ^ 32 then n else pick n % 2 ^ 32

/-- The engine's fields of a layer entry, bytes 0x58 to 0x77. -/
def layerTail (pick : Nat → Nat) (x : LayerEnt) (c : Coef) (step : Nat) (o : LayerOut) : List Byte :=
  leBytes 1 (bitsOfInt 8 x.kn) ++ leBytes 1 (bitsOfInt 8 (nextKn x c o.maxe o.under o.nf))
  ++ leBytes 2 (bitsOfInt 16 o.maxe) ++ leBytes 4 step ++ leBytes 8 o.dw2 ++ leBytes 8 o.w2
  ++ leBytes 4 (stat32 pick o.under) ++ leBytes 4 (stat32 pick o.nf)

/-! The command. -/

def gBytes (c : Cmd) : Nat := if updFmt c = 0 then 4 else 2
def layerVa (c : Cmd) (j : Nat) : Nat := c.va 0x18 + 128 * (updFirst c + j)

/-- A layer of the command, with its coefficients and the place of its gradient. -/
structure LayerJob where
  ent : LayerEnt
  coef : Coef
  gVa : Nat
  va : Nat
  deriving DecidableEq, Repr

/-- Check 1: the layers, or the first reserved one. -/
def jobsGo (c : Cmd) (ctN : Nat) (cts : List Byte) : List (List Byte) → Nat → Nat → List LayerJob ⊕ Nat
  | [], _, _ => .inl []
  | b :: bs, j, g =>
    let x := layerOf b
    let cb := (cts.drop (64 * x.coef)).take 64
    if ctN ≤ x.coef ∨ coefBad cb ∨ layerBad b (coefOf cb) then .inr (updFirst c + j)
    else match jobsGo c ctN cts bs (j + 1) (g + x.count * gBytes c) with
      | .inl js => .inl (⟨x, coefOf cb, g, layerVa c j⟩ :: js)
      | e => e

/-- A line as the checks see it: poisoned, or out of reach. Its latent errors show when an engine reads it
(R360). -/
def State.lineMarked (s : State) (acc : Access) (h : Hit) (n : Nat) : Bool :=
  let l := h.addr / 64
  (s.tier h.tier).withdrawn l || s.cutFrame h.tier h.addr
  || (((s.tier h.tier).line l).poison && (acc == .read || n != 64))

/-- The lines of a range under R167, none of them read. -/
def linesGo (r : Req) (acc : Access) : List (Nat × Nat) → State → State × XR Unit
  | [], s => (s, .ok ())
  | (va, n) :: ps, s =>
    let x := s.senseLeaf r.part r.unit va
    let t := x.1.found x.2.2.1
    match x.1.placeAt acc va x.2.1 with
    | .err .held => (s, .held)
    | .err (.status st ev) =>
      ((if ev then x.1.eventP 0x1011 r.unit r.part else x.1).found x.2.2.1,
        .fail st ⟨va, r.unit, if ev then some x.1.seqNext else x.2.2.2⟩)
    | .ok h => if x.1.lineMarked acc h n then (t, .fail stPoison ⟨va, r.unit, none⟩) else linesGo r acc ps t

/-- Checks every range for reading, and the written ones for an update; the first failure (R355). -/
def rangesGo (r : Req) : List (Access × Nat × Nat) → State → State × XR Unit
  | [], s => (s, .ok ())
  | (acc, va, n) :: rs, s =>
    match linesGo r acc (piecesOf va n) s with
    | (s', .ok _) => rangesGo r rs s'
    | x => x

def gTotal (c : Cmd) (js : List LayerJob) : Nat := (js.map fun j => j.ent.count * gBytes c).sum
/-- Address of the non-finite word (R354). -/
def updNfVa (c : Cmd) (js : List LayerJob) : Nat := c.va 0x20 + ceilDiv (gTotal c js) 64 * 64

def updRanges (c : Cmd) (js : List LayerJob) : List (Access × Nat × Nat) :=
  (js.flatMap fun j => (layerArrays j.ent j.coef).flatMap fun r =>
    [(.read, r.1, r.2), (.update, r.1, r.2)])
  ++ [(.read, c.va 0x20, gTotal c js)] ++ (if updNfCheck c then [(.read, updNfVa c js, 8)] else [])
  ++ (if updScalar c = 0 then [] else [(.read, updScalar c, 16)])
  ++ js.map fun j => (.write, j.va + 0x58, 32)

/-- How the checks end: the layers with clip and learning rate, a stop, or held. -/
inductive UpdCheck where
  | run (js : List LayerJob) (clip : Option Word) (etaG : Word)
  | stop (e : CmdEnd)
  | held
  deriving DecidableEq, Repr

/-- A scalar that check 6 refuses. -/
def scalarBad (x : Word) : Bool := !ffinite x || fzero x || (F32.dec x).sign

def skipEvent (s : State) (p : Nat) (c : Cmd) (code : Nat) : State × Nat :=
  (s.eventPA code (s.uPartHelm p) p (updFirst c) (updStepNo c), s.seqNext)

/-- Reads a block whose pages check 3 has passed. -/
def State.updRead (s : State) (p va n : Nat) : State × XR (List Byte) := s.xread (s.helmReq p) va n

/-- Checks 4 to 6. -/
def State.updScalars (s : State) (p : Nat) (c : Cmd) (js : List LayerJob) : State × UpdCheck :=
  match js.find? fun j => updStepNo c != j.ent.lastT + 1 with
  | some j =>
    let e := skipEvent s p c 0x5011
    (e.1, .stop (endWith stStepSkew 0x1201 (updStepNo c + j.ent.lastT * 2 ^ 32) true none (some e.2)))
  | none =>
    match (if updNfCheck c then s.updRead p (updNfVa c js) 8 else (s, .ok [])) with
    | (s, .held) => (s, .held)
    | (s, .fail st va) => (s, .stop (endAt st va true))
    | (s, .ok nf) =>
      if updNfCheck c && bAt nf 0 8 != 0 && updSkipNf c then
        let e := skipEvent s p c 0x5010
        (e.1, .stop (endWith stNonfiniteSkip 0x1205 0 true none (some e.2)))
      else if updScalar c = 0 then (s, .run js none F32.one)
      else match s.updRead p (updScalar c) 16 with
        | (s, .held) => (s, .held)
        | (s, .fail st va) => (s, .stop (endAt st va true))
        | (s, .ok b) =>
          let clip := BitVec.ofNat 32 (bAt b 0 4)
          let eta := BitVec.ofNat 32 (bAt b 4 4)
          if scalarBad clip || scalarBad eta then
            if updSkipNf c then
              let e := skipEvent s p c 0x5010
              (e.1, .stop (endWith stNonfiniteSkip 0x1206 0 true none (some e.2)))
            else (s, .stop (endWith stDeviceFault 0x1203 0 true))
          else (s, .run js (some clip) eta)

/-- Check 1: the layers, or the first reserved one. -/
def State.updJobs (s : State) (p : Nat) (c : Cmd) : State × XR (List LayerJob ⊕ Nat) :=
  let ct := (s.part p).upd
  if ct.ctN = 0 then (s, .ok (.inr (updFirst c)))
  else match s.updRead p ct.ctVa.toNat (64 * ct.ctN.toNat) with
    | (s, .held) => (s, .held)
    | (s, .fail st va) => (s, .fail st va)
    | (s, .ok cts) =>
      match s.updRead p (layerVa c 0) (128 * updN c) with
      | (s, .held) => (s, .held)
      | (s, .fail st va) => (s, .fail st va)
      | (s, .ok lb) =>
        (s, .ok (jobsGo c ct.ctN.toNat cts
          ((List.range (updN c)).map fun j => (lb.drop (128 * j)).take 128) 0 (c.va 0x20)))

/-- The checks of R355 but the second, which holds the command at its dispatch. -/
def State.updCheck (s : State) (p : Nat) (c : Cmd) : State × UpdCheck :=
  match s.updJobs p c with
  | (s, .held) => (s, .held)
  | (s, .fail st va) => (s, .stop (endAt st va true))
  | (s, .ok (.inr i)) => (s, .stop (endWith stDeviceFault 0x1202 i true))
  | (s, .ok (.inl js)) =>
    match rangesGo (s.helmReq p) (updRanges c js) s with
    | (s, .held) => (s, .held)
    | (s, .fail st va) => (s, .stop (endAt st va true))
    | (s, .ok _) => s.updScalars p c js

/-- The update engine behind the port or controller that holds a byte of a parameter array (R41, R357). -/
def State.engineAt (s : State) (p va : Nat) : Req :=
  match s.walkLeaf p va with
  | .err _ => s.helmReq p
  | .ok e =>
    let a := leafFrame e + va % leafSize e
    match tierOf (leafTier e) with
    | .bd => ⟨p, uUpd (10 * bdTile a + bdPortOf a % 8)⟩
    | .lp => ⟨p, uUpd (10 * (lpCtrlOf a / 2) + 8 + lpCtrlOf a % 2)⟩
    | .host => s.helmReq p

def wBytes (x : LayerEnt) : Nat := if x.form = 0 then 4 else 2

/-- Reads pieces of an array of a layer, each by the engine of its elements' parameters. -/
def arrayGo (p : Nat) (x : LayerEnt) (r : Nat × Nat) : List (Nat × Nat) → State → List Byte →
    State × XR (List Byte)
  | [], s, acc => (s, .ok acc)
  | (va, n) :: ps, s, acc =>
    match s.xread (s.engineAt p (x.w + (va - r.1) * x.count / r.2 * wBytes x)) va n with
    | (s', .ok bs) => arrayGo p x r ps s' (acc ++ bs)
    | (s', .held) => (s', .held)
    | (s', .fail st m) => (s', .fail st m)

/-- Reads arrays of a layer in order. -/
def readsGo (p : Nat) (x : LayerEnt) : List (Nat × Nat) → State → State × XR (List (List Byte))
  | [], s => (s, .ok [])
  | r :: rs, s =>
    match arrayGo p x r (piecesOf r.1 r.2) s [] with
    | (s, .held) => (s, .held)
    | (s, .fail st va) => (s, .fail st va)
    | (s, .ok b) => match readsGo p x rs s with
      | (s, .ok bs) => (s, .ok (b :: bs))
      | e => e

/-- The same arrays when a line cannot be read: free bytes stand for what it holds. -/
def softGo (p : Nat) (x : LayerEnt) (rs : List (Nat × Nat)) (s : State) : State × List (List Byte) :=
  rs.foldl (fun a r =>
    let y := (piecesOf r.1 r.2).foldl (fun (b : State × List Byte) pc =>
      match arrayGo p x r [pc] b.1 [] with
      | (s', .ok bs) => (s', b.2 ++ bs)
      | (s', _) => (s'.tickFree, b.2 ++ s'.freeBytes pc.2)) (a.1, [])
    (y.1, a.2 ++ [y.2])) (s, [])

/-- A layer's data from the bytes of its arrays, in the order of `layerArrays`, then its gradients. -/
def layerData (c : Cmd) (j : LayerJob) (bs : List (List Byte)) : LayerData :=
  let x := j.ent
  let wb := if x.form = 0 then 4 else 2
  let at1 := if x.form = 1 then 2 else 1
  let n1 := if !cfA1 j.coef then 0 else if momentScaled x.a1f then 2 else 1
  let moment := fun (on : Bool) (f : BitVec 16) (i : Nat) =>
    if !on then List.replicate x.count (.fin false 0 0)
    else loadMoment f (elemsOf (fmtBits (FmtWord.of f).fmt / 8) (bs.getD i [])) (elemsOf 1 (bs.getD (i + 1) []))
  { hi := elemsOf wb (bs.getD 0 []), res := if x.form = 1 then elemsOf 2 (bs.getD 1 []) else []
    a1 := moment (cfA1 j.coef) x.a1f at1, a2 := moment (cfA2 j.coef) x.a2f (at1 + n1)
    g := (elemsOf (gBytes c) (bs.getLast?.getD [])).map fun b => F32.rnd (elemVal (updFmt c) b) }

def writesGo (r : Req) : List (Nat × List Byte) → State → State × XR Unit
  | [], s => (s, .ok ())
  | w :: ws, s =>
    match s.xupdate r w.1 w.2 with
    | (s, .ok _) => writesGo r ws s
    | e => e

/-- The arrays and the gradients of a layer. -/
def jobReads (c : Cmd) (j : LayerJob) : List (Nat × Nat) :=
  layerArrays j.ent j.coef ++ [(j.gVa, j.ent.count * gBytes c)]

def jobRun (c : Cmd) (clip : Option Word) (etaG : Word) (j : LayerJob) : LayerRun :=
  { c := j.coef, eta := fmul j.ent.eta etaG, bc1 := updBc (cfBc1 j.coef) j.coef.alpha1 (updStepNo c)
    bc2 := updBc (cfBc2 j.coef) j.coef.alpha2 (updStepNo c), clip := clip, k := j.ent.kn
    dk := j.ent.kn - j.ent.k }

/-- Writes blocks, each by the engine of its parameters. -/
def blocksGo (p : Nat) (x : LayerEnt) : List (List (Nat × List Byte)) → Nat → State → State × XR Unit
  | [], _, s => (s, .ok ())
  | b :: bs, i, s =>
    match writesGo (s.engineAt p (x.w + 256 * i * wBytes x)) b s with
    | (s', .ok _) => blocksGo p x bs (i + 1) s'
    | r => r

/-- Runs layers in order. The answer: entry tails to write, elements, and whether an NF is nonzero. -/
def layersGo (p : Nat) (c : Cmd) (clip : Option Word) (etaG : Word) :
    List LayerJob → State → State × XR (List (Nat × List Byte) × Nat × Bool)
  | [], s => (s, .ok ([], 0, false))
  | j :: js, s =>
    let x := j.ent
    match readsGo p x (jobReads c j) s with
    | (s, .held) => (s, .held)
    | (s, .fail st va) => (s, .fail st va)
    | (s, .ok bs) =>
      let pick := Config.freePick s.free
      let o := layerOut pick x (jobRun c clip etaG j) (layerData c j bs)
      match blocksGo p x o.blocks 0 s.tickFree with
      | (s, .held) => (s, .held)
      | (s, .fail st va) => (s, .fail st va)
      | (s, .ok _) =>
        match layersGo p c clip etaG js s with
        | (s, .ok r) =>
          (s, .ok ((j.va + 0x58, layerTail pick x j.coef (updStepNo c) o) :: r.1, x.count + r.2.1,
            decide (0 < o.nf) || r.2.2))
        | e => e

/-- Reads the layers' arrays up to the first line that cannot be read. -/
def readAll (p : Nat) (c : Cmd) : List LayerJob → State → State
  | [], s => s
  | j :: js, s => match readsGo p j.ent (jobReads c j) s with
    | (s', .ok _) => readAll p c js s'
    | (s', _) => s'

/-- What a block of a layer reads: the places that it writes, and its gradients. -/
def blockReads (c : Cmd) (j : LayerJob) (i : Nat) (b : List (Nat × List Byte)) : List (Nat × Nat) :=
  (b.map fun w => (w.1, w.2.length))
  ++ [(j.gVa + 256 * i * gBytes c, min 256 (j.ent.count - 256 * i) * gBytes c)]

/-- Layers cut short (R359): of the blocks whose lines can all be read, a free pick of each decides whether
it is new. -/
def partialGo (p : Nat) (c : Cmd) (clip : Option Word) (etaG : Word) (js : List LayerJob) (s : State) : State :=
  js.foldl (fun s j =>
    let r := softGo p j.ent (jobReads c j) s
    let pick := Config.freePick r.1.free
    let o := layerOut pick j.ent (jobRun c clip etaG j) (layerData c j r.2)
    o.blocks.zipIdx.foldl (fun s e =>
      if pick (2 ^ 32 + e.2) % 2 = 0 then s
      else match readsGo p j.ent (blockReads c j e.2 e.1) s with
        | (s', .ok _) => (blocksGo p j.ent [e.1] e.2 s').1
        | (s', _) => s') r.1.tickFree) s

def tailsGo (r : Req) : List (Nat × List Byte) → State → State × XR Unit
  | [], s => (s, .ok ())
  | w :: ws, s =>
    match s.xwrite r w.1 w.2 with
    | (s, .ok _) => tailsGo r ws s
    | e => e

def State.runUpdate (s : State) (p : Nat) (c : Cmd) : State :=
  match s.updCheck p c with
  | (w, .held) => s.waking w
  | (s1, .stop e) => s1.finish p c e
  | (s1, .run js clip etaG) =>
    match layersGo p c clip etaG js s1 with
    | (w, .held) => s.waking w
    | (s2, .fail st va) =>
      -- which blocks are new counts from the state before the run, its lines read as far (R360)
      (partialGo p c clip etaG js { readAll p c js s1 with free := s2.free }).finish p c (endAt st va)
    | (s2, .ok r) =>
      match tailsGo (s2.helmReq p) r.1 s2 with
      | (w, .held) => s.waking w
      | (s3, .fail st va) => s3.finish p c (endAt st va)
      | (s3, .ok _) => s3.finish p c (endDone (r.2.1 % 2 ^ 40 + b2n r.2.2 * 2 ^ 40))

/-- An ABORT or a reset meets an UPDATE that has started: which blocks are new is free, and no layer
entry is written (R359). -/
def State.abortUpdate (s : State) (p : Nat) (c : Cmd) (detail : Nat) : State :=
  let e := endWith stAborted detail 0
  match s.updCheck p c with
  | (s1, .run js clip etaG) => (partialGo p c clip etaG js s1.tickFree).finish p c e
  | _ => s.finish p c e

def execUpdate (p : Fin 16) (q : Fin 64) (slot : BitVec 16) (s : State) : Ans :=
  s.onCmd p q slot (·.op == opUpdate) fun c => s.runUpdate p.val c

end Sys2Proof.Machine
end

