-- ==== Sys2Proof/Machine/Abort.lean ====
section
/-! DEFINITION. How a dispatched command ends by an ABORT or a reset (R233 to R236), the four ABORT
rows, and the units that a command uses (R51, R469). -/

namespace Sys2Proof.Machine

/-! Destinations of a command whose row has not run. -/

/-- Rows of a batch, none where it cannot be read. -/
def State.peekBatch (s : State) (p va : Nat) : List GenRow :=
  match (s.readBatch p va).2 with
  | .ok rows => rows
  | _ => []

/-- Ranges of partition memory that a command over rows, a copy or a fill writes. -/
def State.rowDst (s : State) (p : Nat) (c : Cmd) : List (Nat × Nat) :=
  let op := c.op
  if op == opCopy then [(cDst c, cLen c)]
  else if op == opFill then [(fDst c, fLen c)]
  else if op == opAttend then
    let rows := s.peekBatch p (c.va 0x28)
    let d := (s.gen p).desc
    match (s.attendProfile p c).2 with
    | .inl x => (c.va 0x20, rows.length * x.hq * d.hdim * outSize x) ::
        (if aAppend c then appendRanges d (aLayer c) rows else [])
    | .inr _ => []
  else if op == opSample then
    ((s.peekBatch p (c.va 0x20)).zipIdx.filter fun e => sampleRow (saHead c) e.1).map fun e =>
      (c.va 0x28 + 16 * e.2, 16)
  else if op == opVerify then [(c.va 0x28, 4 * (s.peekBatch p (c.va 0x18)).length)]
  else if op == opSoundRead then [(c.va 0x18, 128 * sndN c)]
  else []

/-- RESULT of a command that ends without having done anything: the counter of SIGNAL and WAIT, 0 for
the other opcodes whose chapter says so (R229, R307), else a free value (log entry 21). -/
def State.idleResult (s : State) (p : Nat) (c : Cmd) : Nat :=
  let op := c.op
  if op == opFence && (sSub c == 1 || sSub c == 2 || sSub c == 3) then (s.evc p (sCtr c)).toNat
  else if op == opKernel || op == opCopy || op == opFill || op == opAttend || op == opAbort || op == opNop
      || (op == opFence && sSub c == 0) then 0
  else s.freeVal % 2 ^ 64

/-- Ends a command that has done nothing. -/
def State.finishIdle (s : State) (p : Nat) (c : Cmd) (st detail : Nat) (unit : Option Nat := none) : State :=
  s.tickFree.finish p c (endWith st detail (s.idleResult p c) true unit)

/-- A SOUND_READ that is cut short has copied and cleared some entries, and left the others as they are
(R340): a free pick of each. -/
def State.sndCleared (s : State) (p : Nat) (c : Cmd) : State :=
  if c.op == opSoundRead && sndClear c && (s.part p).snd.en then
    ((List.range (sndN c)).filter fun i => Config.freePick s.free i % 2 == 1).foldl
      (fun s i => (s.sndClearEntry p (sndFirst c + i)).1) s.tickFree
  else s

/-- A command that may have written part of its destination: it is undefined, unless the command is
atomic (R230, R235). RESULT of a COPY or FILL is the bytes written so far, a free number up
to its length. -/
def State.abortRows (s : State) (p : Nat) (c : Cmd) (st detail : Nat) (unit : Option Nat) : State :=
  let dst := s.rowDst p c
  let n := (dst.map (·.2)).sum
  let counts := c.op == opCopy || c.op == opFill
  -- ATOMIC does not protect against a partition reset
  let keeps := staged c && detail != 0x0301
  let v := if counts then (if keeps then 0 else s.freeVal % (n + 1))
    else s.idleResult p c
  let s := s.tickFree
  let s := if keeps then s else dst.foldl (fun s r => s.scramble p r.1 r.2) s
  let s := if keeps then s else s.sndCleared p c
  s.finish p c (endWith st detail v keeps unit)

/-- The cores that a KERNEL, an ATTEND, a SAMPLE or a VERIFY_HEADS holds (R147). -/
def State.heldCores (s : State) (p : Nat) (c : Cmd) : List Nat :=
  (List.range 192).filter fun i => (s.core i).job == some (p, c.q, c.idx)

/-- A KERNEL ends short of its commit, whether or not its cores have started. When one of its cores
has faulted, the fault or the abort may have reached the helm core first (R154): a free pick. -/
def State.abortKernel (s : State) (p : Nat) (c : Cmd) (e : CmdEnd) : State :=
  match c.prog with
  | .kernel k => match lowestFault k with
    | some f => s.tickFree.endKernel p c k (if Config.freePick s.free 0 % 2 = 0 then f else e)
    | none => s.endKernel p c k e
  | _ => s.endKernel p c { cores := s.heldCores p c } e

/-- A core of a KERNEL is reset or fails: that is a fault of its rank beside those of the other cores
(R152, R155). -/
def State.faultKernel (s : State) (p : Nat) (c : Cmd) (core : Option Nat) (e : CmdEnd) : State :=
  match c.prog with
  | .kernel k =>
    let own := match core with
      | some i => [(rankIn k i, e)]
      | none => []
    s.endKernel p c k ((lowestFault { k with faults := k.faults ++ own }).getD e)
  | _ => s.endKernel p c { cores := s.heldCores p c } e

/-- A GROUP_FORM, LOOM_MOVE or WEIGHT_LOAD. -/
def State.abortWide (s : State) (p : Nat) (c : Cmd) (st detail : Nat) : State :=
  if overGroup c then s.endGroup p c st detail none (detail != 0x0301)
  else if c.op == opGroupForm then s.endForm p c st detail (s.freeVal % 2 ^ 64)
  else if c.op == opLoomMove then
    let s := match c.prog with
      | .loom _ => s.scrambleDst p c
      | _ => match (s.loomOpen p c).2 with
        | .ok ts _ => (ts.flatMap fun (t : Layout × Layout) => t.2.ranges).foldl (fun (s : State) (r : Nat × Nat) => s.scramble p r.1 r.2) s
        | _ => s
    s.finishOpen p c st detail false
  else if isWeight 1 c then
    -- the CRC table of a set being adopted is undefined, and the set EMPTY again (R394, R395)
    match (s.readManifest p c false).2 with
    | .ok es crcVa _ =>
      if ((s.part p).wset (loadSet c)).state == 0 then
        (s.scramble p crcVa (8 * crcCount es)).finishOpen p c st detail false
      else s.finishOpen p c st detail true
    | _ => s.finishOpen p c st detail true
  else s.finishOpen p c st detail true

/-- Ends a live command with ABORTED (R233, R236). -/
def State.abortCmd (s : State) (p : Nat) (c : Cmd) (detail : Nat) : State :=
  let c := s.cmdNow p c
  if c.outcome.isSome then s
  else if c.op == opKernel then s.abortKernel p c (endWith stAborted detail 0)
  else if isMigrate c then s.abortMigrate p c detail
  else if c.op == opUpdate then s.abortUpdate p c detail
  else if c.op == opCollective || c.op == opGroupForm || c.op == opLoomMove || c.op == opWeightLoad then
    s.abortWide p c stAborted detail
  else if c.op == opFence || c.op == opMark || c.op == opAbort || c.op == opNop then
    s.finishIdle p c stAborted detail
  else s.abortRows p c stAborted detail none

/-- Ends a command that was fetched and not dispatched: it has written nothing (R233). One over a group
sends ABANDON (R284), but not at a partition reset, which sends LEAVE (R285). -/
def State.abortFetched (s : State) (p : Nat) (c : Cmd) (detail : Nat) : State :=
  let s := if overGroup c && detail != 0x0301 && s.groupFor p (gGroup c) then
      s.sendOthers (gGroup c) msgAbandon (s.groupKey c)
    else s
  s.finishIdle p c stAborted detail

/-! ABORT (R233, R234). -/

/-- ABORT and MARK are never targets. -/
def abortable (c : Cmd) : Bool := c.op != opAbort && c.op != opMark

/-- A core of the cluster serves the command: a kernel's cores, or those that stage or feed a
collective. -/
def State.usesCluster (s : State) (p : Nat) (c : Cmd) (cl : Nat) : Bool :=
  (s.heldCores p c).any (fun i => clusterOf i == cl)
  || (c.op == opCollective
    && ((colFeed c && (s.coreAt p (colFeedCore c)).map clusterOf == some cl)
      || (cmdAdmitted c && (s.part p).col.stages.any fun e =>
        (s.coreAt p e.core.toNat).map clusterOf == some cl)))

/-- Ends each target in turn; the number that reported ABORTED. -/
def abortGo (p : Nat) : List Cmd → State → Nat → State × Nat
  | [], s, n => (s, n)
  | t :: ts, s, n =>
    let s' := if t.dispatched then s.abortCmd p t 0 else s.abortFetched p t 0
    let ended := (s.cmdNow p t).outcome.isNone && match (s'.cmdNow p t).outcome with
      | some e => e.status.toNat == stAborted
      | none => false
    abortGo p ts s' (n + b2n ended)

/-- Queues that an ABORT stops: running ones, its own excepted. -/
def State.abortStop (s : State) (p : Nat) (c : Cmd) (qs : List Nat) : State :=
  qs.foldl (fun s q =>
    if q = c.q ∨ ((s.part p).queue q).state ≠ 1 then s else s.stopQueue p q 2) s

/-- The ABORT's own queue never stops under SCOPE 1 and 3 (R234). -/
def State.abortGoesOn (s : State) (p : Nat) (c : Cmd) (ts : List Cmd) : State :=
  let f := fun (y : Cmd) =>
    if y.q == c.q && (ts.any fun t => t.same y) then
      { y with outcome := y.outcome.map fun e => { e with goesOn := true } }
    else y
  s.updPart p fun x => { x with cmds := x.cmds.map f }

def isAbort (scope : Nat) (c : Cmd) : Bool := c.op == opAbort && aScope c == scope

/-- Registers the ABORT against its targets, stops queues, and reports. -/
def State.runAbort (s : State) (p : Nat) (c : Cmd) (target : Cmd → Bool) (stops : List Nat) : State :=
  let ts := (s.part p).cmds.filter fun t => abortable t && t.outcome.isNone && target t
  let x := abortGo p ts s 0
  let s := x.1.abortStop p c stops
  let s := if stops.contains c.q then s.abortGoesOn p c ts else s
  s.finish p c (endWith (if x.2 = 0 then stAbortNothing else stDone) 0 x.2)

def execAbortCommand (p : Fin 16) (q : Fin 64) (slot : BitVec 16) (s : State) : Ans :=
  s.onCmd p q slot (isAbort 0) fun c =>
    s.runAbort p.val c (fun t => t.q == aQueue c && cmdSlot (s.part p.val) t == aSlot c
      && t.tag == aTag c) []

def execAbortQueue (p : Fin 16) (q : Fin 64) (slot : BitVec 16) (s : State) : Ans :=
  s.onCmd p q slot (isAbort 1) fun c =>
    s.runAbort p.val c (fun t => t.dispatched && t.q == aQueue c) [aQueue c]

def execAbortCluster (p : Fin 16) (q : Fin 64) (slot : BitVec 16) (s : State) : Ans :=
  s.onCmd p q slot (isAbort 2) fun c =>
    s.runAbort p.val c (fun t => t.dispatched && s.usesCluster p.val t (aCluster c)) []

def execAbortPartition (p : Fin 16) (q : Fin 64) (slot : BitVec 16) (s : State) : Ans :=
  s.onCmd p q slot (isAbort 3) fun c =>
    s.runAbort p.val c (fun t => t.dispatched) (List.range 64)

/-! Units of a command (R51). -/

/-- Ranges of partition memory that a command moves data between. -/
def State.cmdRanges (s : State) (p : Nat) (c : Cmd) : List (Nat × Nat) :=
  let op := c.op
  if op == opCopy then (cSrc c, cLen c) :: (if isMigrate c then [] else [(cDst c, cLen c)])
  else if op == opFill then [(fDst c, fLen c)]
  else if op == opUpdate then
    match (s.updCheck p c).2 with
    | .run js _ _ => js.filterMap fun j => (layerArrays j.ent j.coef).head?
    | _ => []
  else if op == opLoomMove then
    match (s.loomOpen p c).2 with
    | .ok ts _ => ts.flatMap fun t => t.1.ranges ++ t.2.ranges
    | _ => []
  else if op == opWeightLoad && loadMode c != 2 then
    match (s.readManifest p c (loadMode c == 0)).2 with
    | .ok es _ _ => es.flatMap fun e => (e.dst.take e.copies).map fun va => (va, e.len)
    | _ => []
  else []

def State.cmdHomes (s : State) (p : Nat) (c : Cmd) : List Nat :=
  ((s.cmdRanges p c).flatMap fun r => s.homes p r.1 r.2).eraseDups

/-- Tiles whose memory a command moves data to or from. -/
def State.cmdTiles (s : State) (p : Nat) (c : Cmd) : List Nat :=
  c.looms ++ (s.cmdHomes p c).map tileOfHome
  ++ (if isMigrate c && decide (mDstTier c < 2) then
      [tileOfFrame (tierOf (mDstTier c)) (mDstFrame c)] else [])

/-- The shared unit with this id serves the command. -/
def State.usesUnit (s : State) (p : Nat) (c : Cmd) (u : Nat) : Bool :=
  let op := c.op
  let i := u % 0x1000
  let wide := op == opLoomMove || op == opWeightLoad
  let linked := overGroup c || op == opGroupForm
  match u / 0x1000 with
  | 0x8 =>
    let home := if i % 10 < 8 then uBdp (8 * (i / 10) + i % 10) else uLpc (2 * (i / 10) + i % 10 - 8)
    op == opUpdate && (s.cmdHomes p c).contains home
  | 0x9 => wide && (s.cmdTiles p c).contains i
  | 0xA => linked && (s.groupTiles c).contains i
  | 0xE =>
    let t := i / 25
    let k := i % 25
    if k < 8 then false
    else if k < 16 then (op == opFill || op == opUpdate) && (s.cmdHomes p c).contains (uBdp (8 * t + k - 8))
    else if k = 20 ∨ k = 21 then
      (op == opFill || op == opUpdate) && (s.cmdHomes p c).contains (uLpc (2 * t + k - 20))
    else if k = 22 then
      ((op == opCopy || wide) && (s.cmdTiles p c).contains t)
      || (linked && (s.groupTiles c).contains t)
      || (s.heldCores p c).any fun x => clusterOf x / 8 == t
    else if k < 20 then
      linked && (s.group (gGroup c)).members.any fun m =>
        match (s.route s.coord m.coord.toNat).bind firstHop with
        | some h => (List.range (dirCount h.1)).any fun j =>
            (dirBase h.1 + j) % 4 == t && (dirBase h.1 + j) / 16 == k - 16
        | none => false
    else false
  | _ => false

/-- The first unit lost in service that the command uses (R469). -/
def State.lostUnit (s : State) (p : Nat) (c : Cmd) : Option Nat := s.cht.lost.find? (s.usesUnit p c)

/-- A live command ends with DEVICE_FAULT, naming a unit (R236, R469). -/
def State.faultCmd (s : State) (p : Nat) (c : Cmd) (detail unit : Nat) : State :=
  let c := s.cmdNow p c
  let e := endWith stDeviceFault detail 0 false (some unit)
  if c.outcome.isSome then s
  else if c.op == opKernel then
    s.faultKernel p c (if unit / 0x1000 = 1 then some (unit % 0x1000) else none) e
  else if c.op == opCollective || c.op == opGroupForm || c.op == opLoomMove || c.op == opWeightLoad then
    (s.abortWide p c stDeviceFault detail).updCmd p c fun y =>
      { y with outcome := y.outcome.map fun o =>
        if o.status.toNat = stDone then o else { o with unit := some (BitVec.ofNat 16 unit) } }
  else if isMigrate c then
    (s.abortMigrate p c detail).updCmd p c fun y => { y with outcome := y.outcome.map fun o =>
      { o with status := BitVec.ofNat 8 stDeviceFault, unit := some (BitVec.ofNat 16 unit) } }
  else if c.op == opUpdate then
    (s.abortUpdate p c detail).updCmd p c fun y => { y with outcome := y.outcome.map fun o =>
      { o with status := BitVec.ofNat 8 stDeviceFault, unit := some (BitVec.ofNat 16 unit) } }
  else s.abortRows p c stDeviceFault detail (some unit)

end Sys2Proof.Machine
end

