-- ==== Sys2Proof/Machine/CmdDispatch.lean ====
section
/-! DEFINITION. COMMAND_DISPATCH: the helm core hands the next command to the units that carry it out
(R147, R214, R219, R221, R235, R356). -/

namespace Sys2Proof.Machine

def claimsCores (c : Cmd) : Bool :=
  c.op == opKernel || c.op == opAttend || c.op == opSample || c.op == opVerify

/-- Physical cores of a command that claims cores. -/
def State.claimed (s : State) (p : Nat) (c : Cmd) : List Nat :=
  if claimsCores c then (cmdCores c).filterMap (s.coreAt p) else []

/-- None of the cores is held by another command or in reset. -/
def State.coresFree (s : State) (p : Nat) (c : Cmd) : Bool :=
  (s.claimed p c).all fun i => (s.core i).job.isNone && (s.core i).regs.state != 3

/-- No dispatched UPDATE names one of the layer entries (R356). -/
def State.layersFree (s : State) (p : Nat) (c : Cmd) : Bool :=
  c.op != opUpdate || !(s.part p).cmds.any fun y => cmdLive y && y.op == opUpdate
    && decide (layerVa c 0 < layerVa y (updN y) ∧ layerVa y 0 < layerVa c (updN c))

/-- Check 1 of R355 comes before the wait for the layers. -/
def State.updRefused (s : State) (p : Nat) (c : Cmd) : Bool :=
  c.op == opUpdate && match (s.updJobs p c).2 with
    | .ok (.inr _) => true
    | _ => false

/-- Bytes that an atomic command may stage (R235). -/
def State.stagingNeed (s : State) (p : Nat) (c : Cmd) : Nat :=
  if !staged c then 0
  else if c.op == opKernel then kAtmMax c * 4096
  else ((s.rowDst p c).map (·.2)).sum

/-- What happens to the command whose turn it is: nothing yet, a dispatch, or its end. -/
inductive Turn where
  | wait
  | go (need : Nat)
  | stop (e : CmdEnd)
  | idle (st detail : Nat) (unit : Option Nat)

/-- The checks at dispatch, in order. A descriptor that failed its validation ends in its turn, without
its own wait (log entry 15). -/
def State.turnOf (s : State) (p : Nat) (c : Cmd) : Turn :=
  match c.bad with
  | some d => .idle stDeviceFault d none
  | none =>
    if !s.waitMet p c || !s.barrierMet p c || !s.coresFree p c then .wait
    else if !s.layersFree p c && !s.updRefused p c then .wait
    else match s.lostUnit p c with
      | some u => .idle stDeviceFault 0 (some u)
      | none =>
        let early := if c.op == opAttend then
            match (s.attendProfile p c).2 with
            | .inr (.fault d r) => some (endWith stDeviceFault d r true)
            | _ => none
          else none
        match early with
        | some e => .stop e
        | none =>
          let need := s.stagingNeed p c
          if (s.part p).atmSize.toNat * 2 ^ 21 < need then .idle stBusy 0 none
          else if s.atmFree p < need then .wait
          else .go need

/-- The command is dispatched: it holds its cores and its part of the staging region. A NOP's commit
point is its dispatch (R222). -/
def State.dispatchCmd (s : State) (p : Nat) (c : Cmd) (need : Nat) : State :=
  let n := (s.part p).nextOrder
  let s := (s.updCmd p c fun y => { y with
      dispatched := true, order := n, atm := need, dst := if staged c then s.rowDst p c else [] }).updPart p
    fun x => { x with nextOrder := n + 1 }
  let s := (s.claimed p c).foldl (fun s i =>
    s.updCore i fun x => { x with job := some (p, c.q, c.idx) }) s
  let s := s.junkAtm p (s.cmdNow p c)
  if c.op == opNop then s.finish p c (endDone 0) else s

def turnReady : Turn → Bool
  | .wait => false
  | _ => true

/-- The queue's next command can take its turn. -/
def State.queueReady (s : State) (p q : Nat) : Bool :=
  match s.nextOf p q with
  | some c => turnReady (s.turnOf p c)
  | none => false

/-- The helm core may dispatch for the partition. -/
def State.mayDispatch (s : State) (p : Nat) : Bool :=
  s.enabled p && !(s.part p).resetting && decide (s.dispatchedCount p < maxDispatched)

def execCommandDispatch (p : Fin 16) (s : State) : Ans :=
  .next (
    if !s.mayDispatch p.val then s
    else
      match s.pickQueue p.val (s.queueReady p.val) with
      | none => s
      | some q => match s.nextOf p.val q with
        | none => s
        | some c =>
          let s1 := s.takeTurn p.val q
          match s.turnOf p.val c with
          | .wait => s
          | .stop e => s1.finish p.val c e
          | .idle st d u => s1.finishIdle p.val c st d u
          | .go need => s1.dispatchCmd p.val c need)

end Sys2Proof.Machine
end

