-- ==== Sys2Proof/Machine/Reset.lean ====
section
/-! DEFINITION. Core, cluster and partition resets (R155, R236, R464 to R467), and the teardown of a
partition (R432). A reset runs from its start to its RESET_END; the module reset is in Bringup.lean. -/

namespace Sys2Proof

/-- A core as its reset leaves it: CORE_ECC is cleared by P and M only (R155, R156). The addresses that
have failed since the last bring-up stay (R470), and so do the records that the helm core already has. -/
def Core.afterReset (keepEcc : Bool) (x : Core) : Core :=
  { regs := {
      state := 3
      eccCorr := if keepEcc then x.regs.eccCorr else 0
      eccUncorr := if keepEcc then x.regs.eccUncorr else 0 }
    badWords := x.badWords, emitted := x.emitted }

/-- A partition's fields that a partition reset leaves alone: those without P in "Cleared by", and what
the composition has given it (R415, R465). -/
def Part.afterReset (x : Part) : Part :=
  { en := x.en, sealed := x.sealed, helm := x.helm, slots := x.slots, clMask := x.clMask
    chMask := x.chMask, state := x.state, err := x.err, cores := x.cores
    bd0 := x.bd0, bd1 := x.bd1, bd2 := x.bd2, bd3 := x.bd3, enCount := x.enCount, slotMap := x.slotMap
    heldDisable := x.heldDisable, unbound := x.unbound, key := x.key, cfg := x.cfg, index := x.index
    resetting := x.resetting }

/-- The cluster that a core or cluster reset lies in (R28). -/
def RunningReset.cluster (r : RunningReset) : Option Nat :=
  match r.kind with
  | .core => some (r.target / 6)
  | .cluster => some r.target
  | _ => none

end Sys2Proof

namespace Sys2Proof.Machine

/-! One core. -/

/-- Cores with a DMAPEER under way into a core, with the oldest one's index and remote address. -/
def State.sendersTo (s : State) (c : Nat) : List (Nat × Nat × Nat) :=
  s.cores.filterMap fun k =>
    if k.1 = c then none
    else (k.2.dmas.find? fun d => d.kind == .peer && d.core == c).map fun d => (k.1, d.pc, d.dst)

/-- A core whose DMAPEER is absorbed faults with cause 0x13 (R155), unless a fault has stopped it
already. -/
def State.absorbSender (s : State) (c pc addr : Nat) : State :=
  if (s.kernelOf c).isNone || (s.core c).regs.state == 2 then s
  else s.coreFaultAt c 0x13 4 pc addr

/-- The command that a core serves ends with DEVICE_FAULT and cause 0x13, unless it has passed its
commit point (R155, R236). -/
def State.endJob (s : State) (c : Nat) : State :=
  match (s.core c).job with
  | none => s
  | some (p, q, idx) =>
    match (s.part p).cmds.find? fun y => y.q == q && y.idx == idx && y.outcome.isNone with
    | none => s
    | some y => s.faultCmd p y 0x13 (uCore c)

/-- Steps 1 to 4 of R155. -/
def State.resetCore (s : State) (c : Nat) (keepEcc : Bool) : State :=
  let s := (s.sendersTo c).foldl (fun s e => s.absorbSender e.1 e.2.1 e.2.2) s
  ((s.collCoreReset c).endJob c).updCore c (Core.afterReset keepEcc)

def clusterCores (cl : Nat) : List Nat := (List.range 6).map (6 * cl + ·)

def State.partClusters (s : State) (p : Nat) : List Nat :=
  (List.range 32).filter fun cl => (s.part p).ownsCluster cl

/-! A partition reset (R465). -/

/-- Steps 1 and 2: fetch stops, and every command without an outcome ends with ABORTED and DETAIL
0x0301. -/
def State.endCommands (s : State) (p : Nat) : State :=
  ((s.part p).cmds.filter fun c => c.outcome.isNone).foldl (fun s c =>
    if c.dispatched then s.abortCmd p c 0x0301 else s.abortFetched p c 0x0301) s

/-- The serving engine ends without an event; its rings, directory and cache are undefined (R329). -/
def State.genReset (s : State) (p : Nat) : State :=
  let g := s.gen p
  let s := if g.active then
      let s := (s.scramble p g.desc.reqVa (64 * g.reqN)).scramble p g.desc.evtVa (32 * g.evtN)
      let s := s.scramble p g.desc.dirVa (dirEntryBytes g.desc * g.desc.dirN)
      g.extents.foldl (fun s e => s.junkRange (if e.lp then .lp else .bd) e.base e.len) s
    else s
  s.updPart p fun x => { x with gen := {} }

/-- Steps 1 to 5. -/
def State.startPartReset (s : State) (p : Nat) : State :=
  let s := s.updPart p fun x => { x with resetting := true }
  let s := (s.endCommands p).leaveGroups p
  let s := (s.pilotOff p).genReset p
  let s := s.updPart p fun x => { x with ws := [] }
  ((s.partClusters p).flatMap clusterCores).foldl (fun s c => s.resetCore c false) s

/-- Soundings records that the cores of the partition have passed on are merged (R337). -/
def State.mergeRest (s : State) (p : Nat) : State :=
  ((s.partClusters p).flatMap clusterCores).foldl (fun s c =>
    let rs := (s.core c).emitted
    let s := s.updCore c fun x => { x with emitted := [] }
    if (s.part p).snd.en then rs.foldl (fun s r => s.sndMerge p r) s else s) s

/-- Held records go first, queue by queue; one that fails again stays behind (R231). -/
def flushQueue (p : Nat) (acc : Went State) (q : Nat) : Went State :=
  match acc with
  | .wait w => .wait w
  | .on s => flushGo (s.heldCmds p q) p s

/-- One outcome becomes its record; a wait once a record cannot be written yet. -/
def flushOne (p : Nat) (acc : Went State) (c : Cmd) : Went State :=
  match acc with
  | .wait w => .wait w
  | .on s => match c.outcome with
    | none => .on s
    | some e =>
      if ((s.completeCmd p c e).part p).cmds.any fun y => y.same c && y.held == 0 then .wait (s.completeCmd p c e)
      else .on (s.completeCmd p c e)

/-- Writes the record of each command that has an outcome, after the Soundings records (R337); a wait
where one cannot be delivered yet (R238). -/
def State.flushRecords (s : State) (p : Nat) : Went State :=
  match (List.range 64).foldl (flushQueue p) (.on (s.mergeRest p)) with
  | .wait w => .wait w
  | .on s => ((s.part p).cmds.filter fun c => c.held == 0).foldl (flushOne p) (.on s)

/-- Absorbs the next descriptor that the tail of a queue exposes and says whether another may follow
(R53, R236); one that cannot be read, or has no room for its record, is the last (log entry 27). -/
def State.absorbOne (s : State) (p q : Nat) : Went (State × Bool) :=
  let x := (s.part p).queue q
  if x.state == 0 || x.head == x.tail || decide (x.n ≤ s.inflightOf p q + unconsumed x) then .on (s, false)
  else match s.readSlot p q with
    | (w, .held) => .wait w
    | (s', .fail _ _) => .on (s', false)
    | (s', .ok bs) =>
      let s1 := s'.takeDescriptor p q bs none
      match (s1.part p).cmds.getLast? with
      | none => .on (s1, false)
      | some c => match (s1.abortFetched p c 0x0301).flushRecords p with
        | .wait w => .wait w
        | .on s2 => .on (s2, true)

def absorbGo (p q : Nat) : Nat → State → Went State
  | 0, s => .on s
  | fuel + 1, s => match s.absorbOne p q with
    | .wait w => .wait w
    | .on x => if x.2 then absorbGo p q fuel x.1 else .on x.1

def State.absorbAll (s : State) (p : Nat) : Went State :=
  (List.range 64).foldl (fun acc q => match acc with
    | .wait w => .wait w
    | .on s => absorbGo p q (2 ^ 17) s) (s.flushRecords p)

/-- Zeroes every owned bank of a tile that can be reached (R27, R465). -/
def State.scrubBanks (s : State) (p : Nat) : State :=
  (List.range 4).foldl (fun s t =>
    let b := (s.part p).bdShare t
    if s.tileCut t || b.count == 0 then s
    else s.updTier .bd (·.zeroRange (t * 2 ^ 37 + b.first.toNat * bankBytes) (b.count.toNat * bankBytes))) s

/-- Steps 6 to 8. -/
def State.finishPartReset (s : State) (p : Nat) (scrub : Bool) : State :=
  let s := s.updPart p fun x => { x.afterReset with resetting := false }
  let ix := s.indexCores (s.part p).clMask
  let s := s.updPart p fun x => { x with index := ix, cores := BitVec.ofNat 8 ix.length }
  let s := ((s.partClusters p).flatMap clusterCores).foldl (fun s c =>
    s.updCore c fun x => { x with regs := { x.regs with state := 0 }, emitted := [] }) s
  if scrub then s.scrubBanks p else s

/-! Running resets (R466, R467). -/

/-- Everything that `b` covers lies in what `a` covers. -/
def State.resetCovers (s : State) (a b : RunningReset) : Bool :=
  match a.kind with
  | .core => b.kind == .core && a.target == b.target
  | .cluster => match b.cluster with
    | some cl => cl == a.target
    | none => false
  | .partition =>
    (b.kind == .partition && a.target == b.target)
    || (match b.cluster with
      | some cl => (s.part a.target).ownsCluster cl
      | none => false)
  | .module => true

def resetPart (r : RunningReset) : Option Nat :=
  if r.kind == .partition then some r.target else none

def resetCode : ResetKind → Nat
  | .core => 0
  | .cluster => 1
  | .partition => 2
  | .module => 3

/-- The record of a reset's start or end (R466): UNIT is the requester, ARG0 the target in [15:0] and the
kind in [17:16] (log entry 6). -/
def State.resetRecord (s : State) (code : Nat) (r : RunningReset) : State :=
  s.record { code, unit := r.requester.toNat, part := resetPart r
             arg0 := some (r.target + resetCode r.kind * 2 ^ 16) }

/-- A reset starts and is recorded. -/
def State.startReset (s : State) (r : RunningReset) : State :=
  let s := s.resetRecord 0x7020 r
  let s := { s with rst := { s.rst with running := s.rst.running ++ [r] } }
  match r.kind with
  | .core => s.resetCore r.target true
  | .cluster => (clusterCores r.target).foldl (fun s c => s.resetCore c true) s
  | .partition => s.startPartReset r.target
  | .module => s

/-- The cores of a finished core or cluster reset are idle, unless another reset holds them. -/
def State.releaseCores (s : State) (cs : List Nat) : State :=
  cs.foldl (fun s c =>
    let held := s.rst.running.any fun r => s.resetCovers r ⟨.core, c, false, 0, false⟩
    if held then s else s.updCore c fun x =>
      if x.regs.state == 3 then { x with regs := { x.regs with state := 0 } } else x) s

/-- The resets that `r` covers end with it. -/
def State.endResets (s : State) (r : RunningReset) : State :=
  let ended := s.rst.running.filter fun x => s.resetCovers r x
  let s := { s with rst := { s.rst with
    running := s.rst.running.filter fun x => !s.resetCovers r x, last := BitVec.ofNat 2 (resetCode r.kind) } }
  ended.foldl (fun s x => s.resetRecord 0x7021 x) s

/-! Helm cores (R38, R39, R470). -/

def State.helmRole (s : State) (h : Nat) : Nat := (s.unit (uHelm h)).role.toNat

/-- The partition that a helm core serves. -/
def State.helmPart (s : State) (h : Nat) : Option Nat :=
  (List.range 16).find? fun p => (s.part p).state != 0 && (s.part p).helm.toNat == h

/-- The next helm core for a partition whose own has failed: a spare of the same tile, one of another
tile in ascending order, a serving one that no partition holds (R39). -/
def State.nextHelm (s : State) (h : Nat) : Option Nat :=
  let all := List.range 20
  let spare := fun i => s.helmRole i == 2
  let idle := fun i => (s.helmRole i == 1 || s.helmRole i == 3) && (s.helmPart i).isNone
  match all.find? fun i => i / 5 == h / 5 && spare i with
  | some i => some i
  | none => match all.find? spare with
    | some i => some i
    | none => all.find? idle

/-! Teardown (R432). -/

/-- A wake that is queued for an island is forgotten: the island no longer needs it. -/
def State.dropWakes (s : State) (isl : Nat) : State :=
  let ws := SMap.modify [] s.clk.wakes (isl / 25) (fun l => l.filter fun e => e.1 != isl)
  { s with clk := { s.clk with wakes := ws } }

def State.gateCluster (s : State) (cl : Nat) : State :=
  (s.dropWakes (islandOfCluster cl)).updIsland (islandOfCluster cl) fun x => { x with state := 3 }

/-- Step 5: everything returns but PAR_EN_CNT. -/
def State.endTeardown (s : State) (p : Nat) : State :=
  let cls := s.partClusters p
  let s := s.updPart p fun x => { enCount := x.enCount }
  (cls.foldl (fun s cl => s.gateCluster cl) s).eventP 0x6011 s.uMgmt p

/-- The reset with scrub is over: the key waits for its turn; with no active engine it is lost already
(R440). -/
def State.queueDestroy (s : State) (p : Nat) : State :=
  if s.sec.failed then s.endTeardown p
  else { s with sec := { s.sec with waiting := s.sec.waiting ++ [.keyDestroy p] } }

/-- Steps 1 and 2 of R432. -/
def State.startTeardown (s : State) (p : Nat) : State :=
  (s.updPart p fun x => { x with state := 3, en := false }).startReset
    ⟨.partition, p, true, BitVec.ofNat 16 s.uMgmt, false⟩

/-- The end of a partition reset that an enable, a helm failure or a teardown has led to: a partition
without its helm core is rebound, or torn down when none is left (R39; log entry 27). -/
def State.afterPartReset (s : State) (p : Nat) : State :=
  if s.enabled p && (s.part p).unbound then
    match s.nextHelm (s.part p).helm.toNat with
    | some h =>
      let s := if s.helmRole h = 2 then
          s.updUnit (uHelm h) fun x => { x with role := 3 }
        else s
      s.updPart p fun x => { x with helm := BitVec.ofNat 5 h, unbound := false }
    | none => (s.eventP 0x7014 (s.uPartHelm p) p).startTeardown p
  else if (s.part p).state == 3 then s.queueDestroy p
  else s

/-- A running core, cluster or partition reset ends, together with those it covers; one that a wider
reset covers ends with that one. -/
def State.endReset (s : State) (r : RunningReset) : State :=
  let covers := s.rst.running.filter fun x => s.resetCovers r x
  let wider := s.rst.running.any fun x => s.resetCovers x r && !s.resetCovers r x
  if wider then s
  else match r.kind with
    | .module => s
    | .partition => match s.absorbAll r.target with
      | .wait w => s.waking w
      | .on s' =>
        let scrub := covers.any fun x => x.kind == .partition && x.scrub
        ((s'.finishPartReset r.target scrub).endResets r).afterPartReset r.target
    | .cluster => (s.endResets r).releaseCores (clusterCores r.target)
    | .core => (s.endResets r).releaseCores [r.target]

def execResetEnd (k : ResetKind) (target : Nat) (s : State) : Ans :=
  .next (match s.rst.running.find? fun r => r.kind == k && r.target == target with
    | some r => s.endReset r
    | none => s)

/-! Requests of the host (R467). -/

/-- A cluster or core that the Chart has left nothing of, or that is cut off, is absent. -/
def State.coreServes (s : State) (c : Nat) : Bool :=
  decide (c < 192) && !s.tileCut (c / 48) && (s.unit (uCore c)).role != 0

def State.resetAbsent (s : State) (kind target : Nat) : Bool :=
  match kind with
  | 0 => !s.coreServes target
  | 1 => decide (32 ≤ target) || !(clusterCores target).any s.coreServes
  | _ => decide (16 ≤ target) || !s.enabled target

/-- Step S9 has been reached. -/
def State.reachedS9 (s : State) : Bool :=
  s.stepDone 9 || (s.bu.busy && s.bu.run == 9)

def resetBusy (s : State) : Bool := s.rst.running.any fun r => r.byHost

def State.resetErr (s : State) (e : Nat) : State :=
  { s with rst := { s.rst with err := BitVec.ofNat 3 e } }

/-- MOD_RST_GO for a core, cluster or partition reset. -/
def State.hostReset (s : State) (unit : Nat) : State :=
  let k := s.rst.kind.toNat
  let t := s.rst.target.toNat
  if resetBusy s then s.resetErr 1
  else if !s.reachedS9 then s.resetErr 3
  else if s.resetAbsent k t then s.resetErr 2
  else
    (s.resetErr 0).startReset ⟨if k = 0 then .core else if k = 1 then .cluster else .partition,
      t, s.rst.scrub, BitVec.ofNat 16 unit, true⟩

end Sys2Proof.Machine
end

