-- ==== Sys2Proof/Machine/Failures.lean ====
section
/-! DEFINITION. Units that fail in service: cores and helm cores with their spares (R39, R470), tile
bridges and the tiles they cut off (R26, R27), the security engine (R440), and units without a spare
(R469). -/

namespace Sys2Proof.Machine

/-! Cores. -/

/-- The logical number that a physical core holds. -/
def State.logicalOf (s : State) (c : Nat) : Option Nat :=
  (List.range s.mod.lcores.toNat).find? fun l => s.physOf l == some c

def State.setLogical (s : State) (l : Nat) (c : Option Nat) : State :=
  let v := match c with | some k => k + 1 | none => 0
  let m := SMap.set 0 s.mod.lmap l v
  { s with mod := { s.mod with lmap := m } }

/-- An unused spare leaves the list of spares. -/
def State.takeSpare (s : State) (c : Nat) : State :=
  { s with mod := { s.mod with
      spareCores := s.mod.spareCores.filter (· != c), sparesFree := s.mod.sparesFree - 1 } }

/-- The logical number has no core any longer (R31). -/
def State.makeHole (s : State) (l : Nat) : State :=
  let s := s.setLogical l none
  { s with mod := { s.mod with holes := s.mod.holes + 1 } }

/-- A unit is marked bad for good, by a kind 1 record with cause 3 (R458, R470). -/
def State.markBad (s : State) (u : Nat) : State :=
  (s.repairRec u 0 1 3).updUnit u fun x => { x with repairBad := true, role := 0 }

/-- The spare of the cluster takes the failed core's logical number, or the number is a hole (R31). -/
def State.replaceCore (s : State) (c : Nat) : State :=
  match s.logicalOf c with
  | none => s.takeSpare c
  | some l =>
    match s.mod.spareCores.find? fun k => clusterOf k == clusterOf c with
    | some k =>
      let s := (s.takeSpare k).setLogical l (some k)
      (s.updUnit (uCore k) fun x => { x with role := 3 }).event 0x7013 (uCore c)
    | none => (s.makeHole l).event 0x7014 (uCore c)

/-- A core fails in service, on a fault that its checkers report or on its fourth uncorrectable
scratchpad address: it is reset and replaced (R470). -/
def State.coreFailed (s : State) (c : Nat) : State :=
  if s.stepDone 7 && s.coreServes c then
    let s := s.startReset ⟨.core, c, false, BitVec.ofNat 16 s.uMgmt, false⟩
    (s.markBad (uCore c)).replaceCore c
  else s

/-! Helm cores. -/

/-- The partition that loses its helm core is reset, and rebound when that reset ends; while it is being
enabled this waits for the enable (R420). -/
def State.helmLost (s : State) (p : Nat) : State :=
  let x := s.part p
  if x.state == 3 then s
  else
    let s := s.updPart p fun y => { y with unbound := true }
    if x.state == 2 && !x.resetting then
      s.startReset ⟨.partition, p, false, BitVec.ofNat 16 s.uMgmt, false⟩
    else s

def State.helmFail (s : State) (h : Nat) : State :=
  if s.stepDone 7 && s.helmRole h != 0 then
    let serves := s.helmPart h
    let s := s.markBad (uHelm h)
    match serves with
    | some p => s.helmLost p
    | none => s
  else s

/-! Units without a spare (R469). -/

/-- Every live command that a unit serves ends with DEVICE_FAULT and names it. -/
def State.faultUsers (s : State) (uses : State → Nat → Cmd → Bool) (u : Nat) : State :=
  (List.range 16).foldl (fun s p =>
    ((s.part p).cmds.filter fun c => cmdLive c && uses s p c).foldl
      (fun s c => s.faultCmd p c 0 u) s) s

/-- Looms, collective and update engines, and clock islands outside the clusters. -/
def noSpare (u : Nat) : Bool :=
  let i := u % 0x1000
  match u / 0x1000 with
  | 0x8 => decide (i < 40)
  | 0x9 => decide (i < 4)
  | 0xA => decide (i < 4)
  | 0xE => decide (i < 100 ∧ 8 ≤ i % 25)
  | _ => false

/-- Peer links of a peer-link island (R42, R46). -/
def linksOfIsland (i : Nat) : List Nat :=
  if 16 ≤ i % 25 ∧ i % 25 < 20 then
    (List.range 64).filter fun l => l % 4 == i / 25 && l / 16 == i % 25 - 16
  else []

/-- What an island takes with it: its peer links, or its tile's helm cores. -/
def State.islandLost (s : State) (i : Nat) : State :=
  let s := (linksOfIsland i).foldl (fun s l => s.withService l fun s =>
    if (s.link l).state == 0 || (s.link l).state == 5 then s else s.linkLanes l false false 0 3) s
  if i % 25 = 23 then (List.range 5).foldl (fun s k => s.helmFail (5 * (i / 25) + k)) s else s

def State.unitFailed (s : State) (n : Nat) : State :=
  if s.stepDone 7 && noSpare n && !s.cht.lost.contains n then
    let s := s.faultUsers (fun s p c => s.usesUnit p c n) n
    let s := { s with cht := { s.cht with lost := s.cht.lost ++ [n] } }
    let s := (s.updUnit n fun x => { x with role := 0 }).event 0x7014 n
    if n / 0x1000 = 0xE then s.islandLost (n % 0x1000) else s
  else s

/-! Failures during an enable (R420, R461). -/

def State.enabling (s : State) : Bool := (List.range 16).any fun p => (s.part p).state == 1

/-- A core, a helm core or a unit without a spare fails. -/
def State.failed (s : State) (u : Nat) : State :=
  if u / 0x1000 = 1 then s.coreFailed (u % 0x1000)
  else if u / 0x1000 = 3 then s.helmFail (u % 0x1000)
  else s.unitFailed u

/-- While a partition is being enabled the failure waits for the end of the enable. -/
def State.failUnit (s : State) (u : Nat) : State :=
  if s.enabling then { s with cht := { s.cht with late := s.cht.late ++ [u] } } else s.failed u

/-- The failures that have waited take effect, once no enable runs. -/
def State.lateFailures (s : State) : State :=
  if s.enabling then s
  else s.cht.late.foldl State.failed { s with cht := { s.cht with late := [] } }

def execCoreHwFault (c : Fin 192) (s : State) : Ans := .next (s.failUnit (uCore c.val))

def execHelmHeartbeatTimeout (h : Fin 20) (s : State) : Ans := .next (s.failUnit (uHelm h.val))

def execUnitFail (u : BitVec 16) (s : State) : Ans :=
  .next (if noSpare u.toNat then s.failUnit u.toNat else s)


/-! The security engine (R440). -/

/-- The enable ends with a reason (R418): what it had taken is free again. -/
def State.failEnable (s : State) (p reason : Nat) : State :=
  let s := if (s.part p).index.isEmpty then s
    else (s.partClusters p).foldl (fun s cl => s.gateCluster cl) s
  let s := (s.updPart p fun x => { x with
    en := false, state := 0, err := BitVec.ofNat 4 reason, heldDisable := false, unbound := false
    slotMap := 0, cores := 0, index := [] }).eventP 0x6012 s.uMgmt p
  s.lateFailures

/-- An operation that no engine is left to serve. -/
def State.dropSecOp (s : State) : SecOp → State
  | .keyGen p => s.failEnable p 8
  | .keyDestroy p => s.endTeardown p
  | .report _ _ => { s with sec := { s.sec with busy := false, err := 3 } }

/-- A key that is lost: what was written under it can no longer be read (R199, R440). -/
def State.loseKey (s : State) (p : Nat) : State :=
  if (s.part p).key = 0 then s
  else
    let k := s.mem.nextKey
    ({ s with mem := { s.mem with nextKey := k + 1 } }).updPart p fun x => { x with key := k }

def State.secFail (s : State) : State :=
  if s.sec.failed then s
  else
    let ops := s.sec.waiting
    let s := ({ s with sec := { s.sec with failed := true, waiting := [] } }).event 0x6032 s.uSec
    let s := (List.range 16).foldl (fun s p => s.loseKey p) s
    ops.foldl (fun s o => s.dropSecOp o) s

def execSecEngineFail (s : State) : Ans := .next (if s.stepDone 7 then s.secFail else s)

/-! Bridges (R23, R26, R27). -/

def bridgeEnds : Nat → Nat × Nat
  | 0 => (0, 1)
  | 1 => (1, 3)
  | 2 => (3, 2)
  | _ => (2, 0)

/-- Tiles next to a tile over the bridges in service. -/
def tilesNext (up : BitVec 4) (t : Nat) : List Nat :=
  (List.range 4).filterMap fun b =>
    if !up.getLsbD b then none
    else if (bridgeEnds b).1 = t then some (bridgeEnds b).2
    else if (bridgeEnds b).2 = t then some (bridgeEnds b).1
    else none

/-- Tiles that stay joined to a tile. -/
def tilesJoined (up : BitVec 4) (t : Nat) : List Nat :=
  (List.range 3).foldl (fun ts _ => (ts ++ ts.flatMap (tilesNext up)).eraseDups) [t]

/-- Tiles outside the set of the active management core, bit by bit. -/
def State.cutBy (s : State) (up : BitVec 4) : BitVec 4 :=
  let ts := tilesJoined up (b2n s.mod.mgmtT1)
  BitVec.ofNat 4 ((List.range 4).foldl (fun a t => a + (if ts.contains t then 0 else 2 ^ t)) 0)

/-- The partition owns something on one of the tiles. -/
def ownsOnTiles (x : Part) (cut : BitVec 4) : Bool :=
  (List.range 4).any fun t => cut.getLsbD t
    && (x.clMask.toNat / 2 ^ (8 * t) % 256 != 0 || x.helm.toNat / 5 == t
      || (x.bdShare t).count != 0 || x.chMask.toNat / 2 ^ (4 * t) % 16 != 0)

/-- Shared units of a tile that a command may use. -/
def unitsOfTile (t : Nat) : List Nat :=
  [uLoom t, uColl t] ++ (List.range 10).map (fun k => uUpd (10 * t + k))
  ++ (List.range 17).map fun k => uIsland (25 * t + 8 + k)

/-- Commands that use a unit of a tile end with DEVICE_FAULT and name it (R27). -/
def State.faultTile (s : State) (t : Nat) : State :=
  let s := (clusterCoresOfTile t).foldl (fun s i =>
    s.faultUsers (fun s p c => (s.heldCores p c).contains i) (uCore i)) s
  (unitsOfTile t).foldl (fun s u => s.faultUsers (fun s p c => s.usesUnit p c u) u) s
where
  clusterCoresOfTile (t : Nat) : List Nat := (List.range 48).map (48 * t + ·)

/-- A tile's cores and helm cores are failed without a spare; its links and port leave service. -/
def State.dropTile (s : State) (t : Nat) : State :=
  let cs := (List.range 48).map (48 * t + ·)
  let s := cs.foldl (fun s i =>
    let s := match s.logicalOf i with
      | some l => s.makeHole l
      | none => if s.mod.spareCores.contains i then s.takeSpare i else s
    s.updUnit (uCore i) fun x => { x with role := 0 }) s
  let s := (List.range 5).foldl (fun s k =>
    s.updUnit (uHelm (5 * t + k)) fun x => { x with role := 0 }) s
  let s := ((List.range 64).filter fun l => l % 4 == t).foldl (fun s l =>
    s.updLink l fun k => if k.state == 5 then k else { k with state := 0, lanes := 0 }) s
  let s := (List.range 2).foldl (fun s u => if tileOfPort u = t then s.portDown u 0 else s) s
  s.routesChanged 0

/-- The partitions that own something on a tile that is cut off are torn down; one that is being
enabled follows when its enable ends (R420). -/
def State.dropOwners (s : State) (cut : BitVec 4) : State :=
  (List.range 16).foldl (fun s p =>
    let x := s.part p
    if ownsOnTiles x cut then
      if x.state == 2 then s.startTeardown p
      else if x.state == 1 then s.updPart p fun y => { y with heldDisable := true }
      else s
    else s) s

/-- Tiles newly cut off (R27). The event's ARG0 names the failed bridges in [3:0] and the tiles that are
cut off in [7:4] (log entry 6). -/
def State.cutOff (s : State) (new : BitVec 4) : State :=
  let ts := (List.range 4).filter fun t => new.getLsbD t
  let s := ts.foldl (fun s t => s.faultTile t) s
  let s := { s with mod := { s.mod with tileCut := s.mod.tileCut ||| new } }
  let s := s.eventA 0x0012 s.uMgmt (s.mod.bridgeFailed.toNat + s.mod.tileCut.toNat * 16) 0
  let s := ts.foldl (fun s t => s.dropTile t) s
  let s := s.dropOwners new
  let s := if ts.contains 0 && !s.log.mirror then
      ({ s with log := { s.log with mirror := true } }).event 0xF005 s.uMgmt
    else s
  if ts.contains (b2n s.sec.activeT1) then s.secFail else s

/-- The bridges that are up change in one update with MOD_RING_CHAIN (R63). -/
def State.setBridges (s : State) (up : BitVec 4) : State :=
  { s with mod := { s.mod with bridgeUp := up, bridgeFailed := ~~~up, ringChain := up != 0xF } }

/-- The tiles that the bridges in service no longer join to the active management core are cut off. -/
def State.split (s : State) : State :=
  let new := s.cutBy s.mod.bridgeUp &&& ~~~s.mod.tileCut
  if new = 0 then s else s.cutOff new

def execBridgeFail (b : Fin 4) (s : State) : Ans :=
  .next (
    if s.stepDone 3 && s.mod.bridgeUp.getLsbD b.val then
      let up := s.mod.bridgeUp &&& ~~~(BitVec.ofNat 4 (2 ^ b.val))
      ((s.setBridges up).event 0x0013 (uBridge b.val)).split
    else s)

end Sys2Proof.Machine
end

