-- ==== Sys2Proof/Machine/Security.lean ====
section
/-! DEFINITION. Enabling a partition (R415 to R420, R422), and the security engine: its turns (R439),
the leaves of the identity key (R436, R437), attestation reports (R444 to R446), and the rules of
SEC_CTL and SEC_SVN (R443). -/

namespace Sys2Proof

/-! Composition registers as words (R415). -/

def Part.ctlWord (x : Part) : Word :=
  BitVec.ofNat 32 (x.en.toNat + x.sealed.toNat * 2 + x.helm.toNat * 4 + x.slots.toNat * 128)

def BdShare.word (b : BdShare) : Word := BitVec.ofNat 32 (b.first.toNat + b.count.toNat * 64)

/-- Positions held, bit by bit (R422). -/
def Part.positions (x : Part) : List Nat := (List.range 64).filter fun i => x.slotMap.getLsbD i

end Sys2Proof

namespace Sys2Proof.Machine

/-! Identity words (R6, R103, R242). -/

def State.partIdWord (s : State) : Word :=
  packWord [(16, 0x0064), (12, s.board.memCode.toNat), (4, s.board.revLetter.toNat),
    (0, s.board.revDigit.toNat)]

def refIdWord : Word := 0x0101

def State.coordWord (s : State) : Word :=
  let m := s.mod
  packWord [(0, m.coordX.toNat), (2, m.coordY.toNat), (4, m.coordZ.toNat), (6, m.coordW.toNat),
    (16, m.sizeX.toNat), (18, m.sizeY.toNat), (20, m.sizeZ.toNat), (22, m.sizeW.toNat),
    (31, b2n m.coordLock)]

/-! Checks of an enable (R418). -/

/-- SLOTS fits SEAL (R415). -/
def slotsOk (sealed : Bool) (slots : Nat) : Bool :=
  if sealed then decide (1 ≤ slots ∧ slots ≤ 48) else slots == 0

def shareOk (b : BdShare) : Bool := decide (b.first.toNat + b.count.toNat ≤ 64)

/-- Partitions other than `p` that are not disabled. -/
def State.otherParts (s : State) (p : Nat) : List Nat :=
  (List.range 16).filter fun q => q != p && (s.part q).state != 0

def banksMeet (a b : BdShare) : Bool :=
  decide (a.count ≠ 0 ∧ b.count ≠ 0 ∧ a.first.toNat < b.first.toNat + b.count.toNat
    ∧ b.first.toNat < a.first.toNat + a.count.toNat)

/-- Check 2: a reserved value, no cluster, or no bank. -/
def compositionBad (memCode : BitVec 4) (x : Part) : Bool :=
  decide (20 ≤ x.helm.toNat) || !slotsOk x.sealed x.slots.toNat
  || !((List.range 4).all fun t => shareOk (x.bdShare t))
  || (memCode == 2 && x.chMask &&& 0xAAAA != 0)
  || x.clMask == 0 || (List.range 4).all fun t => (x.bdShare t).count == 0

/-- A cluster holds an enabled core. -/
def State.clusterServes (s : State) (cl : Nat) : Bool :=
  (clusterCores cl).any fun c => (s.logicalOf c).isSome

/-- The first check of R418 that the request fails; 0 = none. -/
def State.enableErr (s : State) (p : Nat) : Nat :=
  let x := s.part p
  let others := s.otherParts p
  if !s.reachedS9 || !s.bu.bdWritten then 1
  else if compositionBad s.board.memCode x then 2
  else if (s.partClusters p).any fun cl =>
      others.any (fun q => (s.part q).ownsCluster cl) || !s.clusterServes cl then 3
  else if !(s.helmRole x.helm.toNat == 1 || s.helmRole x.helm.toNat == 3)
      || others.any fun q => (s.part q).helm == x.helm then 4
  else if (List.range 4).any fun t => others.any fun q =>
      banksMeet (x.bdShare t) ((s.part q).bdShare t) then 5
  else if others.any fun q => (x.sealed || (s.part q).sealed) && (s.part q).chMask &&& x.chMask != 0 then 6
  else if x.sealed && decide (48 < x.slots.toNat
      + ((others.filter fun q => (s.part q).sealed).map fun q => (s.part q).slots.toNat).sum) then 7
  else if s.sec.failed then 8
  else 0

/-- The lowest free positions that are no forwarding positions (R421, R422). -/
def State.assignSlots (s : State) (p : Nat) : BitVec 64 :=
  let taken := (s.otherParts p).flatMap fun q => (s.part q).positions
  let free := (List.range 64).filter fun i => i % 8 != 0 && !taken.contains i
  BitVec.ofNat 64 ((free.take (s.part p).slots.toNat).foldl (fun a i => a + 2 ^ i) 0)

/-! The enable (R419). -/

/-- Steps 2 and 3: the checks, then wakes, indices and positions; the key waits for its turn. -/
def State.startEnable (s : State) (p : Nat) : State :=
  let s := s.updPart p fun x => { x with state := 1, err := 0 }
  match s.enableErr p with
  | 0 =>
    let ix := s.indexCores (s.part p).clMask
    let map := if (s.part p).sealed then s.assignSlots p else 0
    let s := s.updPart p fun x => { x with index := ix, slotMap := map, cores := BitVec.ofNat 8 ix.length }
    let s := (s.partClusters p).foldl (fun s cl => s.queueWake (islandOfCluster cl)) s
    { s with sec := { s.sec with waiting := s.sec.waiting ++ [.keyGen p] } }
  | n => (s.updPart p fun x => { x with state := 0, en := false, err := BitVec.ofNat 4 n }).eventP
      0x6012 s.uMgmt p

/-- The configuration block, as it stands when PAR_STATE becomes 2 (R446). -/
def State.configBlock (s : State) (p : Nat) : List Byte :=
  let x := s.part p
  leBytes 4 x.ctlWord.toNat ++ leBytes 4 x.clMask.toNat ++ leBytes 4 x.chMask.toNat
  ++ (List.range 4).flatMap (fun t => leBytes 4 (x.bdShare t).word.toNat)
  ++ leBytes 4 refIdWord.toNat ++ leBytes 4 s.coordWord.toNat ++ leBytes 4 x.enCount.toNat
  ++ leBytes 2 x.cores.toNat ++ leBytes 2 (uHelm x.helm.toNat) ++ leBytes 8 x.slotMap.toNat
  ++ List.replicate 12 0

/-- Steps 4 and 5: the key, every other register at its reset value, PAR_STATE 2. A helm core that
failed, or a disable that came, during the enable takes effect now (R420). -/
def State.endEnable (s : State) (p : Nat) : State :=
  let k := s.mem.nextKey
  let held := (s.part p).heldDisable
  let s := { s with mem := { s.mem with nextKey := k + 1 } }
  let s := s.updPart p fun x => { x.afterReset with
    key := k, enCount := x.enCount + 1, state := 2, heldDisable := false }
  let cfg := s.configBlock p
  let s := (s.updPart p fun x => { x with cfg := cfg }).eventP 0x6010 s.uMgmt p
  let s := if held then s.startTeardown p
    else if (s.part p).unbound then
      s.startReset ⟨.partition, p, false, BitVec.ofNat 16 s.uMgmt, false⟩
    else s
  s.lateFailures

/-! Leaves (R436, R437). -/

/-- The eight words can take one more reservation. -/
def State.leafSpare (s : State) : Bool :=
  let i := 1024 + ((rotTop s.prs 1024).1 + 1) % 8
  !s.prs.worn i || decide (s.prs.sparesUsed < 512)

/-- Word 1,060: SEC_SVN_MIN in [15:0] and the exhausted flag in bit 16 (log entry 28). -/
def svnWord : Nat := 1060

def State.svnMin (s : State) : Nat := (s.prsWord svnWord).toNat % 2 ^ 16

def State.idExhausted (s : State) : Bool := (s.prsWord svnWord).getLsbD 16

/-- Takes the next leaf, with a new reservation ahead of its use; `none` = exhausted. -/
def State.takeLeaf (s : State) : State × Option Nat :=
  let top := (rotTop s.prs 1024).2
  let fresh := decide (s.sec.leafTop ≤ s.sec.leaf)
  let q := if fresh then max s.sec.leaf top else s.sec.leaf
  if s.idExhausted then (s, none)
  else if 2 ^ 40 ≤ q || (fresh && !s.leafSpare) then
    let s := s.prsOwn svnWord (s.prsWord svnWord ||| 0x10000)
    (s.event 0x6031 s.uSec, none)
  else
    let i := 1024 + ((rotTop s.prs 1024).1 + 1) % 8
    let s := if fresh then s.prsOwn i (BitVec.ofNat 64 (top + 2 ^ 16)) else s
    let lim := if fresh then top + 2 ^ 16 else s.sec.leafTop
    ({ s with sec := { s.sec with leaf := q + 1, leafTop := lim } }, some q)

/-! Reports (R444, R445). -/

def State.nonceBytes (s : State) : List Byte :=
  (List.range 8).flatMap fun i => leBytes 4 (SMap.get 0 s.sec.nonce i).toNat

/-- The 256-byte body of a report. -/
def State.reportBody (s : State) (kind p q : Nat) : List Byte :=
  let cfg := if kind = 1 then (s.part p).cfg else []
  overlay (List.replicate 256 0) (
    [(0x00, 4, 0x54414B5A), (0x04, 2, 1), (0x06, 1, kind), (0x07, 1, if kind = 1 then p else 0xFF),
     (0x08, 4, s.partIdWord.toNat), (0x0C, 2, s.sec.svnRun.toNat), (0x0E, 1, b2n s.sec.fwSlot),
     (0x10, 32, leNat s.nonceBytes), (0x30, 32, leNat s.sec.measurement), (0x50, 32, leNat s.bu.descHash),
     (0x70, 32, if kind = 1 then leNat (sha256 cfg) else 0), (0x90, 64, leNat cfg),
     (0xD0, 8, s.log.optime.toNat), (0xD8, 4, s.pcycles), (0xE0, 8, q)])

/-- A big-endian 32-bit word of RFC 8554. -/
def hssWord (x : Nat) : List Byte := (leBytes 4 x).reverse

/-- LMS_SHA256_M32_H20 and LMOTS_SHA256_N32_W8 (R435); their codes are RFC 8554's (log entry 28). -/
def lmsType : List Byte := hssWord 8
def lmotsType : List Byte := hssWord 4

/-- One level's signature: leaf, one-time signature (a randomiser and 34 hashes) and path (20 hashes). -/
def lmsSignature (leaf : Nat) (part : Nat → Byte) : List Byte :=
  hssWord leaf ++ lmotsType ++ (List.range 1120).map part
  ++ lmsType ++ (List.range 640).map fun i => part (1120 + i)

/-- The HSS signature of two levels with leaf index `q`: its bits [39:20] are the top-level leaf, which
signs the lower tree, and bits [19:0] that tree's leaf, which signs the message (R435). -/
def signature (q : Nat) (msg : List Byte) : List Byte :=
  let top := q / 2 ^ 20
  hssWord 1 ++ lmsSignature top (Config.hssTop top)
  ++ lmsType ++ lmotsType ++ (List.range 48).map (Config.hssTree top)
  ++ lmsSignature (q % 2 ^ 20) (Config.hssLow q msg)

/-- An HSS signature is 3,604 bytes long (R435). -/
theorem signature_length (q : Nat) (msg : List Byte) : (signature q msg).length = 3604 := by
  simp [signature, lmsSignature, hssWord, lmsType, lmotsType, leBytes]

def State.reportErr (s : State) (e : Nat) : State :=
  { s with sec := { s.sec with busy := false, err := BitVec.ofNat 3 e, outLen := 0 } }

def State.serveReport (s : State) (kind p : Nat) : State :=
  if kind = 1 && !s.enabled p then s.reportErr 1
  else match s.takeLeaf with
    | (s', none) => s'.reportErr 2
    | (s', some q) =>
      let body := s'.reportBody kind p q
      let out := body ++ signature q body
      { s' with sec := { s'.sec with out := out, outLen := BitVec.ofNat 16 out.length, busy := false } }

/-- SEC_REQ_GO with KIND and PART as they now stand (R443, R444). KIND 0 and 3 start nothing (log entry
28). -/
def State.secGo (s : State) : State :=
  let kind := s.sec.kind.toNat
  let p := s.sec.part.toNat
  if kind = 0 || kind = 3 then s
  else
    let s := { s with sec := { s.sec with err := 0, outLen := 0, out := [] } }
    if s.sec.fwState != 1 || s.sec.failed then s.reportErr 3
    else if kind = 1 && !s.enabled p then s.reportErr 1
    else if s.idExhausted then s.reportErr 2
    else { s with sec := { s.sec with busy := true, waiting := s.sec.waiting ++ [.report kind p] } }

/-! Turns (R439). -/

/-- The turn that an operation is served in. -/
def opTurn : SecOp → Nat
  | .keyGen p => p
  | .keyDestroy p => p
  | .report kind p => if kind = 1 then p else 16

/-- A key is generated once the partition's clusters are awake (R419). -/
def State.opReady (s : State) : SecOp → Bool
  | .keyGen p => (s.partClusters p).all fun cl => s.awake (islandOfCluster cl)
  | _ => true

def State.serveOp (s : State) : SecOp → State
  | .keyGen p => s.endEnable p
  | .keyDestroy p => s.endTeardown p
  | .report kind p => s.serveReport kind p

/-- A turn starts and serves the oldest operation that is its own. -/
def execSecTurn (s : State) : Ans :=
  .next (
    if s.sec.failed || !s.reachedS9 then s
    else
      let t := s.sec.turn
      let s := { s with sec := { s.sec with turn := (t + 1) % 17 } }
      match s.sec.waiting.find? fun o => opTurn o == t && s.opReady o with
      | none => s
      | some o => ({ s with sec := { s.sec with waiting := s.sec.waiting.erase o } }).serveOp o)

/-! SEC_CTL and SEC_SVN (R443). -/

/-- SEC_REVOKE0 written 1. -/
def State.revoke0 (s : State) : State :=
  if s.sec.fwSlot then
    ({ s with sec := { s.sec with slot0Revoked := true } }).event 0x6022 s.uSec
  else s

/-- A write of SEC_SVN_MIN is accepted from its current value up to SEC_SVN_RUN. -/
def State.writeSvnMin (s : State) (v : Nat) : State :=
  if s.svnMin ≤ v ∧ v ≤ s.sec.svnRun.toNat then
    s.prsOwn svnWord (BitVec.ofNat 64 ((s.prsWord svnWord).toNat / 2 ^ 16 * 2 ^ 16 + v))
  else s

/-! PAR_CTL (R415, R416, R418, R420, R433). -/

/-- The fields of a written PAR_CTL, each reserved value keeping the old one (R20); whether one was. -/
def ctlFields (x : Part) (w : Nat) : Part × Bool :=
  let seal_ := bit w 1
  let helm := fld w 2 5
  let slots := fld w 7 6
  let badHelm := decide (20 ≤ helm)
  let badSlots := !slotsOk seal_ slots
  ({ x with
      sealed := seal_, helm := if badHelm then x.helm else BitVec.ofNat 5 helm
      slots := if badSlots then x.slots else BitVec.ofNat 6 slots }, badHelm || badSlots)

def State.writeParCtl (s : State) (unit p w : Nat) : State :=
  let x := s.part p
  let en := bit w 0
  if x.state = 0 then
    let f := ctlFields x w
    let s := s.updPart p fun _ => { f.1 with en := en }
    let s := if f.2 then s.event 0x8021 unit else s
    if en then s.startEnable p else s
  else if en then s.eventP 0x6001 unit p
  else if x.state = 1 then s.updPart p fun x => { x with heldDisable := true }
  else if x.state = 2 then s.startTeardown p
  else s

end Sys2Proof.Machine
end

