-- ==== Sys2Proof/Machine/Bringup.lean ====
section
/-! DEFINITION. Bring-up (R447 to R463): the module reset and S0, the board descriptor (R499 to R501),
the steps S1 to S10, the Chart, and power good and power loss (R528). -/

namespace Sys2Proof.Machine

/-! The board descriptor (R499 to R501). -/

/-- What the module reads of the flash: at most 64 KiB, nothing without MGMT_VIO (R526). -/
def State.flashRead (s : State) : List Byte := if s.pwr.mgmtVio then s.board.flash.take 65536 else []

/-- Header, body and signature of a descriptor whose MAGIC, VERSION and lengths are valid. -/
def descParts (f : List Byte) : Option (List Byte × List Byte × List Byte) :=
  let n := bAt f 8 4
  let m := bAt f 12 4
  if bAt f 0 4 = 0x44424B5A ∧ bAt f 4 2 = 1 ∧ n ≤ 32768 ∧ n % 4 = 0 ∧ 1 ≤ m ∧ m ≤ 16384
      ∧ 128 + n + m ≤ f.length then
    some (f.take 128, (f.drop 128).take n, (f.drop (128 + n)).take m)
  else none

/-- The owner's hash in words 1,056 to 1,059; empty while they are all zero. -/
def State.ownerHash (s : State) : List Byte :=
  let ws := (List.range 4).map fun i => s.prsWord (1056 + i)
  if ws.all (· == 0) then [] else ws.flatMap fun w => leBytes 8 w.toNat

/-- The four checks of R499: the body, or `none`. -/
def State.checkDesc (s : State) (f : List Byte) : Option (List Byte) :=
  match descParts f with
  | none => none
  | some (h, b, sig) =>
    let key := (h.drop 0x20).take 60
    let zeroed := h.take 0x10 ++ [0, 0, 0, 0] ++ h.drop 0x14
    let owner := s.ownerHash
    if (crc32 (zeroed ++ b)).toNat = bAt h 0x10 4 ∧ Config.hssVerify key (h ++ b) sig
        ∧ (owner = [] ∨ sha256 key = owner) then some b
    else none

/-- Sections of a body in order: type and contents. One that runs past the end ends the list. -/
def sectionsGo : Nat → List Byte → List (Nat × List Byte)
  | 0, _ => []
  | fuel + 1, b =>
    let n := bAt b 2 2
    if b.length < 4 + n then []
    else (bAt b 0 2, (b.drop 4).take n) :: sectionsGo fuel (b.drop (4 + ceilDiv n 4 * 4))

/-- The contents of the last section of a type. -/
def sectionOf (b : List Byte) (type : Nat) : Option (List Byte) :=
  ((sectionsGo (b.length / 4 + 1) b).filter fun e => e.1 == type).getLast?.map (·.2)

/-- Coordinates and sizes as MOD_COORD holds them; a reserved layout is not taken (R242). -/
def coordFields (m : ModRegs) (w : Nat) : ModRegs :=
  { m with
    coordX := BitVec.ofNat 2 w, coordY := BitVec.ofNat 2 (w / 4), coordZ := BitVec.ofNat 2 (w / 16)
    coordW := BitVec.ofNat 2 (w / 64), sizeX := BitVec.ofNat 2 (w / 2 ^ 16)
    sizeY := BitVec.ofNat 2 (w / 2 ^ 18), sizeZ := BitVec.ofNat 2 (w / 2 ^ 20)
    sizeW := BitVec.ofNat 2 (w / 2 ^ 22) }

def coordsLegal (m : ModRegs) : Bool :=
  decide (m.coordX.toNat ≤ m.sizeX.toNat ∧ m.coordY.toNat ≤ m.sizeY.toNat
    ∧ m.coordZ.toNat ≤ m.sizeZ.toNat ∧ m.coordW.toNat ≤ m.sizeW.toNat
    ∧ 16 ≤ (m.sizeX.toNat + 1) * (m.sizeY.toNat + 1) * (m.sizeZ.toNat + 1))

def takeCoords (m : ModRegs) (w : Nat) : ModRegs :=
  let m' := coordFields m w
  if coordsLegal m' then m' else m

/-! Rails (R474, R475). -/

/-- Nominal output in mV, and N (R474). -/
def railNominal (r : Nat) : Nat :=
  if r = 24 then 800 else match r % 6 with
    | 0 => 700 | 1 => 750 | 2 => 750 | 3 => 1050 | 4 => 900 | _ => 1050

def railN (r : Nat) : Nat :=
  if r = 24 then 1 else match r % 6 with
    | 0 => 24 | 4 => 4 | 5 => 4 | _ => 6

/-- The trim of a rail in mV, clamped (R501). -/
def trimOf (b : List Byte) (r : Nat) : Int :=
  match sectionOf b 2 with
  | none => 0
  | some c => max (-50) (min 50 (2 * signedOf 8 (bAt c r 1)))

/-! The field-repair map (R458, R459). -/

structure RepairRec where
  word : Nat
  unit : Nat
  sub : Nat
  kind : Nat
  cause : Nat
  good : Bool
  deriving DecidableEq, Repr

/-- Every record, in word order. -/
def State.repairs (s : State) : List RepairRec :=
  (List.range 1024).filterMap fun i =>
    let w := (s.prsWord i).toNat
    if w = 0 then none
    else some ⟨i, w % 2 ^ 16, fld w 16 24, fld w 40 4, fld w 44 4, crc8 (leBytes 7 w) == fld w 56 8⟩

def State.goodRepairs (s : State) (kind : Nat) : List RepairRec :=
  s.repairs.filter fun r => r.good && r.kind == kind

/-! S0 (R447, R457, R499). -/

/-- The fused row or a kind 1 record marks a management core or security engine bad. -/
def State.markedAtS0 (s : State) (u : Nat) : Bool :=
  (s.board.fusedRowOk && s.board.fusedBad.contains u) || (s.goodRepairs 1).any fun r => r.unit == u

/-- The T1 unit is chosen when the T0 unit is marked bad (R40); a row that fails its check selects T0. -/
def State.selectT1 (s : State) (u : Nat) : Bool :=
  s.board.fusedRowOk && s.markedAtS0 u && !s.markedAtS0 (u + 1)

/-- Coordinates 0 with dimension sizes 4 (R451). -/
def defaultMod (m : ModRegs) : ModRegs :=
  { m with coordX := 0, coordY := 0, coordZ := 0, coordW := 0, sizeX := 3, sizeY := 3, sizeZ := 3, sizeW := 3 }

/-- Reads the descriptor; a bad one leaves the defaults of R451. -/
def State.readDescriptor (s : State) : State :=
  let f := s.flashRead
  let n := match descParts f with
    | some x => 128 + x.2.1.length + x.2.2.length
    | none => f.length
  let s := { s with
    bu := { s.bu with descHash := sha256 (f.take n) }
    mod := defaultMod s.mod }
  match s.checkDesc f with
  | none => ({ s with bu := { s.bu with descBad := true } }).event 0x7004 s.uMgmt
  | some b =>
    let slot := sectionOf b 1
    let cap := (sectionOf b 6).map fun c => bAt c 0 2
    let bu := { s.bu with desc := b, hostDir := slot.map fun c => bAt c 20 1 }
    let mods := match slot with
      | some c => takeCoords s.mod (bAt c 16 4)
      | none => s.mod
    let pwr := match cap with
      | some w => if 1500 ≤ w ∧ w ≤ 3600 then { s.pwr with capW := BitVec.ofNat 16 w } else s.pwr
      | none => s.pwr
    let s := { s with bu := bu, mod := mods, pwr := pwr }
    if s.ownerHash = [] then s.event 0x7005 s.uMgmt else s

/-- Rails ramp, with the phases of kind 7 records kept off (R475). -/
def State.rampRails (s : State) : State :=
  let recs := s.goodRepairs 7
  let rails := (List.range 25).foldl (fun m r =>
    let off := (recs.filter fun e => e.unit == uRail r).map (·.sub)
    let mv := (railNominal r + trimOf s.bu.desc r).toNat
    SMap.set {} m r { volts := BitVec.ofNat 8 (mv / 5), retired := off }) []
  { s with pwr := { s.pwr with rails := rails, railsOn := !s.pwr.tripHold } }

/-- The power-cycle count rises by one and stops at 2²⁰ − 1 (R506). -/
def State.countPowerCycle (s : State) : State :=
  { s with prs := s.prs.commitOwn 1048 (BitVec.ofNat 64 (min (s.pcycles + 1) (2 ^ 20 - 1))) }

/-- S0: the module starts by itself. Its first record is the cause of the last module reset (R485,
R517). -/
def State.startS0 (s : State) (reset : Option (BitVec 16)) : State :=
  let was := s.prs
  let s := s.countPowerCycle
  let bu := { s.bu with
    run := 0, busy := true, outcome := if s.pwr.tripHold then none else some (0, 0) }
  let mods := { s.mod with mgmtT1 := s.selectT1 0x4000 }
  let sec := { s.sec with activeT1 := s.selectT1 0x5000, leaf := (rotTop s.prs 1024).2 }
  let log := { s.log with optime := BitVec.ofNat 40 (rotTop s.prs 1040).2 }
  let s := { s with bu := bu, mod := mods, sec := sec, log := log }
  let s := s.record { code := 0x0020, unit := 0, arg1 := some s.pwr.cause.toNat }
  let s := match reset with
    | some u => s.resetRecord 0x7021 ⟨.module, 0, false, u, false⟩
    | none => s
  let s := s.wearEvents was 1048
  let s := if s.board.fusedRowOk then s else s.event 0x7016 s.uMgmt
  s.readDescriptor.rampRails

/-! Module reset (R464, R466, R180). -/

/-- What a module reset leaves: fuses, board and cables, the persistent store and persistent ring, the
input, and the model's own fields. Every memory tier is undefined. -/
def State.wiped (s : State) (cause : BitVec 3) : State :=
  { pending := s.pending
    free := s.free
    board := s.board
    pwr := {
      input := s.pwr.input
      cause := cause
      temps := s.pwr.temps
      tripHold := s.pwr.tripHold
      mgmtVio := s.pwr.mgmtVio }
    ul := (List.range 2).foldl (fun m u => SMap.set {} m u { mated := (s.port u).mated }) []
    links := (List.range 64).foldl (fun m l => SMap.set {} m l { mated := (s.link l).mated }) []
    prs := {
      words := s.prs.words
      count := s.prs.count
      remap := s.prs.remap
      sparesUsed := s.prs.sparesUsed }
    log := {
      pring := s.log.pring
      pwait := s.log.pwait }
    sec := { slot0Revoked := s.sec.slot0Revoked }
    mem := { nextKey := s.mem.nextKey }
    out := s.out }

/-- A module reset overrides everything and starts again at S0 (R451, R467). It sends LEAVE for every
group (R264). -/
def State.moduleReset (s : State) (cause : Nat) (requester : Nat) : State :=
  if s.pwr.input != .good then s
  else
    let u := BitVec.ofNat 16 requester
    let s := (List.range 16).foldl (fun s p => s.leaveGroups p)
      (s.resetRecord 0x7020 ⟨.module, 0, false, u, false⟩)
    (s.wiped (BitVec.ofNat 3 cause)).startS0 (some u)

/-- Power good has been reached: S0 starts (R528). -/
def execPowerGood (s : State) : Ans :=
  .next (
    if s.pwr.input == .standby then
      ({ s with pwr := { s.pwr with input := .good } }).startS0 none
    else s)

/-- Input below 40 V: everything is off. The I3C target loses its state, and records that wait for the
persistent ring are lost (R513, R528). -/
def execPowerLoss (s : State) : Ans :=
  .next (
    let s := s.wiped 0
    { s with
      pwr := { s.pwr with input := .off, tripHold := false, temps := [] }
      log := { s.log with pwait := [] } })

/-- The always-on rail starts; the cause reads power-on (R485, R528). -/
def execAlwaysOnRailUp (s : State) : Ans :=
  .next (
    if s.pwr.input == .off then { s with pwr := { s.pwr with input := .standby, cause := 0 } }
    else s)

/-! Requests and outcomes of the steps (R449, R452, R453). -/

def State.setBu (s : State) (f : BuState → BuState) : State := { s with bu := f s.bu }

/-- The running step ends with a code, which BU_STEP_DONE reports; 0 = it completes. -/
def State.outcome (s : State) (code unit : Nat) : State :=
  s.setBu fun b => { b with outcome := some (code, unit) }

/-- MOD_BU_GO: step NEXT when it is one above MOD_BU_DONE (R449). S1 has no request. -/
def State.buGo (s : State) (next test : Nat) : State :=
  let b := s.bu
  if b.busy then s
  else if b.done = 0xF ∨ b.done.toNat = 0 ∨ next ≠ b.done.toNat + 1 ∨ 10 < next then
    s.setBu fun b => { b with code := 0x01, uid := 0 }
  else
    let s := s.setBu fun b => { b with
      busy := true, run := BitVec.ofNat 4 next, failed := false, outcome := none
      test := if next = 5 ∧ test < 2 then BitVec.ofNat 2 test else b.test }
    if next = 8 then { s with mod := { s.mod with coordLock := true } } else s

/-- Step `n` runs and has not done its work. -/
def State.stepRuns (s : State) (n : Nat) : Bool :=
  s.bu.busy && s.bu.run.toNat == n && s.bu.outcome.isNone

/-- S9 ends when its enables have ended. -/
def State.stepMayEnd (s : State) : Bool :=
  s.bu.run != 9 || (List.range 16).all fun p => (s.part p).state != 1

def execBuStepDone (s : State) : Ans :=
  .next (
    match s.bu.outcome with
    | none => s
    | some (code, unit) =>
      if !s.bu.busy || !s.stepMayEnd then s
      else if code = 0 then
        s.setBu fun b => { b with
          busy := false, failed := false, done := b.run, outcome := none, ready := b.ready || b.run == 10 }
      else
        (s.setBu fun b => { b with
          busy := false, failed := true, outcome := none, code := BitVec.ofNat 8 code
          uid := BitVec.ofNat 16 unit }).event 0x7002 (if unit = 0 then s.uMgmt else unit))

/-! S1 (R449, R451). -/

/-- S1 starts and has done its work. -/
def State.beginS1 (s : State) : State :=
  s.setBu fun b => { b with busy := true, run := 1, failed := false, offering := false, outcome := some (0, 0) }

/-- The links of a direction train in management mode. -/
def State.mgmtLinks (s : State) (d lanes : Nat) : State :=
  (List.range (dirCount d)).foldl (fun s j =>
    s.updLink (dirBase d + j) fun k => { k with
      mgmtMode := true, lanes := BitVec.ofNat 2 (min 2 lanes), state := if 2 ≤ lanes then 2 else 3 }) s

/-- The end of S0, with S1 not begun. -/
def State.atS0End (s : State) : Bool := !s.bu.busy && s.bu.done == 0

def execS1 (via : Agent) (lanes : BitVec 3) (s : State) : Ans :=
  .next (
    if !s.atS0End then s
    else match via with
      | .host u =>
        let s := s.trainPort u.val (BitVec.ofNat 4 (2 ^ min 4 lanes.toNat - 1))
        if lanes = 0 then s else s.beginS1
      | .relay l =>
        -- through the neighbour in the host direction
        if lanes != 0 && s.bu.hostDir == some (dirOf l.val) && s.hostPort.isNone
            && decide (1 < s.dimSize (dirOf l.val / 2)) then
          (s.mgmtLinks (dirOf l.val) lanes.toNat).beginS1
        else s
      | _ => s)

/-- No host-link port has trained within 1 s of S0 with a bad descriptor: management mode is offered in
every direction. -/
def execDescriptorFallbackTimeout (s : State) : Ans :=
  .next (
    if s.atS0End && s.bu.descBad && s.hostPort.isNone && !s.bu.offering then
      let s := s.setBu fun b => { b with offering := true }
      ((List.range 8).filter fun d => decide (1 < s.dimSize (d / 2))).foldl (fun s d => s.emit (.offer d)) s
    else s)

/-- The first offer of a neighbour is taken: coordinate, sizes and host direction; S1 starts. -/
def execMgmtOffer (l : Fin 64) (coord sizes : BitVec 8) (s : State) : Ans :=
  .next (
    let m := coordFields s.mod (coord.toNat + sizes.toNat * 2 ^ 16)
    if s.atS0End && s.bu.offering && s.hostPort.isNone && coordsLegal m then
      let s := ({ s with mod := m }).setBu fun b => { b with hostDir := some (dirOf l.val) }
      (s.mgmtLinks (dirOf l.val) 2).beginS1
    else s)

/-! S2 (R441, R442, R450). -/

def fwMax : Nat := 256 + 32 * 2 ^ 20 + 16384

/-- The image as the host's memory holds it; `none` when the read fails. -/
def State.readFirmware (s : State) : Option (List Byte) :=
  let a := s.bu.fwAddr.toNat
  let n := s.bu.fwLen.toNat
  let bad := (List.range (n / 64 + 2)).any fun i =>
    decide (a / 64 + i ≤ (a + n - 1) / 64) && s.mem.host.bad (a / 64 + i)
  if n < 256 || fwMax < n || bad || (s.hostPort.isNone && s.bu.hostDir.isNone) then none
  else some (s.rawRead .host 0 a n)

/-- Bytes of the header that R441 does not list. -/
def fwReserved : List (Nat × Nat) := [(0x10, 0x10), (0x5C, 256 - 0x5C)]

/-- The reason of R442, or the slot whose key signed the image. -/
def State.checkFirmware (s : State) (f : List Byte) : Nat ⊕ Bool :=
  let n := bAt f 8 4
  let m := bAt f 12 4
  let key := (f.drop 0x20).take 60
  let slot1 := sha256 key == s.board.slotHash1
  let slot0 := sha256 key == s.board.slotHash0 && !s.sec.slot0Revoked
  if !(bAt f 0 4 == 0x57464B5A && bAt f 4 2 == 1 && decide (4096 ≤ n ∧ n ≤ 32 * 2 ^ 20) && n % 4096 == 0
      && decide (1 ≤ m ∧ m ≤ 16384) && f.length == 256 + n + m && bZero f fwReserved) then .inl 1
  else if !slot1 && !slot0 then .inl 2
  else if !Config.hssVerify key (f.take (256 + n)) (f.drop (256 + n)) then .inl 3
  else if bAt f 6 2 < s.svnMin then .inl 4
  else .inr slot1

def execS2 (s : State) : Ans :=
  .next (
    if !s.stepRuns 2 || s.hostHeld then s
    else match s.readFirmware with
      | none => s.outcome 0x21 0
      | some f =>
        match s.checkFirmware f with
        | .inl r =>
          (({ s with sec := { s.sec with fwState := 2, fwReason := BitVec.ofNat 3 r } }).tickFree.event
            0x6020 s.uSec).outcome 0x20 0
        | .inr slot =>
          let sec := { s.sec with
            fwState := 1, fwReason := 0, fwSlot := slot, svnRun := BitVec.ofNat 16 (bAt f 6 2)
            measurement := sha256 (f.take (256 + bAt f 8 4)) }
          (({ s with sec := sec }).tickFree.event 0x6021 s.uSec).outcome 0 0)

/-! S3 (R457 to R459, R26). -/

/-- The marks of the fused map and of the kind 1 records. -/
def State.loadChart (s : State) : State :=
  let s := s.board.fusedBad.foldl (fun s u => s.updUnit u fun x => { x with fusedBad := true }) s
  let s := (s.goodRepairs 1).foldl (fun s r => s.updUnit r.unit fun x => { x with repairBad := true }) s
  let s := (s.repairs.filter fun r => !r.good).foldl (fun s r => s.event 0x7016 r.unit) s
  let n := s.repairsUsed
  let s := { s with
    cht := { s.cht with fuseOk := true, mapUsed := BitVec.ofNat 11 n }
    bu := { s.bu with mapAt := n } }
  if n = 1024 then s.noteMapFull else s

/-- A cluster island that does not start disables its six cores through the Chart (log entry 29). -/
def State.dropCluster (s : State) (cl : Nat) : State :=
  (clusterCores cl).foldl (fun s c =>
    if (s.unit (uCore c)).repairBad || (s.unit (uCore c)).fusedBad then s
    else (s.repairRec (uCore c) 0 1 6).updUnit (uCore c) fun x => { x with repairBad := true }) s

/-- Cluster of an island, when it is a cluster's. -/
def clusterOfIsland (i : Nat) : Option Nat := if i % 25 < 8 then some (8 * (i / 25) + i % 25) else none

def execS3 (bridges : BitVec 4) (bad : List (Fin 100)) (s : State) : Ans :=
  .next (
    if !s.stepRuns 3 then s
    else if !s.board.fusedMapOk then s.outcome 0x30 0
    else
      let s := s.loadChart
      match bad.find? fun i => (clusterOfIsland i.val).isNone with
      | some i => s.outcome 0x31 (uIsland i.val)
      | none =>
        let s := (bad.filterMap fun i => clusterOfIsland i.val).foldl (fun s cl => s.dropCluster cl) s
        let s := s.setBridges bridges
        let s := (List.range 4).foldl (fun s b =>
          if bridges.getLsbD b then s else s.event 0x0013 (uBridge b)) s
        s.split.outcome 0 0)

/-! S4 (R447, R455). -/

/-- A channel that exists on this ordering code (R415). -/
def State.channelFitted (s : State) (ch : Nat) : Bool := s.board.memCode == 1 || ch % 2 == 0

/-- Withdraws what a port serves: one granule in eight of its tile. -/
def State.withdrawPort (s : State) (u : Nat) : State :=
  (List.range (bdTileBytes / 32768)).foldl (fun s i =>
    s.withdraw .bd (u / 8 * 2 ^ 25 + i * 8 + u % 8) 1) s

/-- A port that fails training. -/
def State.dropPort (s : State) (u : Nat) : State := (s.repairRec (uBdp u) 0 6 6).withdrawPort u

/-- A channel that fails training is disabled. -/
def State.dropChannel (s : State) (ch : Nat) : State :=
  let s := s.repairRec (uLpc (ch / 2)) 0 8 6
  let s := s.withdraw .lp (ch * 2 ^ 24) (2 ^ 24)
  s.setBu fun b => { b with capLpOff := b.capLpOff ||| BitVec.ofNat 16 (2 ^ ch) }

/-- The rows that records of kind 2 have spared at a port, as bank and row. -/
def sparedRows (rs : List RepairRec) (u : Nat) : List (Nat × Nat) :=
  (rs.filter fun r => r.unit == uBdp u).map fun r => (fld r.sub 0 6, fld r.sub 6 17)

/-- A row repair of the fused map in the form of a record. -/
def rowRecord (e : Nat × Nat) : RepairRec := ⟨0, e.1, e.2, 2, 0, true⟩

/-- The rows that records of kind 3 have remapped at a controller: package, bank, row. -/
def softRows (rs : List RepairRec) (u : Nat) : List (Nat × Nat × Nat) :=
  (rs.filter fun r => r.unit == uLpc u).map fun r => (fld r.sub 0 1, fld r.sub 1 5, fld r.sub 6 18)

/-- The Chart's row repairs: the fused map's and the field-repair map's. A factory repair of LPDDR6 is made
in the package, and nothing is left to apply. -/
def State.applyRows (s : State) : State :=
  let k2 := s.goodRepairs 2
  let k3 := s.goodRepairs 3
  let s := (List.range 32).foldl (fun s u =>
    let rows := sparedRows (s.board.fusedRows.map rowRecord) u ++ sparedRows k2 u
    s.updBdp u fun x => { x with
      spared := rows, used := rows.foldl (fun m r => SMap.modify 0 m r.1 (· + 1)) [] }) s
  (List.range 8).foldl (fun s u =>
    let rows := softRows k3 u
    s.updLpc u fun x => { x with
      soft := rows, softUsed := BitVec.ofNat 7 rows.length, pprPending := BitVec.ofNat 7 rows.length }) s

/-- A tile in service none of whose bonded-DRAM ports trains. -/
def State.deadTile (s : State) (ports : BitVec 32) : Option Nat :=
  (List.range 4).find? fun t => !s.tileCut t && ports.toNat / 2 ^ (8 * t) % 256 == 0

def execS4 (ports : BitVec 32) (channels : BitVec 16) (s : State) : Ans :=
  .next (
    if !s.stepRuns 4 then s
    else match s.deadTile ports with
      | some t => s.outcome 0x40 (uBdp (8 * t))
      | none =>
        let s := s.applyRows
        let s := (List.range 32).foldl (fun s u =>
          if s.tileCut (u / 8) then s
          else
            let s := s.updBdp u fun x => { x with trained := true }
            if ports.getLsbD u then s else s.dropPort u) s
        let s := (List.range 16).foldl (fun s ch =>
          if !s.tileCut (ch / 4) && s.channelFitted ch && !channels.getLsbD ch then s.dropChannel ch
          else s) s
        let s := (List.range 8).foldl (fun s u =>
          -- packages present, whether or not they trained (R198)
          let n := b2n (s.channelFitted (2 * u)) + b2n (s.channelFitted (2 * u + 1))
          s.updLpc u fun x => { x with pkgs := BitVec.ofNat 2 n }) s
        s.outcome 0 0)

/-! S5 (R454 to R456). -/

/-- An address in a memory row. -/
def rowAddr (r : RowId) : Nat :=
  if r.lp then r.unit * 2 ^ 37 + r.pkg * 2 ^ 36 + r.row * 2 ^ 18 + r.bank * 8192
  else r.unit / 8 * 2 ^ 37 + r.bank * bankBytes + r.row / 2 * 32768 + r.unit % 8 * 4096 + r.row % 2 * 2048

/-- A row that failed the test is repaired, or its granules are withdrawn; each is counted. -/
def State.testRow (s : State) (r : RowId) : State :=
  let before := s.mem.bd.gone.length + s.mem.lp.gone.length
  let s' := if r.lp then s.retireLp (rowAddr r) 2 else s.retireBd (rowAddr r) 2
  let lost := s'.mem.bd.gone.length + s'.mem.lp.gone.length - before
  if lost = 0 then s'.setBu fun b => { b with mtRows := satInc b.mtRows }
  else s'.setBu fun b => { b with mtGranules := satAdd b.mtGranules lost }

/-- Phases of a test (R454): the March patterns and the retention phases (log entry 29). -/
def testPhases (test : BitVec 2) : Nat := if test == 1 then 2 else 3

/-- The row fails: two wrong symbols in one line, or single wrong symbols in two phases (R455). -/
def rowFails (t : RowTest) (phases : Nat) : Bool :=
  let w := t.wrong.take phases
  w.any (fun ls => ls.any fun n => decide (2 ≤ n))
    || decide (2 ≤ (w.filter fun ls => ls.contains 1).length)

/-- The final pass: zero with valid check codes in every line. -/
def TierMem.zeroed (m : TierMem) : TierMem := { base := 0, gone := m.gone }

def execS5 (rows : List RowTest) (s : State) : Ans :=
  .next (
    if !s.stepRuns 5 then s
    else
      let bad := rows.filter fun t => rowFails t (testPhases s.bu.test)
      let s := bad.foldl (fun s t => s.testRow t.row) s
      let mem := { s.mem with bd := TierMem.zeroed s.mem.bd, lp := TierMem.zeroed s.mem.lp }
      let s := ({ s with mem := mem }).setBu fun b => { b with bdWritten := true }
      let s := if s.bu.test == 1 then
          (s.setBu fun b => { b with abbreviated := true }).event 0x7003 s.uMgmt
        else s
      s.outcome 0 0)

/-! S6 (R447). -/

/-- Units that S6 tests; the fabric island stands for its tile's DMA engines. -/
def testedUnits : List Nat :=
  (List.range 192).map uCore ++ (List.range 20).map uHelm ++ [0x4000, 0x4001, 0x5000, 0x5001]
  ++ (List.range 4).map uLoom ++ (List.range 4).map uColl ++ (List.range 40).map uUpd
  ++ (List.range 4).map fun t => uIsland (25 * t + 22)

/-- The tile of a unit that the Chart lists. -/
def tileOfUnit (u : Nat) : Nat :=
  let i := u % 0x1000
  match u / 0x1000 with
  | 0x1 => i / 48
  | 0x3 => i / 5
  | 0x4 => i
  | 0x5 => i
  | 0x8 => i / 10
  | 0xE => i / 25
  | _ => i

def execS6 (bad : List (BitVec 16 × BitVec 8)) (s : State) : Ans :=
  .next (
    if !s.stepRuns 6 then s
    else
      let s := (testedUnits.filter fun u => !s.tileCut (tileOfUnit u)).foldl (fun s u =>
        let hit := bad.find? fun e => e.1.toNat == u
        s.updUnit u fun x => { x with
          tested := true, testBad := hit.isSome, testCode := (hit.map (·.2)).getD 0 }) s
      s.outcome 0 0)

/-! S7 (R30, R195, R460 to R462). -/

/-- A unit is good when nothing marks it bad and its tile is in service. -/
def State.unitGood (s : State) (u : Nat) : Bool :=
  let x := s.unit u
  !x.fusedBad && !x.repairBad && !x.testBad && !s.tileCut (tileOfUnit u)

/-- The marks of one unit (R460). -/
def State.reconcile (s : State) (u : Nat) : State :=
  let x := s.unit u
  let marked := x.fusedBad || x.repairBad
  if !x.tested then s
  else if marked && !x.testBad then
    ({ s with cht := { s.cht with disagree := satInc s.cht.disagree } }).event 0x7011 u
  else if !marked && x.testBad then
    (s.repairRec u 0 1 1).updUnit u fun x => { x with repairBad := true }
  else s

def State.setRole (s : State) (u role : Nat) : State :=
  s.updUnit u fun x => { x with role := BitVec.ofNat 2 role }

/-- The five lowest good cores of a cluster are enabled, c5 as a spare in use; a sixth is the spare. -/
def State.assignCluster (s : State) (cl : Nat) : State :=
  let good := (clusterCores cl).filter fun c => s.unitGood (uCore c)
  let s := (clusterCores cl).foldl (fun s c => s.setRole (uCore c) 0) s
  let s := (good.take 5).foldl (fun s c => s.setRole (uCore c) (if c % 6 = 5 then 3 else 1)) s
  let s := (good.drop 5).foldl (fun s c => s.setRole (uCore c) 2) s
  if good.length < 5 then s.event 0x7014 (uCluster cl) else s

/-- The four lowest good helm cores of a tile serve, h4 as a spare in use; a fifth is the spare. -/
def State.assignHelms (s : State) (t : Nat) : State :=
  let hs := (List.range 5).map (5 * t + ·)
  let good := hs.filter fun h => s.unitGood (uHelm h)
  let s := hs.foldl (fun s h => s.setRole (uHelm h) 0) s
  let s := (good.take 4).foldl (fun s h => s.setRole (uHelm h) (if h % 5 = 4 then 3 else 1)) s
  (good.drop 4).foldl (fun s h => s.setRole (uHelm h) 2) s

/-- A tile short of helm cores takes spares of the other tiles, in ascending order. -/
def State.fillHelms (s : State) (t : Nat) : State :=
  let own := ((List.range 5).map (5 * t + ·)).filter fun h => s.helmRole h != 0
  let need := 4 - own.length
  let spare := ((List.range 20).filter fun h => h / 5 != t && s.helmRole h == 2).take need
  let s := spare.foldl (fun s h => s.setRole (uHelm h) 3) s
  if spare.length < need then s.event 0x7014 (uIsland (25 * t + 23)) else s

/-- Every other unit that S6 tests is enabled when it is good; of the management cores and security
engines the active one is, and a good one on T1 is the spare (R463; log entry 29). -/
def State.assignSingles (s : State) : State :=
  let s := (testedUnits.filter noSpare).foldl (fun s u => s.setRole u (b2n (s.unitGood u))) s
  [s.uMgmt, s.uSec].foldl (fun s u =>
    let s := s.setRole u (if u % 2 = 0 then 1 else 3)
    if u % 2 = 0 ∧ s.unitGood (u + 1) then s.setRole (u + 1) 2 else s) s

/-- Logical numbers run densely over the enabled cores (R30). -/
def State.numberCores (s : State) : State :=
  let role := fun c => (s.unit (uCore c)).role
  let on := (List.range 192).filter fun c => role c == 1 || role c == 3
  let spare := (List.range 192).filter fun c => role c == 2
  { s with mod := { s.mod with
      lcores := BitVec.ofNat 8 on.length, holes := 0, spareCores := spare
      sparesFree := BitVec.ofNat 8 spare.length
      lmap := on.zipIdx.map fun e => (e.2, e.1 + 1) } }

/-- Pending post-package repairs: each that succeeds has its record rewritten as kind 4 (R195, R459). -/
def State.repairPackages (s : State) (ppr : List Bool) : State :=
  (s.goodRepairs 3).zipIdx.foldl (fun s e =>
    if ppr.getD e.2 false then
      let u := e.1.unit - 0x7000
      let row := (fld e.1.sub 0 1, fld e.1.sub 1 5, fld e.1.sub 6 18)
      let s := (s.prsOwn e.1.word (repairWord e.1.unit e.1.sub 4 e.1.cause)).event 0x7012 s.uMgmt
      s.updLpc u fun x => { x with
        soft := x.soft.erase row, softUsed := x.softUsed - 1, pprPending := x.pprPending - 1 }
    else s) s

/-- Units without a spare, and the active management core and security engine, that are bad: the code of
R453 and the unit. -/
def State.fatalUnit (s : State) : Option (Nat × Nat) :=
  let single := (testedUnits.filter fun u => noSpare u && !s.tileCut (tileOfUnit u)).find? fun u =>
    !s.unitGood u
  match single with
  | some u => some (0x70, u)
  | none => ([s.uMgmt, s.uSec].find? fun u => !s.unitGood u).map fun u =>
      if u % 2 = 0 ∧ s.unitGood (u + 1) then (0x71, u) else (0x70, u)

/-- Clusters of no partition are off (R478; log entry 29). -/
def State.gateIdle (s : State) : State :=
  (List.range 32).foldl (fun s cl => if (s.ownerOf cl).isNone then s.gateCluster cl else s) s

/-- Granules of a tier that the field-repair map's records of earlier bring-ups name: a port's count once,
and not when the port is withdrawn in this bring-up too (log entry 29). -/
def State.lostBefore (s : State) (t : Tier) : Nat :=
  let rs := s.goodRepairs 6
  let bd := rs.filter fun r => t == .bd && decide (r.word < s.bu.mapAt) && r.unit / 0x1000 == 6
  let now := (rs.filter fun r => r.cause == 6 && decide (s.bu.mapAt ≤ r.word)).map (·.unit)
  let ports := ((bd.filter fun r => r.cause == 6 && !now.contains r.unit).map (·.unit)).eraseDups
  let lp := rs.filter fun r => t == .lp && decide (r.word < s.bu.mapAt) && r.unit / 0x1000 == 7
  (bd.filter fun r => r.cause != 6).length + ports.length * (bdTileBytes / 32768) + 2 * lp.length

/-- LPDDR6 granules withdrawn outside the channels that are disabled. -/
def State.lpGone (s : State) : Nat :=
  (s.mem.lp.gone.filter fun e => !s.bu.capLpOff.getLsbD (e.1 / 2 ^ 24)).length

def execS7 (ppr : List Bool) (s : State) : Ans :=
  .next (
    if !s.stepRuns 7 then s
    else
      let s := testedUnits.foldl State.reconcile s
      match s.fatalUnit with
      | some (code, u) =>
        let s := if code = 0x71 then s.setBu fun b => { b with resetReq := true } else s
        s.outcome code u
      | none =>
        let s := (List.range 32).foldl State.assignCluster s
        let s := (List.range 4).foldl State.assignHelms s
        let s := ((List.range 4).foldl State.fillHelms s).assignSingles
        let s := (s.numberCores.repairPackages ppr).gateIdle
        let s := { s with cht := { s.cht with loaded := true } }
        let s := s.setBu fun b => { b with
          capBd := BitVec.ofNat 32 (s.mem.bd.gone.length + s.lostBefore .bd)
          capLpGran := BitVec.ofNat 16 (min (s.lpGone + s.lostBefore .lp) 0xFFFF) }
        s.outcome 0 0)

/-! S8 to S10 (R249, R253, R447). -/

def execS8 (links : List LinkTraining) (s : State) : Ans :=
  .next (
    if !s.stepRuns 8 then s
    else
      -- links in management mode retrain with the rest
      let s := (List.range 64).foldl (fun s l => s.updLink l fun k =>
        if k.mgmtMode then { k with mgmtMode := false, state := 0, lanes := 0 } else k) s
      let s := links.foldl (fun s t =>
        if t.link.val < 64 then s.trainBody t.link.val t
        else s) s
      (s.routesChanged 0).outcome 0 0)

/-- Partition defaults of the descriptor: the last entry for each partition, in ascending order. -/
def partDefaults (b : List Byte) : List (Nat × List Byte) :=
  match sectionOf b 5 with
  | none => []
  | some c =>
    let es := (List.range (min 16 (c.length / 32))).map fun i => (c.drop (32 * i)).take 32
    (List.range 16).filterMap fun p => (es.filter fun e => bAt e 0 4 % 16 == p).getLast?.map fun e => (p, e)

/-- A reserved bit of an entry is set (R501). -/
def defaultBad (e : List Byte) : Bool :=
  decide (16 ≤ bAt e 0 4) || decide (2 ^ 16 ≤ bAt e 8 4)
  || ((List.range 4).any fun t => decide (2 ^ 13 ≤ bAt e (0x0C + 4 * t) 4))
  || decide (2 ^ 13 ≤ bAt e 0x1C 4) || bAt e 0x1C 4 % 2 == 0

def shareOf (w : Nat) : BdShare := { first := BitVec.ofNat 6 w, count := BitVec.ofNat 7 (w / 64) }

/-- One default is enabled by the procedure of R419. -/
def State.enableDefault (s : State) (p : Nat) (e : List Byte) : State :=
  if (s.part p).state != 0 then s
  else if defaultBad e then s.eventP 0x6012 s.uMgmt p
  else
    let w := bAt e 0x1C 4
    (s.updPart p fun x => { x with
      clMask := BitVec.ofNat 32 (bAt e 4 4), chMask := BitVec.ofNat 16 (bAt e 8 4)
      bd0 := shareOf (bAt e 0x0C 4), bd1 := shareOf (bAt e 0x10 4), bd2 := shareOf (bAt e 0x14 4)
      bd3 := shareOf (bAt e 0x18 4), en := true, sealed := bit w 1, helm := BitVec.ofNat 5 (w / 4)
      slots := BitVec.ofNat 6 (w / 128) }).startEnable p

def execS9 (s : State) : Ans :=
  .next (
    if !s.stepRuns 9 then s
    else ((partDefaults s.bu.desc).foldl (fun s e => s.enableDefault e.1 e.2) s).outcome 0 0)

def execS10 (s : State) : Ans := .next (if s.stepRuns 10 then s.outcome 0 0 else s)

end Sys2Proof.Machine
end

