-- ==== Sys2Proof/Machine/Power.lean ====
section
/-! DEFINITION. Rails and phases (R474 to R476), island power states and wakes (R477 to R479), the input
droop (R480, R481), the power cap (R482), temperatures (R483), stretch episodes (R484) and the
management core's watchdog (R485). The rows carry no time: log entry 30. -/

namespace Sys2Proof

/-- Working phases of a rail with `n` phases and two spares. -/
def Rail.working (x : Rail) (n : Nat) : Nat := min n (n + 2 - x.retired.length)

/-- The clock that the input droop leaves, in sixteenths. -/
def DroopPhase.factor : DroopPhase → Nat
  | .none => 16
  | .held n => n
  | .restoring n => n

end Sys2Proof

namespace Sys2Proof.Machine

/-- The power-and-management island of T0 (R46), which detects what this file records. -/
def uPower : Nat := uIsland 24

/-- S0 has completed: the droop response runs from then on (R528). -/
def State.pastS0 (s : State) : Bool := s.pwr.input == .good && s.bu.done != 0xF

/-- A rail is on: the always-on rail from 40 V, every other from the S0 ramp (R472, R528). -/
def State.railIsOn (s : State) (r : Nat) : Bool :=
  if r = 24 then s.pwr.input != .off else s.pwr.input == .good && s.pwr.railsOn

/-- PGOOD is released: every rail is on (R525). -/
def State.pgood (s : State) : Bool := (List.range 25).all s.railIsOn

def State.rail (s : State) (r : Nat) : Rail := SMap.get {} s.pwr.rails r
def State.updRail (s : State) (r : Nat) (f : Rail → Rail) : State :=
  { s with pwr := { s.pwr with rails := SMap.modify {} s.pwr.rails r f } }

/-! The clock of an island (R487, R490). -/

/-- Islands on a rail, by local index (R474). -/
def railFeeds (r isl : Nat) : Bool :=
  let i := isl % 25
  r != 24 && decide (isl / 25 = r / 6) && match r % 6 with
    | 0 => decide (i < 8)
    | 1 => decide (i < 8)
    | 2 => decide (i = 22 ∨ i = 23)
    | 3 => decide (8 ≤ i ∧ i < 16)
    | 4 => decide (16 ≤ i ∧ i < 20)
    | _ => decide (i = 20 ∨ i = 21)

/-- The island of a cluster of a sealed partition, which no power limit stretches (R482). -/
def State.sealedIsland (s : State) (isl : Nat) : Bool :=
  match clusterOfIsland isl with
  | some cl => match s.ownerOf cl with
    | some p => (s.part p).sealed
    | none => false
  | none => false

/-- The island of a cluster of an unsealed partition, which the power cap stretches (R482). -/
def State.cappedIsland (s : State) (isl : Nat) : Bool :=
  match clusterOfIsland isl with
  | some cl => (s.ownerOf cl).isSome && !s.sealedIsland isl
  | none => false

/-- Sixteenths taken by rails that are low. -/
def State.railSteps (s : State) (isl : Nat) : Nat :=
  if s.sealedIsland isl then 0
  else (s.pwr.rails.map fun e => if railFeeds e.1 isl then e.2.steps else 0).sum

/-- Sixteenths that the input droop leaves to an island. -/
def State.droopFactor (s : State) (isl : Nat) : Nat :=
  if (clusterOfIsland isl).isSome then s.pwr.droop.factor else 16

def State.thermSteps (s : State) (isl : Nat) : Nat :=
  if isl % 25 = 24 then 0 else SMap.get 0 s.pwr.therm isl

def State.limitSteps (s : State) (isl : Nat) : Nat :=
  (if s.cappedIsland isl then s.pwr.capSteps else 0) + s.railSteps isl

/-- CLK_FACTOR: each cause takes its sixteenths, down to 4/16 (R487; log entry 30). -/
def State.clkFactor (s : State) (isl : Nat) : Nat :=
  max 4 (s.droopFactor isl - s.thermSteps isl - s.limitSteps isl
    - (if (s.island isl).local_ then 2 else 0))

/-- CLK_STATE: STRETCH is RUN below the nominal clock (R477). -/
def State.clkState (s : State) (isl : Nat) : Nat :=
  let st := (s.island isl).state.toNat
  if 2 ≤ st then st else if s.clkFactor isl < 16 then 1 else 0

/-- CLK_CAUSE (R490). -/
def State.clkCause (s : State) (isl : Nat) : Nat :=
  b2n (decide (s.droopFactor isl < 16)) + 2 * b2n (decide (0 < s.thermSteps isl))
  + 4 * b2n (decide (0 < s.limitSteps isl)) + 8 * b2n (s.island isl).local_

/-! Episodes (R484). -/

/-- Droop, temperature, power cap: 0, 1, 2. -/
def State.episode (s : State) : Nat → Episode
  | 0 => s.pwr.droopEp
  | 1 => s.pwr.thermEp
  | _ => s.pwr.capEp

def State.setEpisode (s : State) (k : Nat) (e : Episode) : State :=
  match k with
  | 0 => { s with pwr := { s.pwr with droopEp := e } }
  | 1 => { s with pwr := { s.pwr with thermEp := e } }
  | _ => { s with pwr := { s.pwr with capEp := e } }

def State.stretching (s : State) : Nat → Bool
  | 0 => s.pwr.droop != .none
  | 1 => !s.pwr.therm.isEmpty
  | _ => decide (0 < s.pwr.capSteps)

def State.countEpisode (s : State) (k : Nat) : State :=
  match k with
  | 0 => { s with pwr := { s.pwr with epDroop := satInc s.pwr.epDroop } }
  | 1 => { s with pwr := { s.pwr with epTherm := satInc s.pwr.epTherm } }
  | _ => { s with pwr := { s.pwr with epCap := satInc s.pwr.epCap } }

/-- Follows one cause: a stretch begins an episode or continues one that is ending; `tick` tells that
1 ms has passed, after which an ending episode has ended. -/
def State.followEpisode (s : State) (tick : Bool) (k : Nat) : State :=
  match s.episode k, s.stretching k with
  | .none, true => ((s.setEpisode k .running).countEpisode k).event (1 + 2 * k) uPower
  | .ending, true => s.setEpisode k .running
  | .running, false => s.setEpisode k .ending
  | .ending, false => if tick then (s.setEpisode k .none).event (2 + 2 * k) uPower else s
  | _, _ => s

def State.followEpisodes (s : State) (tick : Bool) : State :=
  [0, 1, 2].foldl (fun s k => s.followEpisode tick k) s

/-! The input (R480). -/

def execInputSample (vin iin : BitVec 16) (s : State) : Ans :=
  .next (
    if s.pwr.input == .off then s
    else
      let droop :=
        if s.pastS0 && decide (vin.toNat < 46000) then
          match s.pwr.droop with
          | .none => DroopPhase.held 8
          | .restoring n => .held (min n 8)
          | .held n => .held n
        else s.pwr.droop
      ({ s with pwr := { s.pwr with vin := vin, iin := iin, droop := droop } }).followEpisodes false)

/-- Below 44 V for 1 ms. -/
def execInputLowTimeout (s : State) : Ans :=
  .next (
    if s.pastS0 && decide (s.pwr.vin.toNat < 44000) then
      ({ s with pwr := { s.pwr with droop := .held 4 } }).followEpisodes false
    else s)

/-- At or above 47 V for 100 µs. -/
def execInputRecoveryTimeout (s : State) : Ans :=
  .next (
    match s.pwr.droop with
    | .held n =>
      if s.pastS0 && decide (47000 ≤ s.pwr.vin.toNat) then
        { s with pwr := { s.pwr with droop := .restoring n } }
      else s
    | _ => s)

def execClockRestoreTick (s : State) : Ans :=
  .next (
    match s.pwr.droop with
    | .restoring n =>
      let next := if 15 ≤ n then DroopPhase.none else .restoring (n + 1)
      ({ s with pwr := { s.pwr with droop := next } }).followEpisodes false
    | _ => s)

/-- Below 42 V for 10 ms. -/
def execBrownoutTimeout (s : State) : Ans :=
  .next (
    if s.pastS0 && decide (s.pwr.vin.toNat < 42000) then s.moduleReset 2 uPower else s)

def execMgmtWatchdog (s : State) : Ans := .next (s.moduleReset 4 uPower)

/-! Phases and rails (R475, R476). -/

/-- A phase is retired. With no spare left the rail is low, and below three quarters of N the module
resets. -/
def State.retirePhase (s : State) (r ph : Nat) : State :=
  let n := railN r
  if !s.railIsOn r || s.pwr.input != .good || n + 2 ≤ ph || (s.rail r).retired.contains ph then s
  else
    let s := s.updRail r fun x => { x with retired := x.retired ++ [ph] }
    let s := (s.repairRec (uRail r) ph 7 3).event 0x0010 (uRail r)
    let w := (s.rail r).working n
    if n ≤ w then s
    else
      let s := s.event 0x0011 (uRail r)
      if 4 * w < 3 * n then s.moduleReset 5 uPower else s

def execPhaseFault (rail : Fin 25) (phase : BitVec 8) (s : State) : Ans :=
  .next (s.retirePhase rail.val phase.toNat)

/-- A further phase is lost, or the output has left its band. -/
def execRailFault (rail : Fin 25) (phase : Option (BitVec 8)) (s : State) : Ans :=
  .next (match phase with
    | some ph => s.retirePhase rail.val ph.toNat
    | none => if s.railIsOn rail.val then s.moduleReset 5 uPower else s)

/-! Local droop (R481). -/

def execLocalDroop (cl : Fin 32) (s : State) : Ans :=
  .next (
    let isl := islandOfCluster cl.val
    if s.railIsOn 0 && s.awake isl && !(s.island isl).local_ then
      s.updIsland isl fun x => { x with local_ := true, localCount := satInc x.localCount }
    else s)

def execLocalDroopRelease (cl : Fin 32) (s : State) : Ans :=
  .next (s.updIsland (islandOfCluster cl.val) fun x => { x with local_ := false })

/-! The power cap and low rails (R476, R482). -/

/-- A window against a limit: above it, below 95 % of it, or between. -/
def windowDir (old : LimitDir) (above below : Bool) : LimitDir :=
  if above then .raise else if below then .release else match old with
    | .release => .release
    | _ => .hold

/-- Islands that the power cap stretches. -/
def State.cappedIslands (s : State) : List Nat :=
  ((List.range 32).map islandOfCluster).filter s.cappedIsland

/-- What a window asks of a low rail. The spec does not tell the rail's power, so whether it is above
its limit is a free choice (log entry 30). -/
def State.railDir (s : State) (r : Nat) (x : Rail) : LimitDir :=
  if x.working (railN r) < railN r then
    let k := Config.freePick s.free (2000 + r) % 3
    windowDir x.dir (k == 0) (k == 1)
  else .release

def execPowerWindow (watts : BitVec 16) (s : State) : Ans :=
  .next (
    if s.pwr.input != .good then s
    else
      let above := decide (s.pwr.capW.toNat < watts.toNat)
      let below := decide (watts.toNat * 100 < 95 * s.pwr.capW.toNat)
      let overCap := above && s.cappedIslands.all fun i => s.clkFactor i == 4
      let rails := (List.range 25).foldl (fun m r =>
        SMap.modify {} m r fun x => { x with dir := s.railDir r x }) s.pwr.rails
      ({ s with pwr := { s.pwr with
          pin := watts, pmax := if s.pwr.pmax.toNat < watts.toNat then watts else s.pwr.pmax
          capDir := windowDir s.pwr.capDir above below
          capOver := if overCap then satInc s.pwr.capOver else s.pwr.capOver
          rails := rails } }).tickFree)

/-- One step of 1/16 up or down, between 0 and 12. -/
def stepDir (d : LimitDir) (n : Nat) : Nat :=
  match d with
  | .raise => min 12 (n + 1)
  | .release => n - 1
  | .hold => n

/-! Temperatures (R483), in units of 0.125 °C. -/

def tempOf (t : Option (BitVec 16)) : Int := signedOf 16 (t.getD 0).toNat

def State.temp (s : State) (isl : Nat) : Int := tempOf (SMap.get none s.pwr.temps isl)

/-- The sixteenths of an island after another 1 ms. -/
def State.thermNext (s : State) (isl : Nat) : Nat :=
  let n := SMap.get 0 s.pwr.therm isl
  if 760 ≤ s.temp isl then min 12 (n + 1) else if s.temp isl < 744 then n - 1 else n

/-- Islands that a temperature may stretch: all but power and management. -/
def stretchable (isl : Nat) : Bool := isl % 25 != 24

/-- 1 ms passes: temperatures, the power cap and low rails take or give back 1/16 each. -/
def execStretchStepTick (s : State) : Ans :=
  .next (
    if s.pwr.input != .good then s
    else
      let therm := ((List.range 100).filter stretchable).foldl (fun m i =>
        SMap.set 0 m i (s.thermNext i)) s.pwr.therm
      let cap := if s.pwr.capDir == .raise && s.cappedIslands.isEmpty then s.pwr.capSteps
        else stepDir s.pwr.capDir s.pwr.capSteps
      let rails := (List.range 25).foldl (fun m r =>
        SMap.modify {} m r fun x => { x with steps := stepDir x.dir x.steps }) s.pwr.rails
      ({ s with pwr := { s.pwr with therm := therm, capSteps := cap, rails := rails } }).followEpisodes
        true)

/-- Islands whose sensors read hottest. -/
def hottest (temps : SMap (Option (BitVec 16))) : List Nat :=
  let top := temps.foldl (fun a e => max a (tempOf e.2)) (-32768 : Int)
  (temps.filter fun e => tempOf e.2 == top).map (·.1)

/-- Every sensor reads below 85 °C: the hold of a thermal trip ends, the rails ramp and S0 goes on. -/
def State.endTrip (s : State) : State :=
  if s.pwr.tripHold && (s.pwr.temps.all fun e => decide (tempOf e.2 < 680)) then
    let s := { s with pwr := { s.pwr with tripHold := false, railsOn := true } }
    s.outcome 0 0
  else s

/-- A sensor is read. Between islands that read equally hot, which one PWR_TMAX_ISL names is a free
choice. -/
def execThermalSample (isl : Fin 100) (t : BitVec 16) (s : State) : Ans :=
  .next (
    if s.pwr.input != .good then s
    else
      let temps := SMap.set none s.pwr.temps isl.val (some t)
      let hot := hottest temps
      let k := if hot.length = 1 then hot.headD 0
        else hot.getD (Config.freePick s.free 3000 % hot.length) 0
      let s := ({ s with pwr := { s.pwr with
        temps := temps, tmax := (SMap.get none temps k).getD 0, tmaxIsl := BitVec.ofNat 7 k } }).tickFree
      if s.pwr.tripHold then s.endTrip
      else if 920 ≤ tempOf (some t) then
        ({ s with pwr := { s.pwr with tripHold := true } }).moduleReset 3 uPower
      else if 840 ≤ tempOf (some t) && stretchable isl.val then
        ({ s with pwr := { s.pwr with therm := SMap.set 0 s.pwr.therm isl.val 12 } }).followEpisodes
          false
      else s)

/-! STOP and wakes (R47, R478, R479). -/

/-- No unit of the cluster's cores has work, and no DMA or DMAPEER targets the cluster. -/
def State.clusterQuiet (s : State) (cl : Nat) : Bool :=
  ((clusterCores cl).all fun c =>
    let x := s.core c
    x.qa.isEmpty && x.qb.isEmpty && x.qv.isEmpty && x.dmas.isEmpty)
  && s.cores.all fun e => e.2.dmas.all fun d => !(d.kind == .peer && clusterOf d.core == cl)

def execClusterIdleTimeout (cl : Fin 32) (s : State) : Ans :=
  .next (
    let isl := islandOfCluster cl.val
    if s.railIsOn 0 && s.awake isl && s.clusterQuiet cl.val && !s.sealedIsland isl then
      s.updIsland isl fun x => { x with state := 2, local_ := false }
    else s)

/-- The island of a bonded-DRAM port (0 to 31) or an LPDDR6 controller (32 to 39). -/
def memIsland (u : Nat) : Nat :=
  if u < 32 then 25 * (u / 8) + 8 + u % 8 else 25 * ((u - 32) / 2) + 20 + u % 2

/-- A port on a tile with a bank of a sealed partition, or a controller with a channel of one. -/
def State.sealedMemory (s : State) (u : Nat) : Bool :=
  if u < 32 then
    (List.range 16).any fun p =>
      (s.part p).state != 0 && (s.part p).sealed && ((s.part p).bdShare (u / 8)).count != 0
  else (s.sealedChannel (2 * (u - 32))).isSome || (s.sealedChannel (2 * (u - 32) + 1)).isSome

def execMemoryIdleTimeout (u : Fin 40) (s : State) : Ans :=
  .next (
    if s.railIsOn 0 && s.awake (memIsland u.val) && !s.sealedMemory u.val then
      s.updIsland (memIsland u.val) fun x => { x with state := 2 }
    else s)

/-- A request reaches a stopped island; a gated one wakes only for an enable (R478). -/
def execWakeRequest (isl : Fin 100) (s : State) : Ans :=
  .next (if (s.island isl.val).state == 2 then s.queueWake isl.val else s)

/-- A tile's FIFO gives its slot to the wake at its head, which ends with its last one. -/
def execWakeSlot (t : Fin 4) (s : State) : Ans :=
  .next (
    if !s.railIsOn 0 then s
    else match SMap.get [] s.clk.wakes t.val with
      | [] => s
      | (isl, n) :: rest =>
        let q := if 1 < n then (isl, n - 1) :: rest else rest
        let s := { s with clk := { s.clk with wakes := SMap.set [] s.clk.wakes t.val q } }
        if 1 < n then s else s.updIsland isl fun x => { x with state := 0 })

end Sys2Proof.Machine
end

