-- ==== Sys2Proof/Machine/RegMap.lean ====
section
/-! DEFINITION. The register space (R57, R58): which register stands at an address, and which agents
reach it (R61). An address where the spec lists no register is reserved (R57, R60). -/

namespace Sys2Proof

/-- A queue's registers (R210). -/
inductive QReg where
  | baseLo | baseHi | cplLo | cplHi | ctl | tail | head | cplHead | cplTail | stat
  deriving DecidableEq, Repr

/-- A partition's registers (R172, R189, R210, R218, R235, R280, R290, R339, R343, R386, R413, R415). -/
inductive ParReg where
  | ctl | clusters | lpcCh | stat | bd (t : Nat) | enCount | slotLo | slotHi
  | xltRoot | xltBase | xltLast | invLo | invHi | invCtl
  | pltCtl | pltPeriod | pltTabLo | pltTabHi | pltBase | pltSize | pltStat | pltC0Lo | pltC0Hi | pltLate
  | evcSel | evcLo | evcHi | evcAdd
  | atmBase | atmSize
  | colStage (i : Nat) | colStat | colHdr | colLastLo | colLastHi
  | genCtl | genDescLo | genDescHi | genReqTail | genReqHead | genEvtTail | genEvtHead | genStat
  | genLive | genFree | genDir | genStepLo | genStepHi
  | sndCtl | sndBaseLo | sndBaseHi | sndDrop | sndTrips
  | updCtLo | updCtHi | updCtN
  | tackCtl | tackSaltLo | tackSaltHi | tackStale
  | wsStat (k : Nat) | wsManLo (k : Nat) | wsManHi (k : Nat) | wsRecov (k : Nat)
  | q (q : Nat) (r : QReg)
  deriving DecidableEq, Repr

inductive CoreReg where
  | status | fault | faultPc | faddrLo | faddrHi | ecc | cyclesLo | cyclesHi
  deriving DecidableEq, Repr

/-- Registers of a bonded-DRAM port or an LPDDR6 controller (R197, R198). -/
inductive MemReg where
  | ecc | spare | retire | scrub
  deriving DecidableEq, Repr

/-- Registers of a link or host-link port (R258, R496). -/
inductive LinkReg where
  | status | ctl | err | fec | viol
  deriving DecidableEq, Repr

inductive LogReg where
  | headLo | headHi | oldestLo | oldestHi | clear | stat | pfloorLo | pfloorHi | win | optimeLo
  | optimeHi | pcycles
  /-- Word `i` of the record window, and of the variable window. -/
  | recWord (i : Nat) | varWord (i : Nat)
  deriving DecidableEq, Repr

inductive SecReg where
  | status | svn | ctl | leafLo | leafHi | req | nonce (i : Nat) | outLen | certLen
  | out (i : Nat) | cert (i : Nat)
  deriving DecidableEq, Repr

inductive PwrReg where
  | input | power | cap | idle | stretch | capOver | railSel | rail | cause | temp
  deriving DecidableEq, Repr

inductive ModReg where
  | partId | refId | coreCount | lcoreSel | lcoreMap | bridge | coord | groups | buCtl | buStat | buUnit
  | memtest | reset | resetStat | fwLo | fwHi | fwLen | capBd | capLp
  deriving DecidableEq, Repr

inductive Reg where
  | mod (r : ModReg)
  | pwr (r : PwrReg)
  | clk (isl : Nat)
  | chtStat | chtSel | chtUnit
  | prsWord (i : Nat) (hi : Bool) | prsSel | prsWear | prsCtl
  | log (r : LogReg)
  | sec (r : SecReg)
  | par (p : Nat) (r : ParReg)
  | ul (u : Nat) (r : LinkReg)
  | pl (l : Nat) (r : LinkReg)
  | core (c : Nat) (r : CoreReg)
  | bdp (u : Nat) (r : MemReg)
  | lpc (u : Nat) (r : MemReg)
  | loomStatus (t : Nat) | loomLo (t : Nat) | loomHi (t : Nat)
  deriving DecidableEq, Repr

end Sys2Proof

namespace Sys2Proof.Machine

def lookup {α : Type} (m : List (Nat × α)) (k : Nat) : Option α := (m.find? fun e => e.1 == k).map (·.2)

def modMap : List (Nat × ModReg) := [
  (0x000, .partId), (0x010, .refId), (0x100, .coreCount), (0x104, .lcoreSel), (0x108, .lcoreMap),
  (0x120, .bridge), (0x130, .coord), (0x134, .groups), (0x200, .buCtl), (0x204, .buStat),
  (0x208, .buUnit), (0x20C, .memtest), (0x210, .reset), (0x214, .resetStat), (0x218, .fwLo),
  (0x21C, .fwHi), (0x220, .fwLen), (0x224, .capBd), (0x228, .capLp)]

def pwrMap : List (Nat × PwrReg) := [
  (0x00, .input), (0x04, .power), (0x08, .cap), (0x0C, .idle), (0x10, .stretch), (0x14, .capOver),
  (0x20, .railSel), (0x24, .rail), (0x30, .cause), (0x34, .temp)]

def logMap : List (Nat × LogReg) := [
  (0x00, .headLo), (0x04, .headHi), (0x08, .oldestLo), (0x0C, .oldestHi), (0x10, .clear), (0x14, .stat),
  (0x18, .pfloorLo), (0x1C, .pfloorHi), (0x20, .win), (0x28, .optimeLo), (0x2C, .optimeHi),
  (0x30, .pcycles)]

def secMap : List (Nat × SecReg) := [
  (0x00, .status), (0x04, .svn), (0x08, .ctl), (0x0C, .leafLo), (0x10, .leafHi), (0x14, .req),
  (0x40, .outLen), (0x44, .certLen)]

def qMap : List (Nat × QReg) := [
  (0x00, .baseLo), (0x04, .baseHi), (0x08, .cplLo), (0x0C, .cplHi), (0x10, .ctl), (0x14, .tail),
  (0x18, .head), (0x1C, .cplHead), (0x20, .cplTail), (0x24, .stat)]

def parMap : List (Nat × ParReg) := [
  (0x000, .ctl), (0x004, .clusters), (0x008, .lpcCh), (0x00C, .stat), (0x010, .bd 0), (0x014, .bd 1),
  (0x018, .bd 2), (0x01C, .bd 3), (0x020, .enCount), (0x024, .slotLo), (0x028, .slotHi),
  (0x400, .xltRoot), (0x404, .xltBase), (0x408, .xltLast), (0x40C, .invLo), (0x410, .invHi),
  (0x414, .invCtl)] ++ [
  (0x500, .pltCtl), (0x504, .pltPeriod), (0x508, .pltTabLo), (0x50C, .pltTabHi), (0x510, .pltBase),
  (0x514, .pltSize), (0x518, .pltStat), (0x51C, .pltC0Lo), (0x520, .pltC0Hi), (0x524, .pltLate),
  (0x600, .evcSel), (0x604, .evcLo), (0x608, .evcHi), (0x60C, .evcAdd), (0x700, .atmBase),
  (0x704, .atmSize)] ++ [
  (0x800, .colStage 0), (0x804, .colStage 1), (0x808, .colStage 2), (0x80C, .colStage 3),
  (0x810, .colStat), (0x814, .colHdr), (0x818, .colLastLo), (0x81C, .colLastHi),
  (0x900, .genCtl), (0x904, .genDescLo), (0x908, .genDescHi), (0x90C, .genReqTail),
  (0x910, .genReqHead), (0x914, .genEvtTail), (0x918, .genEvtHead), (0x91C, .genStat),
  (0x920, .genLive), (0x924, .genFree), (0x928, .genDir), (0x92C, .genStepLo), (0x930, .genStepHi)] ++ [
  (0xA00, .sndCtl), (0xA04, .sndBaseLo), (0xA08, .sndBaseHi), (0xA0C, .sndDrop), (0xA10, .sndTrips),
  (0xB00, .updCtLo), (0xB04, .updCtHi), (0xB08, .updCtN), (0xC00, .tackCtl), (0xC04, .tackSaltLo),
  (0xC08, .tackSaltHi), (0xC0C, .tackStale)]

def coreMap : List (Nat × CoreReg) := [
  (0x00, .status), (0x04, .fault), (0x08, .faultPc), (0x0C, .faddrLo), (0x10, .faddrHi), (0x14, .ecc),
  (0x18, .cyclesLo), (0x1C, .cyclesHi)]

def memMap : List (Nat × MemReg) := [(0x00, .ecc), (0x04, .spare), (0x08, .retire), (0x0C, .scrub)]

def ulMap : List (Nat × LinkReg) := [(0x00, .status), (0x04, .ctl), (0x08, .err), (0x0C, .viol)]

def plMap : List (Nat × LinkReg) :=
  [(0x00, .status), (0x04, .ctl), (0x08, .err), (0x0C, .fec), (0x10, .viol)]

/-- Offset in a PAR_ block. -/
def parRegAt (o : Nat) : Option ParReg :=
  if 0x2000 ≤ o ∧ o < 0x3000 then (lookup qMap (o % 0x40)).map (ParReg.q ((o - 0x2000) / 0x40))
  else if 0xC40 ≤ o ∧ o < 0xD40 then
    let k := (o - 0xC40) / 16
    match o % 16 with
    | 0 => some (.wsStat k)
    | 4 => some (.wsManLo k)
    | 8 => some (.wsManHi k)
    | 12 => some (.wsRecov k)
    | _ => none
  else lookup parMap o

/-- Offset in the LOG_ block. -/
def logRegAt (o : Nat) : Option LogReg :=
  if 0x8000 ≤ o then some (.varWord ((o - 0x8000) / 4))
  else if 0x4000 ≤ o then some (.recWord ((o - 0x4000) / 4))
  else lookup logMap o

/-- Offset in the SEC_ block. -/
def secRegAt (o : Nat) : Option SecReg :=
  if 0x20 ≤ o ∧ o < 0x40 then some (.nonce ((o - 0x20) / 4))
  else if 0x1000 ≤ o ∧ o < 0x2000 then some (.out ((o - 0x1000) / 4))
  else if 0x2000 ≤ o ∧ o < 0x6000 then some (.cert ((o - 0x2000) / 4))
  else lookup secMap o

/-- Offset in the block of tile `t` (R58). -/
def tileRegAt (t o : Nat) : Option Reg :=
  if o < 0x40000 then
    let c := o % 0x8000 / 0x1000
    if 1 ≤ c ∧ c ≤ 6 then
      (lookup coreMap (o % 0x1000)).map (Reg.core (48 * t + 6 * (o / 0x8000) + (c - 1)))
    else none
  else if o < 0x48000 then (lookup memMap (o % 0x1000)).map (Reg.bdp (8 * t + (o - 0x40000) / 0x1000))
  else if o < 0x4C000 then (lookup memMap (o % 0x2000)).map (Reg.lpc (2 * t + (o - 0x48000) / 0x2000))
  else match o with
    | 0x60000 => some (.loomStatus t)
    | 0x60004 => some (.loomLo t)
    | 0x60008 => some (.loomHi t)
    | _ => none

/-- The register at an address. Registers are 4-byte aligned (R16). -/
def regAt (a : Nat) : Option Reg :=
  if a % 4 != 0 then none
  else
    let o := a % 0x10000
    match a / 0x10000 with
    | 0 => (lookup modMap o).map .mod
    | 1 => (lookup pwrMap o).map .pwr
    | 2 => if o < 400 then some (.clk (o / 4)) else none
    | 3 => match o with
      | 0 => some .chtStat
      | 4 => some .chtSel
      | 8 => some .chtUnit
      | _ => none
    | 4 => if o < 0x8000 then some (.prsWord (o / 8) (o % 8 == 4)) else match o with
      | 0x8000 => some .prsSel
      | 0x8004 => some .prsWear
      | 0x8008 => some .prsCtl
      | _ => none
    | 5 => (logRegAt o).map .log
    | 6 => (secRegAt o).map .sec
    | 0x10 => if o < 0x200 then (lookup ulMap (o % 0x100)).map (Reg.ul (o / 0x100)) else none
    | 0x11 => (lookup plMap (o % 0x400)).map (Reg.pl (o / 0x400))
    | b =>
      if 8 ≤ b ∧ b < 16 then (parRegAt (a % 0x8000)).map (Reg.par ((a - 0x80000) / 0x8000))
      else if 0x20 ≤ b ∧ b < 0x60 then tileRegAt ((a - 0x200000) / 0x100000) (a % 0x100000)
      else none

/-! Addresses of the registers that the rows name. -/

def parBase (p : Nat) : Nat := 0x80000 + p * 0x8000
def qBase (p q : Nat) : Nat := parBase p + 0x2000 + q * 0x40
def coreBase (c : Nat) : Nat := 0x200000 + c / 48 * 0x100000 + c % 48 / 6 * 0x8000 + (c % 6 + 1) * 0x1000
def ulBase (u : Nat) : Nat := 0x100000 + u * 0x100
def plBase (l : Nat) : Nat := 0x110000 + l * 0x400
def loomBase (t : Nat) : Nat := 0x200000 + t * 0x100000 + 0x60000

/-! Reach (R61). -/

/-- The cluster of a tile block's address, for its CLU_ part. -/
def clusterAt (a : Nat) : Option Nat :=
  if 0x200000 ≤ a ∧ a < 0x600000 ∧ a % 0x100000 < 0x40000 then
    some ((a - 0x200000) / 0x100000 * 8 + a % 0x100000 / 0x8000)
  else none

/-- A helm core reaches the PAR_ block of its own partition and that partition's clusters. -/
def State.helmReach (s : State) (h a : Nat) : Bool :=
  match s.helmPart h with
  | none => false
  | some p =>
    (0x80000 ≤ a && a < 0x100000 && (a - 0x80000) / 0x8000 == p)
    || match clusterAt a with
      | some cl => (s.part p).ownsCluster cl
      | none => false

def State.agentReaches (s : State) (g : Agent) (a : Nat) : Bool :=
  match g with
  | .helm h => s.helmReach h.val a
  | _ => true

/-- The agent can make an access now: the host by a port in service, a module behind a peer link that
carries management traffic (R257, R449, R495), the management core once S0 has started it, a helm core
once S2 has loaded its image (R447), unless it has failed. -/
def State.agentLive (s : State) (g : Agent) : Bool :=
  s.pwr.input == .good && match g with
    | .host u => portLive (s.port u.val)
    | .relay l => portLive { state := (s.link l.val).state }
    | .mgmt => s.bu.done != 0xF
    | .helm h =>
      let x := s.unit (uHelm h.val)
      s.bu.done != 0xF && decide (2 ≤ s.bu.done.toNat) && !x.fusedBad && !x.repairBad && !x.testBad
        && !s.tileCut (h.val / 5)

end Sys2Proof.Machine
end

