-- ==== Sys2Proof/Machine/RegRead.lean ====
section
/-! DEFINITION. What every register reads as (R17, R19): write-only and reserved fields read zero. -/

namespace Sys2Proof

def ColRegs.stage (x : ColRegs) : Nat → ColStage
  | 0 => x.stage0
  | 1 => x.stage1
  | 2 => x.stage2
  | _ => x.stage3

end Sys2Proof

namespace Sys2Proof.Machine

def loWord (x : Nat) : Word := BitVec.ofNat 32 x
def hiWord (x : Nat) : Word := BitVec.ofNat 32 (x / 2 ^ 32)

/-! Identity and bring-up (R6, R33 to R36, R62, R103, R242, R265, R452, R456, R467). -/

/-- MOD_LCORE_MAP; MOD_PCORE is undefined, and so a free value, where no core holds the number, once S7
has assigned numbers. MOD_OWNER and MOD_OWNED read 0 for a hole, whose cluster nothing names (log entry
31). -/
def State.lcoreMapWord (s : State) : Word :=
  let l := s.mod.lcoreSel.toNat
  let valid := decide (l < s.mod.lcores.toNat)
  match s.physOf l with
  | some c =>
    let own := s.ownerOf (clusterOf c)
    packWord [(0, c), (8, own.getD 0), (12, b2n own.isSome), (31, 1)]
  | none =>
    let pcore := if s.mod.lcores = 0 then 0 else Config.freeNat s.free % 256
    packWord [(0, pcore), (13, b2n valid), (31, b2n valid)]

def State.buStatWord (s : State) : Word :=
  let b := s.bu
  packWord [(0, b.done.toNat), (4, b.run.toNat), (8, b2n b.busy), (9, b2n b.failed), (10, b2n b.abbreviated),
    (11, b2n b.resetReq), (12, b2n b.descBad), (16, b.code.toNat)]

def State.readMod (s : State) : ModReg → Word
  | .partId => s.partIdWord
  | .refId => refIdWord
  | .coreCount =>
    let n (x : BitVec 8) := if s.stepDone 7 then x.toNat else 0
    packWord [(0, n s.mod.lcores), (8, n s.mod.sparesFree), (16, s.mod.holes.toNat)]
  | .lcoreSel => packWord [(0, s.mod.lcoreSel.toNat)]
  | .lcoreMap => s.lcoreMapWord
  | .bridge =>
    let n (x : BitVec 4) := if s.stepDone 3 then x.toNat else 0
    packWord [(0, n s.mod.bridgeUp), (4, b2n s.mod.ringChain), (5, n s.mod.tileCut)]
  | .coord => s.coordWord
  | .groups => packWord [(0, s.groupsUsed)]
  | .buCtl => 0
  | .buStat => s.buStatWord
  | .buUnit => packWord [(0, s.bu.uid.toNat)]
  | .memtest => packWord [(0, s.bu.mtRows.toNat), (16, s.bu.mtGranules.toNat)]
  | .reset => packWord [(0, s.rst.kind.toNat), (2, b2n s.rst.scrub), (3, s.rst.target.toNat)]
  | .resetStat => packWord [(0, b2n (resetBusy s)), (1, s.rst.err.toNat), (4, s.rst.last.toNat)]
  | .fwLo => loWord s.bu.fwAddr.toNat
  | .fwHi => hiWord s.bu.fwAddr.toNat
  | .fwLen => packWord [(0, s.bu.fwLen.toNat)]
  | .capBd => s.bu.capBd
  | .capLp => packWord [(0, s.bu.capLpOff.toNat), (16, s.bu.capLpGran.toNat)]

/-! Power and clocks (R486, R490). -/

def State.railWord (s : State) : Word :=
  let r := s.pwr.railIdx.toNat
  let x := s.rail r
  let n := railN r
  if s.railIsOn r then
    packWord [(0, x.volts.toNat), (8, x.working n), (13, n), (18, min 2 x.retired.length),
      (20, b2n (decide (x.working n < n)))]
  else 0

def State.readPwr (s : State) : PwrReg → Word
  | .input => packWord [(0, s.pwr.vin.toNat), (16, s.pwr.iin.toNat)]
  | .power => packWord [(0, s.pwr.pin.toNat), (16, s.pwr.pmax.toNat)]
  | .cap => packWord [(0, s.pwr.capW.toNat)]
  | .idle => packWord [(0, s.pwr.idleUs.toNat)]
  | .stretch => packWord [(0, s.pwr.epDroop.toNat), (16, s.pwr.epTherm.toNat)]
  | .capOver => packWord [(0, s.pwr.capOver.toNat), (16, s.pwr.epCap.toNat)]
  | .railSel => packWord [(0, s.pwr.railIdx.toNat)]
  | .rail => s.railWord
  | .cause => packWord [(0, s.pwr.cause.toNat)]
  | .temp => packWord [(0, s.pwr.tmax.toNat), (16, s.pwr.tmaxIsl.toNat)]

def State.clkWord (s : State) (isl : Nat) : Word :=
  packWord [(0, s.clkState isl), (2, s.clkFactor isl), (7, s.clkCause isl),
    (16, (s.island isl).localCount.toNat)]

/-! The Chart and the persistent store (R463, R502, R507). -/

def State.chtStatWord (s : State) : Word :=
  packWord [(0, b2n s.cht.fuseOk), (1, b2n s.cht.loaded), (2, b2n s.cht.mapFull), (3, s.cht.mapUsed.toNat),
    (14, s.cht.disagree.toNat)]

def State.chtUnitWord (s : State) : Word :=
  let x := s.unit s.cht.uid.toNat
  packWord [(0, b2n x.fusedBad), (1, b2n x.repairBad), (2, b2n x.testBad), (3, b2n x.tested),
    (4, x.role.toNat), (8, x.testCode.toNat)]

/-- Words that the spec reserves read zero. -/
def prsReserved (i : Nat) : Bool :=
  decide (1050 ≤ i ∧ i ≤ 1055) || decide (1061 ≤ i ∧ i ≤ 2047)

def State.prsHalf (s : State) (i : Nat) (hi : Bool) : Word :=
  if prsReserved i then 0
  else if hi then hiWord (s.prsWord i).toNat else loWord (s.prsWord i).toNat

def State.prsWearWord (s : State) : Word :=
  let i := s.prs.idx.toNat
  packWord [(0, SMap.get 0 s.prs.count i), (20, b2n (s.prs.worn i)),
    (21, b2n (SMap.get 0 s.prs.remap i != 0))]

def State.prsCtlWord (s : State) : Word :=
  packWord [(1, b2n s.prs.writeErr), (2, b2n s.prs.remapErr), (12, 512 - s.prs.sparesUsed)]

/-! The Logbook (R508, R514, R516). -/

/-- The sequence number of the last record, H. -/
def State.logHead (s : State) : Nat := s.log.nextSeq - 1

def State.logOldest (s : State) : Nat := max s.log.floor (s.logHead - 262143)

def State.pfloor (s : State) : Nat := (s.prsWord 1049).toNat % 2 ^ 48

/-- Word `i` of the record window: records of the ring that SRC names, from slot 512·FWIN on. -/
def State.recWord (s : State) (i : Nat) : Word :=
  let slot := 512 * s.log.fwin.toNat + i / 8
  let r := SMap.get {} (if s.log.src then s.log.pring else s.log.fixed) slot
  loWord (bAt r.bytes (i % 8 * 4) 4)

def State.varWord (s : State) (i : Nat) : Word :=
  loWord (leNat ((List.range 4).map fun k =>
    SMap.get 0 s.log.var (32768 * s.log.vwin.toNat + 4 * i + k)))

def State.readLog (s : State) : LogReg → Word
  | .headLo => loWord s.logHead
  | .headHi => packWord [(0, s.log.headHi.toNat)]
  | .oldestLo => loWord s.logOldest
  | .oldestHi => packWord [(0, s.log.oldestHi.toNat)]
  | .clear => 0
  | .stat => packWord [(0, b2n s.log.mirror), (16, s.log.pdrop.toNat)]
  | .pfloorLo => loWord s.pfloor
  | .pfloorHi => packWord [(0, s.log.pfloorHi.toNat)]
  | .win => packWord [(0, s.log.fwin.toNat), (9, b2n s.log.src), (16, s.log.vwin.toNat)]
  | .optimeLo => loWord s.log.optime.toNat
  | .optimeHi => packWord [(0, s.log.optimeHi.toNat)]
  | .pcycles => packWord [(0, s.pcycles)]
  | .recWord i => s.recWord i
  | .varWord i => s.varWord i

/-! The security engine (R443). -/

/-- Word `i` of a window; bytes that are not valid are free values. -/
def windowWord (free : Nat) (bs : List Byte) (i : Nat) : Word :=
  loWord (leNat ((List.range 4).map fun k => bs.getD (4 * i + k) (Config.freeByte free (4 * i + k))))

def State.readSec (s : State) : SecReg → Word
  | .status => packWord [(0, b2n s.sec.activeT1), (1, s.sec.fwState.toNat), (3, s.sec.fwReason.toNat),
      (6, b2n s.sec.fwSlot), (7, b2n s.sec.slot0Revoked), (8, b2n s.idExhausted)]
  | .svn => packWord [(0, s.sec.svnRun.toNat), (16, s.svnMin)]
  | .ctl => 0
  | .leafLo => loWord s.sec.leaf
  | .leafHi => packWord [(0, s.sec.leafHi.toNat)]
  | .req => packWord [(0, s.sec.kind.toNat), (2, s.sec.part.toNat), (7, b2n s.sec.busy),
      (8, s.sec.err.toNat)]
  | .nonce i => SMap.get 0 s.sec.nonce i
  | .outLen => packWord [(0, s.sec.outLen.toNat)]
  | .certLen => packWord [(0, Config.certLen.toNat)]
  | .out i => windowWord s.free s.sec.out i
  | .cert i => loWord (leNat ((List.range 4).map fun k => Config.cert (4 * i + k)))

/-! Partitions. -/

def State.readQueue (s : State) (p q : Nat) : QReg → Word
  | .baseLo => loWord ((s.part p).queue q).base.toNat
  | .baseHi => hiWord ((s.part p).queue q).base.toNat
  | .cplLo => loWord ((s.part p).queue q).cpl.toNat
  | .cplHi => hiWord ((s.part p).queue q).cpl.toNat
  | .ctl =>
    let x := (s.part p).queue q
    packWord [(0, b2n x.en), (1, x.log2n.toNat), (6, x.prio.toNat), (8, x.vec.toNat)]
  | .tail => packWord [(0, ((s.part p).queue q).tail.toNat)]
  | .head => packWord [(0, ((s.part p).queue q).head.toNat)]
  | .cplHead => packWord [(0, ((s.part p).queue q).cplHead.toNat)]
  | .cplTail => packWord [(0, ((s.part p).queue q).cplTail.toNat)]
  | .stat =>
    let x := (s.part p).queue q
    packWord [(0, x.state.toNat), (2, x.reason.toNat), (6, s.inflightOf p q)]

/-- Collectives dispatched and waiting for admission. -/
def State.colWaiting (s : State) (p : Nat) : Nat :=
  min 255 ((s.part p).cmds.filter fun c => cmdWaiting c && c.op == opCollective).length

/-- Composition registers (R415), readable in every PAR_STATE. -/
def State.readComp (s : State) (p : Nat) : ParReg → Option Word
  | .ctl => some (s.part p).ctlWord
  | .clusters => some (s.part p).clMask
  | .lpcCh => some (packWord [(0, (s.part p).chMask.toNat)])
  | .stat => some (packWord [(0, (s.part p).state.toNat), (2, (s.part p).err.toNat),
      (6, (s.part p).cores.toNat)])
  | .bd t => some ((s.part p).bdShare t).word
  | .enCount => some (s.part p).enCount
  | .slotLo => some (loWord (s.part p).slotMap.toNat)
  | .slotHi => some (hiWord (s.part p).slotMap.toNat)
  | _ => none

/-- The registers that read zero unless PAR_STATE is 2 (R416). -/
def State.readOwn (s : State) (p : Nat) : ParReg → Word
  | .xltRoot => packWord [(0, (s.part p).xlt.rootAddr.toNat), (31, b2n (s.part p).xlt.en)]
  | .xltBase => packWord [(0, (s.part p).xlt.base.toNat)]
  | .xltLast => packWord [(0, (s.part p).xlt.last.toNat)]
  | .invLo => loWord (s.part p).xlt.invVa.toNat
  | .invHi => hiWord (s.part p).xlt.invVa.toNat
  | .invCtl => packWord [(0, (s.part p).xlt.invLog2.toNat), (30, b2n (s.part p).xlt.invBusy)]
  | .pltCtl =>
    let x := (s.part p).plt
    packWord [(0, b2n x.en), (1, x.entries.toNat), (13, x.ctr.toNat)]
  | .pltPeriod => packWord [(0, (s.part p).plt.period.toNat)]
  | .pltTabLo => loWord (s.part p).plt.tableVa.toNat
  | .pltTabHi => hiWord (s.part p).plt.tableVa.toNat
  | .pltBase => packWord [(0, (s.part p).plt.stageBase.toNat)]
  | .pltSize => packWord [(0, (s.part p).plt.stageSize.toNat)]
  | .pltStat => packWord [(0, b2n (s.part p).plt.run), (1, (s.part p).plt.err.toNat)]
  | .pltC0Lo => loWord (s.part p).plt.c0.toNat
  | .pltC0Hi => hiWord (s.part p).plt.c0.toNat
  | .pltLate => (s.part p).plt.late
  | .evcSel => packWord [(0, (s.part p).evcIdx.toNat)]
  | .evcLo => loWord (s.evc p (s.part p).evcIdx.toNat).toNat
  | .evcHi => (s.part p).evcHi
  | .evcAdd => 0
  | .atmBase => packWord [(0, (s.part p).atmBase.toNat)]
  | .atmSize => packWord [(0, (s.part p).atmSize.toNat)]
  | .colStage i =>
    let x := (s.part p).col.stage i
    packWord [(0, x.core.toNat), (8, x.off.toNat), (19, x.slots.toNat)]
  | .colStat => packWord [(0, s.admitted p), (8, s.colWaiting p)]
  | .colHdr => packWord [(0, (s.part p).col.hdrMs.toNat)]
  | .colLastLo => loWord (s.part p).col.last.toNat
  | .colLastHi => packWord [(0, (s.part p).col.lastHi.toNat)]
  | .genCtl => packWord [(0, b2n (s.gen p).en), (1, b2n (s.gen p).park)]
  | .genDescLo => loWord (s.gen p).descVa.toNat
  | .genDescHi => hiWord (s.gen p).descVa.toNat
  | .genReqTail => packWord [(0, (s.gen p).reqTail.toNat)]
  | .genReqHead => packWord [(0, (s.gen p).reqHead.toNat)]
  | .genEvtTail => packWord [(0, (s.gen p).evtTail.toNat)]
  | .genEvtHead => packWord [(0, (s.gen p).evtHead.toNat)]
  | .genStat => packWord [(0, (s.gen p).state.toNat), (2, (s.gen p).err.toNat), (5, b2n (s.gen p).evtFull),
      (6, (s.gen p).epoch.toNat)]
  | .genLive => packWord [(0, (s.gen p).reqs.length)]
  | .genFree => loWord ((s.gen p).freeFrames false).length
  | .genDir => packWord [(0, (s.gen p).dir.length)]
  | .genStepLo => loWord (s.gen p).stepNo.toNat
  | .genStepHi => (s.gen p).stepHi
  | .sndCtl =>
    let x := (s.part p).snd
    packWord [(0, b2n x.en), (1, x.log2n.toNat), (6, x.queue.toNat), (12, b2n x.err)]
  | .sndBaseLo => loWord (s.part p).snd.base.toNat
  | .sndBaseHi => hiWord (s.part p).snd.base.toNat
  | .sndDrop => (s.part p).snd.drop
  | .sndTrips => (s.part p).snd.trips
  | .updCtLo => loWord (s.part p).upd.ctVa.toNat
  | .updCtHi => hiWord (s.part p).upd.ctVa.toNat
  | .updCtN => packWord [(0, (s.part p).upd.ctN.toNat)]
  | .tackCtl => packWord [(0, b2n (s.part p).tack.rekey), (1, (s.part p).tack.share.toNat)]
  | .tackSaltLo => loWord (s.part p).tack.salt.toNat
  | .tackSaltHi => hiWord (s.part p).tack.salt.toNat
  | .tackStale => packWord [(0, ((s.gen p).dir.filter (·.stale)).length)]
  | .wsStat k =>
    let x := (s.part p).wset k
    packWord [(0, x.state.toNat), (3, b2n x.gen), (8, x.last.toNat)]
  | .wsManLo k => loWord ((s.part p).wset k).man.toNat
  | .wsManHi k => hiWord ((s.part p).wset k).man.toNat
  | .wsRecov k => packWord [(0, ((s.part p).wset k).recovered.toNat), (16, ((s.part p).wset k).rejected.toNat)]
  | .q q r => s.readQueue p q r
  | _ => 0

def State.readPar (s : State) (p : Nat) (r : ParReg) : Word :=
  match s.readComp p r with
  | some w => w
  | none => if s.enabled p then s.readOwn p r else 0

/-! Links, ports, cores, memory units, Looms (R156, R197, R198, R258, R383, R496). -/

def State.readUl (s : State) (u : Nat) : LinkReg → Word
  | .status => packWord [(0, (s.port u).state.toNat), (3, (s.port u).lanes.toNat),
      (8, (s.port u).routed.toNat)]
  | .ctl => packWord [(0, b2n (s.port u).disable)]
  | .err => packWord [(0, (s.port u).crcFail.toNat), (16, (s.port u).replays.toNat)]
  | .fec => 0
  | .viol => packWord [(0, (s.port u).viol.toNat), (16, (s.port u).violLast.toNat),
      (24, (s.port u).quarCount.toNat)]

def State.readPl (s : State) (l : Nat) : LinkReg → Word
  | .status =>
    let k := s.link l
    packWord [(0, k.state.toNat), (3, k.lanes.toNat), (5, b2n k.spared), (6, b2n k.spareIdx),
      (7, b2n k.sparedLane), (8, k.peerCoord.toNat), (16, k.peerLink.toNat)]
  | .ctl => packWord [(0, b2n (s.link l).disable), (8, (s.link l).ceLog2.toNat)]
  | .err => packWord [(0, (s.link l).crcFail.toNat), (16, (s.link l).replays.toNat)]
  | .fec => (s.link l).fecCorr
  | .viol => packWord [(0, (s.link l).viol.toNat), (16, (s.link l).violLast.toNat)]

def State.readCore (s : State) (c : Nat) : CoreReg → Word
  | .status =>
    let x := s.core c
    packWord [(0, x.regs.state.toNat), (4, b2n (!x.qa.isEmpty)), (5, b2n (!x.qb.isEmpty)),
      (6, b2n (!x.qv.isEmpty)), (7, b2n (!x.dmas.isEmpty)), (8, x.regs.rank.toNat), (16, x.regs.pc.toNat % 8192)]
  | .fault => packWord [(0, (s.core c).regs.cause.toNat), (8, (s.core c).regs.funit.toNat)]
  | .faultPc => packWord [(0, (s.core c).regs.fpc.toNat)]
  | .faddrLo => loWord (s.core c).regs.faddr.toNat
  | .faddrHi => hiWord (s.core c).regs.faddr.toNat
  | .ecc => packWord [(0, (s.core c).regs.eccCorr.toNat), (16, (s.core c).regs.eccUncorr.toNat)]
  | .cyclesLo => loWord (s.core c).regs.cycles.toNat
  | .cyclesHi => (s.core c).regs.cyclesHi

/-- BDP_SPARE: the fewest spare rows of any bank, and the lowest bank that has so few; valid after S4. -/
def State.spareWord (s : State) (u : Nat) : Word :=
  let x := s.bdp u
  if x.trained then
    let left := fun b => spareRows - SMap.get 0 x.used b
    let best := (List.range 64).foldl (fun a b => if left b < left a then b else a) 0
    packWord [(0, left best), (12, best)]
  else 0

def State.readBdp (s : State) (u : Nat) : MemReg → Word
  | .ecc => packWord [(0, (s.bdp u).corr.toNat), (16, (s.bdp u).uncorr.toNat)]
  | .spare => s.spareWord u
  | .retire => packWord [(0, (s.bdp u).rows.toNat), (16, (s.bdp u).granules.toNat)]
  | .scrub => packWord [(0, (s.bdp u).passes.toNat), (16, (s.bdp u).hours.toNat), (24, (s.bdp u).thr.toNat)]

def State.readLpc (s : State) (u : Nat) : MemReg → Word
  | .ecc => packWord [(0, (s.lpc u).corr.toNat), (16, (s.lpc u).uncorr.toNat)]
  | .spare => packWord [(0, (s.lpc u).softUsed.toNat), (7, (s.lpc u).pprPending.toNat),
      (14, (s.lpc u).pkgs.toNat)]
  | .retire => packWord [(0, (s.lpc u).rows.toNat), (16, (s.lpc u).granules.toNat)]
  | .scrub => packWord [(0, (s.lpc u).passes.toNat), (16, (s.lpc u).hours.toNat), (24, (s.lpc u).thr.toNat)]

/-- A weight recovery of the tile's Loom is in progress (R399). -/
def State.loomRecovers (s : State) (t : Nat) : Bool :=
  (List.range 16).any fun p => (List.range 16).any fun k =>
    let w := (s.part p).wset k
    w.recoveries.any fun r => s.loomFor p (chunkVa (manEntry w r.shard) r.copy r.chunk) == uLoom t

def State.loomStatusWord (s : State) (t : Nat) : Word :=
  let rec_ := s.loomRecovers t
  let now := s.loomNow t
  packWord [(0, b2n (now.isSome || rec_)), (1, (now.map (·.1)).getD (s.loom t).part.toNat),
    (5, b2n ((now.map (cmdTack ·.2)).getD false)), (6, b2n rec_)]

/-! Any register. -/

def State.readReg (s : State) : Reg → Word
  | .mod r => s.readMod r
  | .pwr r => s.readPwr r
  | .clk i => s.clkWord i
  | .chtStat => s.chtStatWord
  | .chtSel => packWord [(0, s.cht.uid.toNat)]
  | .chtUnit => s.chtUnitWord
  | .prsWord i hi => s.prsHalf i hi
  | .prsSel => packWord [(0, s.prs.idx.toNat)]
  | .prsWear => s.prsWearWord
  | .prsCtl => s.prsCtlWord
  | .log r => s.readLog r
  | .sec r => s.readSec r
  | .par p r => s.readPar p r
  | .ul u r => s.readUl u r
  | .pl l r => s.readPl l r
  | .core c r => s.readCore c r
  | .bdp u r => s.readBdp u r
  | .lpc u r => s.readLpc u r
  | .loomStatus t => s.loomStatusWord t
  | .loomLo t => loWord (s.loom t).bytes.toNat
  | .loomHi t => (s.loom t).bytesHi

end Sys2Proof.Machine
end

