-- ==== Sys2Proof/Machine/RegWrite.lean ====
section
/-! DEFINITION. What a write of every register does (R17, R20). A field that is given a reserved encoding
keeps its value, with event 0x8021; reserved bits are ignored. Readings: log entry 31. -/

namespace Sys2Proof.Machine

/-- A field takes a value, or keeps its own when the written one is reserved (R20). -/
def State.field (s : State) (g : Agent) (ok : Bool) (f : State → State) : State :=
  if ok then f s else s.event 0x8021 (s.uid g)

/-- The low half of an address, from bit `k` up, and the high half of a 56-bit one. -/
def putLo (old v k : Nat) : Nat := old / 2 ^ 32 * 2 ^ 32 + v / 2 ^ k * 2 ^ k
def putHi (old v : Nat) : Nat := old % 2 ^ 32 + v % 2 ^ 24 * 2 ^ 32

/-! MOD_ (R34, R242, R452, R467). -/

def State.writeCoord (s : State) (g : Agent) (v : Nat) : State :=
  if s.mod.coordLock then s
  else s.field g (coordsLegal (coordFields s.mod v)) fun s => { s with mod := coordFields s.mod v }

def State.writeBuCtl (s : State) (g : Agent) (v : Nat) : State :=
  if !bit v 31 || s.bu.busy then s
  else
    let next := fld v 0 4
    let test := fld v 4 2
    (s.field g (decide (2 ≤ next ∧ next ≤ 10 ∧ (next = 5 → test < 2))) id).buGo next test

/-- MOD_RESET. GO while a reset of the host runs makes the write ignored, but for a module reset, which
overrides every other (R467). -/
def State.writeReset (s : State) (g : Agent) (v : Nat) : State :=
  let kind := fld v 0 2
  let scrub := bit v 2
  if bit v 31 && kind != 3 && resetBusy s then s.resetErr 1
  else
    let s := { s with rst := { s.rst with kind := BitVec.ofNat 2 kind, target := BitVec.ofNat 8 (v / 8) } }
    let s := s.field g (!scrub || kind == 2) fun s => { s with rst := { s.rst with scrub := scrub } }
    if !bit v 31 then s
    else if kind = 3 then s.moduleReset 1 (s.uid g)
    else s.hostReset (s.uid g)

def State.writeMod (s : State) (g : Agent) (v : Nat) : ModReg → State
  | .lcoreSel => s.field g (decide (fld v 0 8 ≤ 191)) fun s =>
      { s with mod := { s.mod with lcoreSel := BitVec.ofNat 8 v } }
  | .coord => s.writeCoord g v
  | .buCtl => s.writeBuCtl g v
  | .reset => s.writeReset g v
  | .fwLo => s.setBu fun b => { b with fwAddr := BitVec.ofNat 56 (putLo b.fwAddr.toNat v 12) }
  | .fwHi => s.setBu fun b => { b with fwAddr := BitVec.ofNat 56 (putHi b.fwAddr.toNat v) }
  | .fwLen => s.setBu fun b => { b with fwLen := BitVec.ofNat 26 v }
  | _ => s

/-! PWR_ (R486). -/

def State.writePwr (s : State) (g : Agent) (v : Nat) : PwrReg → State
  | .cap => s.field g (decide (1500 ≤ fld v 0 16 ∧ fld v 0 16 ≤ 3600)) fun s =>
      { s with pwr := { s.pwr with capW := BitVec.ofNat 16 v } }
  | .idle => s.field g (decide (1 ≤ fld v 0 10 ∧ fld v 0 10 ≤ 1000)) fun s =>
      { s with pwr := { s.pwr with idleUs := BitVec.ofNat 10 v } }
  | .railSel => s.field g (decide (fld v 0 5 ≤ 24)) fun s =>
      { s with pwr := { s.pwr with railIdx := BitVec.ofNat 5 v } }
  | _ => s

/-! The persistent store (R502 to R505, R507). -/

def State.setPrs (s : State) (f : PrsState → PrsState) : State := { s with prs := f s.prs }

/-- A write to another PRS_ address discards held halves (R503). -/
def State.dropHalves (s : State) : State := s.setPrs fun r => { r with held := [] }

/-- Commits a host word; a write to a worn one is discarded. -/
def State.commitHost (s : State) (g : Agent) (i : Nat) (v : Dword) : State :=
  if s.prs.worn i then
    (s.setPrs fun r => { r with writeErr := true }).event 0x7031 (s.uid g)
  else
    let s := s.setPrs fun r => r.commit i v
    if s.prs.worn i then s.event 0x7030 s.uMgmt else s

/-- The owner's hash: halves are held in order from word 1,056 up, and the last one commits all four
words together. -/
def State.writeOwner (s : State) (run : List (Nat × Word)) (h : Nat) (v : Word) : State :=
  if h = 2112 + run.length then
    let run := run ++ [(h, v)]
    if h = 2119 then
      (List.range 4).foldl (fun s i =>
        let lo := (run.getD (2 * i) (0, 0)).2
        let hi := (run.getD (2 * i + 1) (0, 0)).2
        s.setPrs fun r => r.commit (1056 + i) (hi ++ lo)) s
    else s.setPrs fun r => { r with held := run }
  else if h = 2112 then s.setPrs fun r => { r with held := [(h, v)] }
  else s

/-- A write to half of a persistent word. A HI half whose LO half is not held commits nothing. -/
def State.writePrsHalf (s : State) (g : Agent) (i : Nat) (hi : Bool) (v : Word) : State :=
  let held := s.prs.held
  let s := s.dropHalves
  if 2048 ≤ i then
    if hi then
      match lookup held (2 * i) with
      | some lo => s.commitHost g i (v ++ lo)
      | none => s
    else s.setPrs fun r => { r with held := [(2 * i, v)] }
  else if 1056 ≤ i ∧ i ≤ 1059 ∧ s.ownerHash = [] then
    s.writeOwner (if (lookup held 2112).isSome then held else []) (2 * i + b2n hi) v
  else s

/-- PRS_REMAP_GO (R505). -/
def State.remapGo (s : State) : State :=
  let i := s.prs.idx.toNat
  if i < 2048 then s
  else if s.prs.sparesUsed < 512 then (s.setPrs fun r => r.remapWord i).event 0x7032 s.uMgmt
  else s.setPrs fun r => { r with remapErr := true }

def State.writePrsCtl (s : State) (v : Nat) : State :=
  let s := s.dropHalves.setPrs fun r => { r with
    writeErr := r.writeErr && !bit v 1, remapErr := r.remapErr && !bit v 2 }
  if bit v 0 then s.remapGo else s

/-! The Logbook (R515, R516). -/

/-- LOG_CLR: the floor moves to the clear record's own number. -/
def State.logClear (s : State) (g : Agent) : State :=
  let was := s.log.floor
  ({ s with log := { s.log with floor := s.seqNext } }).record
    { code := 0xF001, unit := s.uid g, arg0 := some was }

/-- LOG_PCLEAR: the floor in word 1,049 moves in the same manner. -/
def State.logPclear (s : State) (g : Agent) : State :=
  let n := s.seqNext
  (s.record { code := 0xF001, unit := s.uid g, arg0 := some s.pfloor }).prsOwn 1049 (BitVec.ofNat 64 n)

def State.writeLog (s : State) (g : Agent) (v : Nat) : LogReg → State
  | .clear =>
    let s := if bit v 0 then s.logClear g else s
    if bit v 1 then s.logPclear g else s
  | .win =>
    let s := { s with log := { s.log with vwin := BitVec.ofNat 7 (v / 2 ^ 16) } }
    s.field g (!bit v 9 || decide (fld v 0 9 ≤ 7)) fun s =>
      { s with log := { s.log with fwin := BitVec.ofNat 9 v, src := bit v 9 } }
  | _ => s

/-! SEC_ (R443). -/

def State.writeSecReq (s : State) (g : Agent) (v : Nat) : State :=
  if bit v 6 && s.sec.busy then { s with sec := { s.sec with err := 4 } }
  else
    let kind := fld v 0 2
    let s := { s with sec := { s.sec with part := BitVec.ofNat 4 (v / 4) } }
    let s := s.field g (kind == 1 || kind == 2) fun s =>
      { s with sec := { s.sec with kind := BitVec.ofNat 2 kind } }
    if bit v 6 then s.secGo else s

def State.writeSec (s : State) (g : Agent) (v : Nat) : SecReg → State
  | .svn => s.writeSvnMin (v / 2 ^ 16)
  | .ctl => if bit v 0 then s.revoke0 else s
  | .req => s.writeSecReq g v
  | .nonce i => { s with sec := { s.sec with nonce := SMap.set 0 s.sec.nonce i (BitVec.ofNat 32 v) } }
  | _ => s

/-! Queues (R203 to R210). -/

/-- PAR_Q_TAIL: a doorbell, unless the queue is disabled (R205); dropped when it comes through a
host-link port in quarantine (R238, R495). -/
def State.quarantined (s : State) : Agent → Bool
  | .host u => (s.port u.val).state == 4
  | _ => false

def State.doorbell (s : State) (g : Agent) (p q v : Nat) : State :=
  let x := (s.part p).queue q
  if s.quarantined g then s
  else if x.state = 0 then s.eventP 0x8023 (s.uid g) p
  else if !tailOk x.n x.head.toNat x.tail.toNat v then
    (s.stopQueue p q 3).eventP 0x8022 (s.uid g) p
  else s.updQueue p q fun x => { x with tail := BitVec.ofNat 17 v }

/-- The rings lie where R203 permits. -/
def State.ringsOk (s : State) (p q : Nat) : Bool :=
  let x := (s.part p).queue q
  s.pinnedRange p x.base.toNat (64 * x.n) false && s.pinnedRange p x.cpl.toNat (32 * x.n) true

/-- PAR_Q_EN = 1 on a disabled queue. -/
def State.queueOn (s : State) (p q : Nat) : State :=
  if s.ringsOk p q then s.updQueue p q fun x => { x with en := true, state := 1 }
  else s.updQueue p q fun x => { x with reason := 5 }

/-- PAR_Q_EN = 0 on an enabled queue: ignored while it holds dispatched commands. -/
def State.queueOff (s : State) (p q : Nat) : State :=
  if (s.part p).cmds.any fun c => c.q == q && !cmdReturns q c then s
  else (s.returnFetched p q).updQueue p q fun x => { x with en := false, state := 0 }

def State.queueStop (s : State) (p q : Nat) : State :=
  if ((s.part p).queue q).state = 1 then s.stopQueue p q 4 else s

/-- The queue runs again; records that were held go out (R231). -/
def State.queueResume (s : State) (p q : Nat) : State :=
  if ((s.part p).queue q).state = 2 then
    (s.updQueue p q fun x => { x with state := 1, reason := 0 }).flushHeld p q
  else s

/-- PAR_Q_LOG2N: written only while the queue is disabled. -/
def State.writeLog2n (s : State) (g : Agent) (p q n : Nat) : State :=
  let x := (s.part p).queue q
  if x.en then
    if n = x.log2n.toNat then s else s.eventP 0x4002 (s.uid g) p
  else s.field g (decide (4 ≤ n ∧ n ≤ 16)) fun s =>
    s.updQueue p q fun x => { x with log2n := BitVec.ofNat 5 n }

def State.writeQueueCtl (s : State) (g : Agent) (p q v : Nat) : State :=
  let was := ((s.part p).queue q).en
  let s := (s.writeLog2n g p q (fld v 1 5)).updQueue p q fun x => { x with
    prio := BitVec.ofNat 2 (v / 64), vec := BitVec.ofNat 6 (v / 256) }
  let s := if bit v 0 == was then s else if was then s.queueOff p q else s.queueOn p q
  let s := if bit v 14 then s.queueStop p q else s
  if bit v 15 then s.queueResume p q else s

/-- PAR_Q_HEAD: only while stopped, and only to a place from which at most N are exposed. -/
def State.writeHead (s : State) (p q v : Nat) : State :=
  let x := (s.part p).queue q
  if x.state = 2 ∧ v < 2 * x.n ∧ (x.tail.toNat + 2 * x.n - v) % (2 * x.n) ≤ x.n then
    s.updQueue p q fun x => { x with head := BitVec.ofNat 17 v }
  else s

/-- Ring addresses are written only while the queue is disabled. -/
def State.writeRing (s : State) (g : Agent) (p q : Nat) (f : Queue → Queue) : State :=
  if ((s.part p).queue q).en then s.eventP 0x4002 (s.uid g) p else s.updQueue p q f

def State.writeQueue (s : State) (g : Agent) (p q v : Nat) : QReg → State
  | .baseLo => s.writeRing g p q fun x => { x with base := BitVec.ofNat 56 (putLo x.base.toNat v 12) }
  | .baseHi => s.writeRing g p q fun x => { x with base := BitVec.ofNat 56 (putHi x.base.toNat v) }
  | .cplLo => s.writeRing g p q fun x => { x with cpl := BitVec.ofNat 56 (putLo x.cpl.toNat v 12) }
  | .cplHi => s.writeRing g p q fun x => { x with cpl := BitVec.ofNat 56 (putHi x.cpl.toNat v) }
  | .ctl => s.writeQueueCtl g p q v
  | .tail => s.doorbell g p q (fld v 0 17)
  | .head => s.writeHead p q (fld v 0 17)
  | .cplHead => s.updQueue p q fun x => { x with cplHead := BitVec.ofNat 17 v }
  | _ => s

/-! Translation and Pilot (R172, R189). -/

/-- A change of the root or the table region ends every cached translation. -/
def State.writeXlt (s : State) (p : Nat) (f : Xlt → Xlt) : State :=
  ((s.updPart p fun x => { x with xlt := f x.xlt }).invalidate p 0 (2 ^ 56)).kvRebuild p

/-- An invalidation register, unless an invalidation runs. -/
def State.writeInv (s : State) (g : Agent) (p : Nat) (f : State → State) : State :=
  if (s.part p).xlt.invBusy then s.eventP 0x1012 (s.uid g) p else f s

def State.updInv (s : State) (p : Nat) (f : Xlt → Xlt) : State :=
  s.updPart p fun x => { x with xlt := f x.xlt }

def State.writeInvCtl (s : State) (g : Agent) (p v : Nat) : State :=
  let s := s.field g (decide (12 ≤ fld v 0 6 ∧ fld v 0 6 ≤ 56)) fun s =>
    s.updInv p fun x => { x with invLog2 := BitVec.ofNat 6 v }
  if bit v 31 then
    s.updInv p fun x =>
      let n := x.invLog2.toNat
      { x with invBusy := true, runVa := x.invVa.toNat / 2 ^ n * 2 ^ n, runLog2 := n }
  else s

def State.updPlt (s : State) (p : Nat) (f : Pilot → Pilot) : State :=
  s.updPart p fun x => { x with plt := f x.plt }

def State.writePltCtl (s : State) (p v : Nat) : State :=
  let was := (s.part p).plt.en
  let s := s.updPlt p fun x => { x with entries := BitVec.ofNat 12 (v / 2), ctr := BitVec.ofNat 12 (v / 2 ^ 13) }
  if bit v 0 == was then s else if was then s.pilotOff p else s.pilotOn p

/-! Collectives, serving, Soundings, update engines, Tack (R235, R280, R290, R339, R343, R413). -/

/-- An atomic command of the partition is dispatched (R235). -/
def State.atomicDispatched (s : State) (p : Nat) : Bool :=
  (s.part p).cmds.any fun c => c.dispatched && c.atomic

/-- An UPDATE of the partition is dispatched (R343). -/
def State.updateDispatched (s : State) (p : Nat) : Bool :=
  (s.part p).cmds.any fun c => c.dispatched && c.op == opUpdate

def setStage (x : ColRegs) (i : Nat) (e : ColStage) : ColRegs :=
  match i with
  | 0 => { x with stage0 := e }
  | 1 => { x with stage1 := e }
  | 2 => { x with stage2 := e }
  | _ => { x with stage3 := e }

/-- PAR_COL_STAGE: a setting whose slots end beyond the scratchpad is reserved (R280). -/
def State.writeStage (s : State) (g : Agent) (p i v : Nat) : State :=
  if s.admitted p != 0 then s
  else
    let s := s.updPart p fun x => { x with col := setStage x.col i { x.col.stage i with
      core := BitVec.ofNat 8 v } }
    s.field g (decide (fld v 19 5 ≤ 16 ∧ fld v 8 11 * 4096 + fld v 19 5 * 135168 ≤ 0x600000)) fun s =>
      s.updPart p fun x => { x with col := setStage x.col i { x.col.stage i with
        off := BitVec.ofNat 11 (v / 256), slots := BitVec.ofNat 5 (v / 2 ^ 19) } }

/-- PAR_GEN_CTL. An engine that is still ending is not enabled anew. -/
def State.writeGenCtl (s : State) (p v : Nat) : State :=
  let setPark := fun (s : State) =>
    if bit v 1 == (s.gen p).park then s else if bit v 1 then s.genParkOn p else s.genParkOff p
  if bit v 0 then
    let s := setPark s
    if (s.gen p).en || (s.gen p).active then s else s.genOn p
  else setPark (if (s.gen p).en then s.genOff p else s)

def State.writeGenDesc (s : State) (p : Nat) (f : Nat → Nat) : State :=
  if (s.gen p).en then s
  else s.updPart p fun x => { x with gen := { x.gen with descVa := BitVec.ofNat 56 (f x.gen.descVa.toNat) } }

def State.writeSndCtl (s : State) (g : Agent) (p v : Nat) : State :=
  let was := (s.part p).snd.en
  let s := s.updSnd p fun x => { x with queue := BitVec.ofNat 6 (v / 64) }
  let s := if was then s else s.field g (decide (6 ≤ fld v 1 5 ∧ fld v 1 5 ≤ 16)) fun s =>
    s.updSnd p fun x => { x with log2n := BitVec.ofNat 5 (v / 2) }
  if bit v 0 == was then s
  else if was then s.updSnd p fun x => { x with en := false }
  else s.sndOn p

def State.writeSndBase (s : State) (p : Nat) (f : Nat → Nat) : State :=
  if (s.part p).snd.en then s
  else s.updSnd p fun x => { x with base := BitVec.ofNat 56 (f x.base.toNat) }

def State.writeUpd (s : State) (p : Nat) (f : State → State) : State :=
  if s.updateDispatched p then s else f s

def State.updTack (s : State) (p : Nat) (f : Tack → Tack) : State :=
  s.updPart p fun x => { x with tack := f x.tack }

/-- PAR_EVC_ADD (R218). -/
def State.writeEvcAdd (s : State) (p n : Nat) : State :=
  if n = 0 then s else s.evcAdd p (s.part p).evcIdx.toNat n

/-- A register of an enabled partition. -/
def State.writeOwn (s : State) (g : Agent) (p v : Nat) : ParReg → State
  | .xltRoot => s.writeXlt p fun x => { x with rootAddr := BitVec.ofNat 28 v, en := bit v 31 }
  | .xltBase => s.writeXlt p fun x => { x with base := BitVec.ofNat 27 v }
  | .xltLast => s.writeXlt p fun x => { x with last := BitVec.ofNat 27 v }
  | .invLo => s.writeInv g p fun s => s.updInv p fun x =>
      { x with invVa := BitVec.ofNat 56 (putLo x.invVa.toNat v 12) }
  | .invHi => s.writeInv g p fun s => s.updInv p fun x =>
      { x with invVa := BitVec.ofNat 56 (putHi x.invVa.toNat v) }
  | .invCtl => s.writeInv g p fun s => s.writeInvCtl g p v
  | .pltCtl => s.writePltCtl p v
  | .pltPeriod => s.field g (fld v 0 16 != 0) fun s =>
      s.updPlt p fun x => { x with period := BitVec.ofNat 16 v }
  | .pltTabLo => s.updPlt p fun x => { x with tableVa := BitVec.ofNat 56 (putLo x.tableVa.toNat v 5) }
  | .pltTabHi => s.updPlt p fun x => { x with tableVa := BitVec.ofNat 56 (putHi x.tableVa.toNat v) }
  | .pltBase => s.updPlt p fun x => { x with stageBase := BitVec.ofNat 18 v }
  | .pltSize => s.updPlt p fun x => { x with stageSize := BitVec.ofNat 18 v }
  | .evcSel => s.updPart p fun x => { x with evcIdx := BitVec.ofNat 12 v }
  | .evcAdd => s.writeEvcAdd p (fld v 0 16)
  | .atmBase => if s.atomicDispatched p then s
      else s.updPart p fun x => { x with atmBase := BitVec.ofNat 18 v }
  | .atmSize => if s.atomicDispatched p then s
      else s.updPart p fun x => { x with atmSize := BitVec.ofNat 18 v }
  | .colStage i => s.writeStage g p i v
  | .colHdr => s.field g (fld v 0 16 != 0) fun s =>
      s.updPart p fun x => { x with col := { x.col with hdrMs := BitVec.ofNat 16 v } }
  | .genCtl => s.writeGenCtl p v
  | .genDescLo => s.writeGenDesc p fun a => putLo a v 8
  | .genDescHi => s.writeGenDesc p fun a => putHi a v
  | .genReqTail => if s.quarantined g then s else s.genDoorbell p (fld v 0 17) (s.uid g)
  | .genEvtHead => s.genEvtHead p (fld v 0 17)
  | .sndCtl => s.writeSndCtl g p v
  | .sndBaseLo => s.writeSndBase p fun a => putLo a v 12
  | .sndBaseHi => s.writeSndBase p fun a => putHi a v
  -- W1C bit by bit (R17); all ones clear the register (R339)
  | .sndDrop => s.updSnd p fun x => { x with drop := x.drop &&& ~~~BitVec.ofNat 32 v }
  | .sndTrips => s.updSnd p fun x => { x with trips := x.trips &&& ~~~BitVec.ofNat 32 v }
  | .updCtLo => s.writeUpd p fun s => s.updPart p fun x =>
      { x with upd := { x.upd with ctVa := BitVec.ofNat 56 (putLo x.upd.ctVa.toNat v 6) } }
  | .updCtHi => s.writeUpd p fun s => s.updPart p fun x =>
      { x with upd := { x.upd with ctVa := BitVec.ofNat 56 (putHi x.upd.ctVa.toNat v) } }
  | .updCtN => s.writeUpd p fun s => s.field g (decide (fld v 0 9 ≤ 256)) fun s =>
      s.updPart p fun x => { x with upd := { x.upd with ctN := BitVec.ofNat 9 v } }
  | .tackCtl =>
    let s := s.updTack p fun x => { x with rekey := bit v 0 }
    s.field g (fld v 1 2 != 3) fun s => s.updTack p fun x => { x with share := BitVec.ofNat 2 (v / 2) }
  | .tackSaltLo => s.updTack p fun x => { x with
      salt := BitVec.ofNat 64 (x.salt.toNat / 2 ^ 32 * 2 ^ 32 + v % 2 ^ 32) }
  | .tackSaltHi => s.updTack p fun x => { x with
      salt := BitVec.ofNat 64 (x.salt.toNat % 2 ^ 32 + v % 2 ^ 32 * 2 ^ 32) }
  | .q q r => s.writeQueue g p q v r
  | _ => s

/-- Doorbells pass during a partition reset, which absorbs them (R53, R465). -/
def isDoorbell : ParReg → Bool
  | .q _ .tail => true
  | .genReqTail => true
  | _ => false

/-- A composition register, while PAR_STATE is 0 (R416). -/
def State.writeComp (s : State) (g : Agent) (p : Nat) (f : State → State) : State :=
  if (s.part p).state = 0 then f s else s.eventP 0x6001 (s.uid g) p

def setShare (x : Part) (t : Nat) (e : BdShare) : Part :=
  match t with
  | 0 => { x with bd0 := e }
  | 1 => { x with bd1 := e }
  | 2 => { x with bd2 := e }
  | _ => { x with bd3 := e }

/-- Channels that the ordering code has (R159, R415). -/
def State.channelMask (s : State) (v : Nat) : BitVec 16 :=
  if s.board.memCode == 1 then BitVec.ofNat 16 v else BitVec.ofNat 16 v &&& 0x5555

def State.writePar (s : State) (g : Agent) (p v : Nat) (r : ParReg) : State :=
  match r with
  | .ctl => s.writeParCtl (s.uid g) p v
  | .clusters => s.writeComp g p fun s => s.updPart p fun x => { x with clMask := BitVec.ofNat 32 v }
  | .lpcCh => s.writeComp g p fun s => s.updPart p fun x => { x with chMask := s.channelMask v }
  | .bd t => s.writeComp g p fun s => s.field g (decide (fld v 0 6 + fld v 6 7 ≤ 64)) fun s =>
      s.updPart p fun x => setShare x t (shareOf v)
  | r =>
    if (s.readComp p r).isSome || !s.enabled p then s
    else if (s.part p).resetting && !isDoorbell r then s.eventP 0x7022 (s.uid g) p
    else s.writeOwn g p v r

/-! Links, ports, memory units (R197, R198, R258, R496). -/

def State.writeUlCtl (s : State) (u v : Nat) : State :=
  let s := s.ulDisable u (bit v 0)
  let s := if bit v 1 then s.ulRetrain u else s
  if bit v 2 then s.ulQclr u else s

def State.writePlCtl (s : State) (g : Agent) (l v : Nat) : State :=
  let s := s.field g (decide (10 ≤ fld v 8 5 ∧ fld v 8 5 ≤ 30)) fun s =>
    s.updLink l fun k => { k with ceLog2 := BitVec.ofNat 5 (v / 256) }
  let s := s.plDisable l (bit v 0)
  let s := if bit v 1 then s.plRetrain l else s
  if bit v 2 then s.plQclr l else s

def hoursOk (v : Nat) : Bool := decide (1 ≤ fld v 16 5 ∧ fld v 16 5 ≤ 24)

def State.writeBdp (s : State) (g : Agent) (u v : Nat) : MemReg → State
  | .scrub =>
    let s := s.field g (hoursOk v) fun s => s.updBdp u fun x => { x with hours := BitVec.ofNat 5 (v / 2 ^ 16) }
    s.field g (fld v 24 4 != 0) fun s => s.updBdp u fun x => { x with thr := BitVec.ofNat 4 (v / 2 ^ 24) }
  | _ => s

def State.writeLpc (s : State) (g : Agent) (u v : Nat) : MemReg → State
  | .scrub =>
    let s := s.field g (hoursOk v) fun s => s.updLpc u fun x => { x with hours := BitVec.ofNat 5 (v / 2 ^ 16) }
    s.field g (fld v 24 4 != 0) fun s => s.updLpc u fun x => { x with thr := BitVec.ofNat 4 (v / 2 ^ 24) }
  | _ => s

/-! Any register. -/

def State.writeReg (s : State) (g : Agent) (v : Nat) : Reg → State
  | .mod r => s.writeMod g v r
  | .pwr r => s.writePwr g v r
  | .chtSel => { s with cht := { s.cht with uid := BitVec.ofNat 16 v } }
  | .prsWord i hi => s.writePrsHalf g i hi (BitVec.ofNat 32 v)
  | .prsSel => s.dropHalves.setPrs fun r => { r with idx := BitVec.ofNat 12 v }
  | .prsWear => s.dropHalves
  | .prsCtl => s.writePrsCtl v
  | .log r => s.writeLog g v r
  | .sec r => s.writeSec g v r
  | .par p r => s.writePar g p v r
  | .ul u .ctl => s.writeUlCtl u v
  | .pl l .ctl => s.writePlCtl g l v
  | .bdp u r => s.writeBdp g u v r
  | .lpc u r => s.writeLpc g u v r
  | _ => s

/-! Accesses (R60, R61). -/

/-- A write of an address by an agent. -/
def State.writeAddr (s : State) (g : Agent) (a : Nat) (v : Word) : State :=
  if !s.agentLive g then s
  else if !s.agentReaches g a then s.event 0x6002 (s.uid g)
  else match regAt a with
    | some r => s.writeReg g v.toNat r
    | none => (if a / 0x10000 = 4 then s.dropHalves else s).event 0x8020 (s.uid g)

/-- The snapshot that a read of an RS register takes (R17). -/
def State.snapshot (s : State) : Reg → State
  | .core c .cyclesLo =>
    let s := s.countCycles c
    s.updCore c fun x => { x with regs := { x.regs with cyclesHi := hiWord x.regs.cycles.toNat } }
  | .par p .evcLo =>
    if s.enabled p then
      s.updPart p fun x => { x with evcHi := hiWord (s.evc p x.evcIdx.toNat).toNat }
    else s
  | .par p .genStepLo =>
    if s.enabled p then
      s.updPart p fun x => { x with gen := { x.gen with stepHi := hiWord x.gen.stepNo.toNat } }
    else s
  | .par p .colLastLo =>
    if s.enabled p then
      s.updPart p fun x => { x with col := { x.col with
        lastHi := BitVec.ofNat 16 (x.col.last.toNat / 2 ^ 32) } }
    else s
  | .loomLo t => s.updLoom t fun x => { x with bytesHi := hiWord x.bytes.toNat }
  | .sec .leafLo => { s with sec := { s.sec with leafHi := BitVec.ofNat 8 (s.sec.leaf / 2 ^ 32) } }
  | .log .headLo => { s with log := { s.log with headHi := BitVec.ofNat 16 (s.logHead / 2 ^ 32) } }
  | .log .oldestLo => { s with log := { s.log with oldestHi := BitVec.ofNat 16 (s.logOldest / 2 ^ 32) } }
  | .log .pfloorLo => { s with log := { s.log with pfloorHi := BitVec.ofNat 16 (s.pfloor / 2 ^ 32) } }
  | .log .optimeLo => { s with log := { s.log with
      optimeHi := BitVec.ofNat 8 (s.log.optime.toNat / 2 ^ 32) } }
  | _ => s

/-- A read of an address by an agent; the answer goes out. -/
def State.readAddr (s : State) (g : Agent) (a : Nat) : State :=
  if !s.agentLive g then s
  else if !s.agentReaches g a then (s.event 0x6002 (s.uid g)).emit (.read g a 0)
  else match regAt a with
    | some r =>
      let s := s.snapshot r
      s.emit (.read g a (s.readReg r))
    | none => (s.event 0x8020 (s.uid g)).emit (.read g a 0)

end Sys2Proof.Machine
end

