-- ==== Sys2Proof/Machine/Mgmt.lean ====
section
/-! DEFINITION. The persistent ring and its bucket (R513), the Logbook's mirror (R517), the operating
time (R506), MGMT_VIO (R526), the I3C target (R497, R498), and responses of host memory (R160, R494,
R495). Readings: log entry 32. -/

namespace Sys2Proof.Machine

/-! The Logbook (R506, R513, R517). -/

/-- The slot after the one with the largest SEQ; in an empty ring any slot. -/
def State.pringNext (s : State) : Nat :=
  match s.log.pring with
  | [] => Config.freePick s.free 4000 % 4096
  | e :: es =>
    ((es.foldl (fun a x => if a.2.seq.toNat < x.2.seq.toNat then x else a) e).1 + 1) % 4096

/-- The oldest waiting record goes to the persistent ring, or, with the bucket empty, is counted. -/
def execPersistentRingWrite (s : State) : Ans :=
  .next (
    match s.log.pwait with
    | [] => s
    | r :: rest =>
      let l := { s.log with pwait := rest }
      if s.log.bucket = 0 then { s with log := { l with pdrop := satInc l.pdrop } }
      else
        let ring := SMap.set {} l.pring s.pringNext r
        ({ s with log := { l with bucket := l.bucket - 1, pring := ring } }).tickFree)

def execPdropBucketRefill (s : State) : Ans :=
  .next { s with log := { s.log with bucket := min 64 (s.log.bucket + 1) } }

def execLogRingFail (s : State) : Ans :=
  .next (
    if s.log.mirror || s.pwr.input != .good then s
    else ({ s with log := { s.log with mirror := true } }).event 0xF005 s.uMgmt)

/-- The operating time has reached `t`; it never runs back. -/
def execOptimeCommit (t : BitVec 40) (s : State) : Ans :=
  .next (
    if s.pwr.input != .good || t.toNat < s.log.optime.toNat then s
    else
      let s := { s with log := { s.log with optime := t } }
      s.prsOwn (1040 + ((rotTop s.prs 1040).1 + 1) % 8) (BitVec.ofNat 64 t.toNat))

/-! MGMT_VIO (R526). -/

def execMgmtVioAppear (s : State) : Ans := .next { s with pwr := { s.pwr with mgmtVio := true } }

def execMgmtVioLoss (s : State) : Ans := .next { s with pwr := { s.pwr with mgmtVio := false } }

/-! I3C (R497, R498). -/

def State.setI3c (s : State) (f : I3cState → I3cState) : State := { s with i3c := f s.i3c }

def execI3cSetdasa (d : BitVec 7) (s : State) : Ans :=
  .next (if s.i3cUp then s.setI3c fun x => { x with dyn := some d } else s)

/-- The provisioned ID goes out, and the target takes the address. -/
def execI3cEntdaa (d : BitVec 7) (s : State) : Ans :=
  .next (
    if s.i3cUp then
      (s.emit (.i3c (leBytes 6 (Config.provisionedId s.board.serial).toNat))).setI3c fun x =>
        { x with dyn := some d }
    else s)

def execI3cEnec (s : State) : Ans :=
  .next (if s.i3cUp then s.setI3c fun x => { x with ibi := true } else s)

/-- A private write: 4 bytes set the read address, more are refused with no effect. -/
def execI3cAddressWrite (bytes : List Byte) (s : State) : Ans :=
  .next (
    if !s.i3cUp then s
    else if bytes.length = 4 then s.setI3c fun x => { x with addr := BitVec.ofNat 32 (leNat bytes) }
    else if 4 < bytes.length then s.emit .i3cNack
    else s)

/-- Registers that the I3C port shows. -/
def i3cShows : Reg → Bool
  | .mod _ => true
  | .pwr _ => true
  | .clk _ => true
  | .chtStat => true
  | .chtSel => true
  | .chtUnit => true
  | .prsWord _ _ => true
  | .prsSel => true
  | .prsWear => true
  | .prsCtl => true
  | .log _ => true
  | .sec .status => true
  | .sec (.cert _) => true
  | .ul _ .status => true
  | .pl _ .status => true
  | _ => false

/-- The high half of an RS register's value: its LO half's address gives the value that a read
snapshots. -/
def State.logHigh (s : State) : LogReg → Option Nat
  | .headLo => some (s.logHead / 2 ^ 32 % 2 ^ 16)
  | .oldestLo => some (s.logOldest / 2 ^ 32 % 2 ^ 16)
  | .pfloorLo => some (s.pfloor / 2 ^ 32 % 2 ^ 16)
  | .optimeLo => some (s.log.optime.toNat / 2 ^ 32 % 2 ^ 8)
  | _ => none

def isHigh : LogReg → Bool
  | .headHi => true
  | .oldestHi => true
  | .pfloorHi => true
  | .optimeHi => true
  | _ => false

/-- The word at a 4-byte aligned I3C address, and the state after its snapshot, which goes to I3C's own
shadow. -/
def State.i3cWord (s : State) (a : Nat) : State × Word :=
  if a < 2 ^ 24 then
    match regAt a with
    | none => (s, 0)
    | some (.log r) =>
      if isHigh r then (s, SMap.get 0 s.i3c.shadow a)
      else match s.logHigh r with
        | some h => (s.setI3c fun x => { x with shadow := SMap.set 0 x.shadow (a + 4) (BitVec.ofNat 32 h) },
            s.readLog r)
        | none => (s, s.readLog r)
    | some r => (s, if i3cShows r then s.readReg r else 0)
  else
    let off := a % 2 ^ 28
    match a / 2 ^ 28 with
    | 8 => (s, if off < 32 * 262144 then
        loWord (bAt (SMap.get ({} : LogRec) s.log.fixed (off / 32)).bytes (off % 32) 4) else 0)
    | 9 => (s, if off < varSize then
        loWord (leNat ((List.range 4).map fun k => SMap.get 0 s.log.var (off + k))) else 0)
    | 10 => (s, if off < 32 * 4096 then
        loWord (bAt (SMap.get ({} : LogRec) s.log.pring (off / 32)).bytes (off % 32) 4) else 0)
    | _ => (s, 0)

/-- `n` words from an aligned address on. -/
def i3cWords : Nat → Nat → State → State × List Byte
  | 0, _, s => (s, [])
  | n + 1, a, s =>
    let x := s.i3cWord a
    let y := i3cWords n ((a + 4) % 2 ^ 32) x.1
    (y.1, leBytes 4 x.2.toNat ++ y.2)

/-- A private read of 4 to 256 bytes from the address, which moves on. -/
def execI3cRead (n : Nat) (s : State) : Ans :=
  .next (
    if s.i3cUp && decide (4 ≤ n ∧ n ≤ 256) then
      let a := s.i3c.addr.toNat
      let x := i3cWords ((a % 4 + n + 3) / 4) (a / 4 * 4) s
      (x.1.setI3c fun i => { i with addr := BitVec.ofNat 32 (a + n) }).emit
        (.i3c ((x.2.drop (a % 4)).take n))
    else s)

/-! Host memory (R160, R494, R495). -/

/-- Lines that a response covers. -/
def linesOf (a n : Nat) : List Nat := (List.range ((a + max n 1 - 1) / 64 - a / 64 + 1)).map (a / 64 + ·)

/-- What the adapter answers is what host memory now holds, with its marking; no data = the line as
before. The accesses that read a marked line fail and record it (R160). A response that breaks the
protocol is refused (R494); in quarantine it is held. -/
def State.hostResponse (s : State) (a : Nat) (data : List Byte) (poison : Bool) : State :=
  (linesOf a data.length).foldl (fun s l =>
    s.updTier .host fun m => m.updLine l fun i => { i with poison := poison }) (s.rawWrite .host 0 a data)

/-- Violations of R494 that are counted in UL_VIOL. -/
def ulReasons : List Nat := [0x02, 0x03, 0x04, 0x05, 0x06, 0x07, 0x0F]

def execHostMemoryResponse (via : Agent) (addr : BitVec 56) (data : List Byte) (poison : Bool)
    (reason : BitVec 8) (s : State) : Ans :=
  .next (
    match via with
    | .host u =>
      if !portLive (s.port u.val) then s
      else if reason = 1 then
        (s.updPort u.val fun x => { x with crcFail := satInc x.crcFail }).emit (.nack (uPort u.val) none 1)
      else if ulReasons.contains reason.toNat then s.ulViolation u.val reason.toNat
      else if reason != 0 || (s.port u.val).state == 4 then s
      else s.hostResponse addr.toNat data poison
    | .relay l =>
      if linkRuns (s.link l.val) && reason == 0 then
        s.hostResponse addr.toNat data poison
      else s
    | _ => s)

end Sys2Proof.Machine
end

