-- ==== Sys2Proof/Machine/Regs.lean ====
section
/-! DEFINITION. The rows that are accesses to registers: each writes or reads the register that its rule
names, as any access to that address does (R57 to R61). A row that names one bit of a register sets or
clears that bit in the word it is given. -/

namespace Sys2Proof.Machine

/-- The word with bit `i` set, and with it clear. -/
def withBit (v : Word) (i : Nat) : Word := v ||| BitVec.ofNat 32 (2 ^ i)
def noBit (v : Word) (i : Nat) : Word := v &&& ~~~BitVec.ofNat 32 (2 ^ i)

/-! Queues and event counters (R203 to R210, R218). -/

def execQueueDoorbell (a : Agent) (p : Fin 16) (q : Fin 64) (v : Word) (s : State) : Ans :=
  .next (s.writeAddr a (qBase p.val q.val + 0x14) v)

def execQueueEnable (a : Agent) (p : Fin 16) (q : Fin 64) (v : Word) (s : State) : Ans :=
  .next (s.writeAddr a (qBase p.val q.val + 0x10) (withBit v 0))

def execQueueDisable (a : Agent) (p : Fin 16) (q : Fin 64) (v : Word) (s : State) : Ans :=
  .next (s.writeAddr a (qBase p.val q.val + 0x10) (noBit v 0))

def execParQStop (a : Agent) (p : Fin 16) (q : Fin 64) (v : Word) (s : State) : Ans :=
  .next (s.writeAddr a (qBase p.val q.val + 0x10) (withBit v 14))

def execParQResume (a : Agent) (p : Fin 16) (q : Fin 64) (v : Word) (s : State) : Ans :=
  .next (s.writeAddr a (qBase p.val q.val + 0x10) (withBit v 15))

def execQueueHeadWrite (a : Agent) (p : Fin 16) (q : Fin 64) (v : Word) (s : State) : Ans :=
  .next (s.writeAddr a (qBase p.val q.val + 0x18) v)

def execEvcAdd (a : Agent) (p : Fin 16) (v : Word) (s : State) : Ans :=
  .next (s.writeAddr a (parBase p.val + 0x60C) v)

/-! Translation, Pilot, serving, Soundings (R172, R189, R290, R339). -/

def execXltRootWrite (a : Agent) (p : Fin 16) (r : Fin 3) (v : Word) (s : State) : Ans :=
  .next (s.writeAddr a (parBase p.val + 0x400 + 4 * r.val) v)

def execXltInvalidate (a : Agent) (p : Fin 16) (v : Word) (s : State) : Ans :=
  .next (s.writeAddr a (parBase p.val + 0x414) (withBit v 31))

def execPilotEnable (a : Agent) (p : Fin 16) (v : Word) (s : State) : Ans :=
  .next (s.writeAddr a (parBase p.val + 0x500) (withBit v 0))

def execPilotDisable (a : Agent) (p : Fin 16) (v : Word) (s : State) : Ans :=
  .next (s.writeAddr a (parBase p.val + 0x500) (noBit v 0))

def execGenEnable (a : Agent) (p : Fin 16) (v : Word) (s : State) : Ans :=
  .next (s.writeAddr a (parBase p.val + 0x900) (withBit v 0))

def execGenDisable (a : Agent) (p : Fin 16) (v : Word) (s : State) : Ans :=
  .next (s.writeAddr a (parBase p.val + 0x900) (noBit v 0))

def execGenPark (a : Agent) (p : Fin 16) (v : Word) (s : State) : Ans :=
  .next (s.writeAddr a (parBase p.val + 0x900) (withBit v 1))

def execGenUnpark (a : Agent) (p : Fin 16) (v : Word) (s : State) : Ans :=
  .next (s.writeAddr a (parBase p.val + 0x900) (noBit v 1))

def execGenReqDoorbell (a : Agent) (p : Fin 16) (v : Word) (s : State) : Ans :=
  .next (s.writeAddr a (parBase p.val + 0x90C) v)

def execSndEnable (a : Agent) (p : Fin 16) (v : Word) (s : State) : Ans :=
  .next (s.writeAddr a (parBase p.val + 0xA00) (withBit v 0))

/-! Partitions and resets (R416 to R420, R432, R466, R467). -/

def execPartitionEnable (a : Agent) (p : Fin 16) (v : Word) (s : State) : Ans :=
  .next (s.writeAddr a (parBase p.val) (withBit v 0))

def execPartitionTeardown (a : Agent) (p : Fin 16) (v : Word) (s : State) : Ans :=
  .next (s.writeAddr a (parBase p.val) (noBit v 0))

/-- MOD_RESET with GO. -/
def resetWord (kind target : Nat) (scrub : Bool) : Word :=
  packWord [(0, kind), (2, b2n scrub), (3, target), (31, 1)]

def execCoreReset (a : Agent) (c : Fin 192) (s : State) : Ans :=
  .next (s.writeAddr a 0x210 (resetWord 0 c.val false))

def execClusterReset (a : Agent) (cl : Fin 32) (s : State) : Ans :=
  .next (s.writeAddr a 0x210 (resetWord 1 cl.val false))

def execPartitionReset (a : Agent) (p : Fin 16) (scrub : Bool) (s : State) : Ans :=
  .next (s.writeAddr a 0x210 (resetWord 2 p.val scrub))

def execModuleReset (a : Agent) (s : State) : Ans := .next (s.writeAddr a 0x210 (resetWord 3 0 false))

/-! The security engine (R443, R444). -/

def execPartitionReport (a : Agent) (p : Fin 16) (s : State) : Ans :=
  .next (s.writeAddr a 0x60014 (packWord [(0, 1), (2, p.val), (6, 1)]))

def execModuleReport (a : Agent) (s : State) : Ans :=
  .next (s.writeAddr a 0x60014 (packWord [(0, 2), (6, 1)]))

def execSecRevoke0 (a : Agent) (s : State) : Ans := .next (s.writeAddr a 0x60008 1)

def execSecSvnMinWrite (a : Agent) (v : BitVec 16) (s : State) : Ans :=
  .next (s.writeAddr a 0x60004 (packWord [(16, v.toNat)]))

/-! The persistent store and the Logbook (R503, R505, R515). -/

def execPrsLoWrite (a : Agent) (i : Fin 4096) (v : Word) (s : State) : Ans :=
  .next (s.writeAddr a (0x40000 + 8 * i.val) v)

def execPrsHiWrite (a : Agent) (i : Fin 4096) (v : Word) (s : State) : Ans :=
  .next (s.writeAddr a (0x40004 + 8 * i.val) v)

def execPrsRemapGo (a : Agent) (s : State) : Ans := .next (s.writeAddr a 0x48008 1)

def execLogClr (a : Agent) (s : State) : Ans := .next (s.writeAddr a 0x50010 1)

def execLogPclear (a : Agent) (s : State) : Ans := .next (s.writeAddr a 0x50010 2)

/-! Links and host-link ports (R258, R496). -/

/-- PL_CTL as given: DISABLE takes the link out of service or brings it back. -/
def execPlDisable (a : Agent) (l : Fin 64) (v : Word) (s : State) : Ans :=
  .next (s.writeAddr a (plBase l.val + 4) v)

def execPlRetrain (a : Agent) (l : Fin 64) (s : State) : Ans :=
  .next (s.writeAddr a (plBase l.val + 4) (withBit (s.readPl l.val .ctl) 1))

def execPlQclr (a : Agent) (l : Fin 64) (s : State) : Ans :=
  .next (s.writeAddr a (plBase l.val + 4) (withBit (s.readPl l.val .ctl) 2))

def execUlDisable (a : Agent) (u : Fin 2) (v : Word) (s : State) : Ans :=
  .next (s.writeAddr a (ulBase u.val + 4) v)

def execUlRetrain (a : Agent) (u : Fin 2) (s : State) : Ans :=
  .next (s.writeAddr a (ulBase u.val + 4) (withBit (s.readUl u.val .ctl) 1))

def execUlQclr (a : Agent) (u : Fin 2) (s : State) : Ans :=
  .next (s.writeAddr a (ulBase u.val + 4) (withBit (s.readUl u.val .ctl) 2))

/-! Reads with a snapshot (R17). -/

def execCoreCyclesRead (a : Agent) (c : Fin 192) (s : State) : Ans :=
  .next (s.readAddr a (coreBase c.val + 0x18))

def execEvcValRead (a : Agent) (p : Fin 16) (s : State) : Ans := .next (s.readAddr a (parBase p.val + 0x604))

def execGenStepRead (a : Agent) (p : Fin 16) (s : State) : Ans := .next (s.readAddr a (parBase p.val + 0x92C))

def execColLastRead (a : Agent) (p : Fin 16) (s : State) : Ans := .next (s.readAddr a (parBase p.val + 0x818))

def execLoomBytesRead (a : Agent) (t : Fin 4) (s : State) : Ans := .next (s.readAddr a (loomBase t.val + 4))

def execSecLeafRead (a : Agent) (s : State) : Ans := .next (s.readAddr a 0x6000C)

/-- LOG_HEAD_SEQ, LOG_OLDEST_SEQ, LOG_P_FLOOR, LOG_OPTIME. -/
def logValueAddr (r : Nat) : Nat := [0x50000, 0x50008, 0x50018, 0x50028].getD r 0

def execLogValueRead (a : Agent) (r : Fin 4) (s : State) : Ans := .next (s.readAddr a (logValueAddr r.val))

/-! Any address (R57, R60). -/

/-- A read (no value) or a write of a reserved address, or of one out of the agent's reach. -/
def execReservedAddressAccess (a : Agent) (addr : BitVec 24) (v : Option Word) (s : State) : Ans :=
  .next (
    if (regAt addr.toNat).isSome && s.agentReaches a addr.toNat then s
    else match v with
      | some w => s.writeAddr a addr.toNat w
      | none => s.readAddr a addr.toNat)

def execRegisterWrite (a : Agent) (addr : BitVec 24) (v : Word) (s : State) : Ans :=
  .next (s.writeAddr a addr.toNat v)

end Sys2Proof.Machine
end

