-- ==== Sys2Proof/Machine/Dispatch.lean ====
section
/-! DEFINITION. One arm per command: one direct call of its meaning. -/

namespace Sys2Proof.Machine

def exec (i : Instr) (s : State) : Host.Outcome State Fault Refusal :=
  match i with
  | .kernel p q slot => Sys2Proof.Machine.execKernel p q slot s
  | .copy p q slot => Sys2Proof.Machine.execCopy p q slot s
  | .migrate p q slot => Sys2Proof.Machine.execMigrate p q slot s
  | .fill p q slot => Sys2Proof.Machine.execFill p q slot s
  | .scrub p q slot => Sys2Proof.Machine.execScrub p q slot s
  | .attend p q slot => Sys2Proof.Machine.execAttend p q slot s
  | .sample p q slot => Sys2Proof.Machine.execSample p q slot s
  | .verifyHeads p q slot => Sys2Proof.Machine.execVerifyHeads p q slot s
  | .update p q slot => Sys2Proof.Machine.execUpdate p q slot s
  | .soundRead p q slot => Sys2Proof.Machine.execSoundRead p q slot s
  | .allReduce p q slot => Sys2Proof.Machine.execAllReduce p q slot s
  | .reduceScatter p q slot => Sys2Proof.Machine.execReduceScatter p q slot s
  | .allGather p q slot => Sys2Proof.Machine.execAllGather p q slot s
  | .reduce p q slot => Sys2Proof.Machine.execReduce p q slot s
  | .broadcast p q slot => Sys2Proof.Machine.execBroadcast p q slot s
  | .allToAll p q slot => Sys2Proof.Machine.execAllToAll p q slot s
  | .form p q slot => Sys2Proof.Machine.execForm p q slot s
  | .reform p q slot => Sys2Proof.Machine.execReform p q slot s
  | .dissolve p q slot => Sys2Proof.Machine.execDissolve p q slot s
  | .loomMove p q slot => Sys2Proof.Machine.execLoomMove p q slot s
  | .load p q slot => Sys2Proof.Machine.execLoad p q slot s
  | .adopt p q slot => Sys2Proof.Machine.execAdopt p q slot s
  | .retire p q slot => Sys2Proof.Machine.execRetire p q slot s
  | .fence p q slot => Sys2Proof.Machine.execFence p q slot s
  | .signalAdd p q slot => Sys2Proof.Machine.execSignalAdd p q slot s
  | .signalSet p q slot => Sys2Proof.Machine.execSignalSet p q slot s
  | .wait p q slot => Sys2Proof.Machine.execWait p q slot s
  | .mark p q slot => Sys2Proof.Machine.execMark p q slot s
  | .abortCommand p q slot => Sys2Proof.Machine.execAbortCommand p q slot s
  | .abortQueue p q slot => Sys2Proof.Machine.execAbortQueue p q slot s
  | .abortCluster p q slot => Sys2Proof.Machine.execAbortCluster p q slot s
  | .abortPartition p q slot => Sys2Proof.Machine.execAbortPartition p q slot s
  | .nop p q slot => Sys2Proof.Machine.execNop p q slot s
  | .descriptorFetch p q => Sys2Proof.Machine.execDescriptorFetch p q s
  | .commandDispatch p => Sys2Proof.Machine.execCommandDispatch p s
  | .commandComplete p q slot => Sys2Proof.Machine.execCommandComplete p q slot s
  | .queueDoorbell a p q v => Sys2Proof.Machine.execQueueDoorbell a p q v s
  | .queueEnable a p q v => Sys2Proof.Machine.execQueueEnable a p q v s
  | .queueDisable a p q v => Sys2Proof.Machine.execQueueDisable a p q v s
  | .parQStop a p q v => Sys2Proof.Machine.execParQStop a p q v s
  | .parQResume a p q v => Sys2Proof.Machine.execParQResume a p q v s
  | .queueHeadWrite a p q v => Sys2Proof.Machine.execQueueHeadWrite a p q v s
  | .evcAdd a p v => Sys2Proof.Machine.execEvcAdd a p v s
  | .xltRootWrite a p r v => Sys2Proof.Machine.execXltRootWrite a p r v s
  | .xltInvalidate a p v => Sys2Proof.Machine.execXltInvalidate a p v s
  | .invalidationDone p => Sys2Proof.Machine.execInvalidationDone p s
  | .migrationCopyDone p q slot => Sys2Proof.Machine.execMigrationCopyDone p q slot s
  | .pilotEnable a p v => Sys2Proof.Machine.execPilotEnable a p v s
  | .pilotDisable a p v => Sys2Proof.Machine.execPilotDisable a p v s
  | .pilotOccurrence p => Sys2Proof.Machine.execPilotOccurrence p s
  | .pilotStageDone p n => Sys2Proof.Machine.execPilotStageDone p n s
  | .patrolScrub u line err latent last => Sys2Proof.Machine.execPatrolScrub u line err latent last s
  | .hostMemoryResponse via addr data poison reason => Sys2Proof.Machine.execHostMemoryResponse via addr data poison reason s
  | .genEnable a p v => Sys2Proof.Machine.execGenEnable a p v s
  | .genDisable a p v => Sys2Proof.Machine.execGenDisable a p v s
  | .genPark a p v => Sys2Proof.Machine.execGenPark a p v s
  | .genUnpark a p v => Sys2Proof.Machine.execGenUnpark a p v s
  | .genReqDoorbell a p v => Sys2Proof.Machine.execGenReqDoorbell a p v s
  | .submit p => Sys2Proof.Machine.execSubmit p s
  | .cancel p => Sys2Proof.Machine.execCancel p s
  | .pause p => Sys2Proof.Machine.execPause p s
  | .resume p => Sys2Proof.Machine.execResume p s
  | .genStepStart p late => Sys2Proof.Machine.execGenStepStart p late s
  | .genStepCommit p => Sys2Proof.Machine.execGenStepCommit p s
  | .pauseTimeout p id => Sys2Proof.Machine.execPauseTimeout p id s
  | .sndEnable a p v => Sys2Proof.Machine.execSndEnable a p v s
  | .soundingsRecord c => Sys2Proof.Machine.execSoundingsRecord c s
  | .partitionEnable a p v => Sys2Proof.Machine.execPartitionEnable a p v s
  | .partitionTeardown a p v => Sys2Proof.Machine.execPartitionTeardown a p v s
  | .coreReset a c => Sys2Proof.Machine.execCoreReset a c s
  | .clusterReset a cl => Sys2Proof.Machine.execClusterReset a cl s
  | .partitionReset a p scrub => Sys2Proof.Machine.execPartitionReset a p scrub s
  | .moduleReset a => Sys2Proof.Machine.execModuleReset a s
  | .secTurn => Sys2Proof.Machine.execSecTurn s
  | .partitionReport a p => Sys2Proof.Machine.execPartitionReport a p s
  | .moduleReport a => Sys2Proof.Machine.execModuleReport a s
  | .secRevoke0 a => Sys2Proof.Machine.execSecRevoke0 a s
  | .secSvnMinWrite a v => Sys2Proof.Machine.execSecSvnMinWrite a v s
  | .powerGood => Sys2Proof.Machine.execPowerGood s
  | .s1 via lanes => Sys2Proof.Machine.execS1 via lanes s
  | .s2 => Sys2Proof.Machine.execS2 s
  | .s3 bridges bad => Sys2Proof.Machine.execS3 bridges bad s
  | .s4 ports channels => Sys2Proof.Machine.execS4 ports channels s
  | .s5 rows => Sys2Proof.Machine.execS5 rows s
  | .s6 bad => Sys2Proof.Machine.execS6 bad s
  | .s7 ppr => Sys2Proof.Machine.execS7 ppr s
  | .s8 links => Sys2Proof.Machine.execS8 links s
  | .s9 => Sys2Proof.Machine.execS9 s
  | .s10 => Sys2Proof.Machine.execS10 s
  | .buStepDone => Sys2Proof.Machine.execBuStepDone s
  | .mgmtOffer l coord sizes => Sys2Proof.Machine.execMgmtOffer l coord sizes s
  | .descriptorFallbackTimeout => Sys2Proof.Machine.execDescriptorFallbackTimeout s
  | .prsLoWrite a n v => Sys2Proof.Machine.execPrsLoWrite a n v s
  | .prsHiWrite a n v => Sys2Proof.Machine.execPrsHiWrite a n v s
  | .prsRemapGo a => Sys2Proof.Machine.execPrsRemapGo a s
  | .logClr a => Sys2Proof.Machine.execLogClr a s
  | .logPclear a => Sys2Proof.Machine.execLogPclear a s
  | .persistentRingWrite => Sys2Proof.Machine.execPersistentRingWrite s
  | .pdropBucketRefill => Sys2Proof.Machine.execPdropBucketRefill s
  | .logRingFail => Sys2Proof.Machine.execLogRingFail s
  | .optimeCommit t => Sys2Proof.Machine.execOptimeCommit t s
  | .i3cAddressWrite bytes => Sys2Proof.Machine.execI3cAddressWrite bytes s
  | .i3cRead n => Sys2Proof.Machine.execI3cRead n s
  | .i3cSetdasa d => Sys2Proof.Machine.execI3cSetdasa d s
  | .i3cEntdaa d => Sys2Proof.Machine.execI3cEntdaa d s
  | .i3cEnec => Sys2Proof.Machine.execI3cEnec s
  | .mgmtVioAppear => Sys2Proof.Machine.execMgmtVioAppear s
  | .inputSample vin iin => Sys2Proof.Machine.execInputSample vin iin s
  | .inputLowTimeout => Sys2Proof.Machine.execInputLowTimeout s
  | .inputRecoveryTimeout => Sys2Proof.Machine.execInputRecoveryTimeout s
  | .clockRestoreTick => Sys2Proof.Machine.execClockRestoreTick s
  | .brownoutTimeout => Sys2Proof.Machine.execBrownoutTimeout s
  | .powerLoss => Sys2Proof.Machine.execPowerLoss s
  | .phaseFault rail phase => Sys2Proof.Machine.execPhaseFault rail phase s
  | .railFault rail phase => Sys2Proof.Machine.execRailFault rail phase s
  | .localDroop cl => Sys2Proof.Machine.execLocalDroop cl s
  | .localDroopRelease cl => Sys2Proof.Machine.execLocalDroopRelease cl s
  | .powerWindow watts => Sys2Proof.Machine.execPowerWindow watts s
  | .stretchStepTick => Sys2Proof.Machine.execStretchStepTick s
  | .thermalSample isl t => Sys2Proof.Machine.execThermalSample isl t s
  | .clusterIdleTimeout cl => Sys2Proof.Machine.execClusterIdleTimeout cl s
  | .memoryIdleTimeout u => Sys2Proof.Machine.execMemoryIdleTimeout u s
  | .wakeRequest isl => Sys2Proof.Machine.execWakeRequest isl s
  | .wakeSlot t => Sys2Proof.Machine.execWakeSlot t s
  | .mgmtWatchdog => Sys2Proof.Machine.execMgmtWatchdog s
  | .helmHeartbeatTimeout h => Sys2Proof.Machine.execHelmHeartbeatTimeout h s
  | .coreHwFault c => Sys2Proof.Machine.execCoreHwFault c s
  | .bridgeFail b => Sys2Proof.Machine.execBridgeFail b s
  | .secEngineFail => Sys2Proof.Machine.execSecEngineFail s
  | .unitFail u => Sys2Proof.Machine.execUnitFail u s
  | .cableUnmate k => Sys2Proof.Machine.execCableUnmate k s
  | .dataPacket l body crc credit => Sys2Proof.Machine.execDataPacket l body crc credit s
  | .ackNack l seq nack => Sys2Proof.Machine.execAckNack l seq nack s
  | .ackTimeout l => Sys2Proof.Machine.execAckTimeout l s
  | .linkRetrainDone l lanes ok x => Sys2Proof.Machine.execLinkRetrainDone l lanes ok x s
  | .laneFecWindow l lane corr spares => Sys2Proof.Machine.execLaneFecWindow l lane corr spares s
  | .linkStateExchange coord mask => Sys2Proof.Machine.execLinkStateExchange coord mask s
  | .linkControl l out disabled => Sys2Proof.Machine.execLinkControl l out disabled s
  | .plDisable a l v => Sys2Proof.Machine.execPlDisable a l v s
  | .plRetrain a l => Sys2Proof.Machine.execPlRetrain a l s
  | .plQclr a l => Sys2Proof.Machine.execPlQclr a l s
  | .ulDisable a u v => Sys2Proof.Machine.execUlDisable a u v s
  | .ulRetrain a u => Sys2Proof.Machine.execUlRetrain a u s
  | .ulQclr a u => Sys2Proof.Machine.execUlQclr a u s
  | .collectiveAdmit p => Sys2Proof.Machine.execCollectiveAdmit p s
  | .collectiveHeader p g ord h => Sys2Proof.Machine.execCollectiveHeader p g ord h s
  | .exponentBatch p g ord batch elocs => Sys2Proof.Machine.execExponentBatch p g ord batch elocs s
  | .collectiveChunk p g ord chunk data => Sys2Proof.Machine.execCollectiveChunk p g ord chunk data s
  | .collectiveStallTimeout p g ord => Sys2Proof.Machine.execCollectiveStallTimeout p g ord s
  | .headerTimeout p g ord => Sys2Proof.Machine.execHeaderTimeout p g ord s
  | .abandon p g ord rank => Sys2Proof.Machine.execAbandon p g ord rank s
  | .leave g rank => Sys2Proof.Machine.execLeave g rank s
  | .listHash g coord hash => Sys2Proof.Machine.execListHash g coord hash s
  | .groupFormTimeout p q slot => Sys2Proof.Machine.execGroupFormTimeout p q slot s
  | .keepAlive p g ord rank => Sys2Proof.Machine.execKeepAlive p g ord rank s
  | .loadChunk p g ord shard chunk bytes crc => Sys2Proof.Machine.execLoadChunk p g ord shard chunk bytes crc s
  | .loadEnd p g ord => Sys2Proof.Machine.execLoadEnd p g ord s
  | .loadRerequest p g ord shard chunk => Sys2Proof.Machine.execLoadRerequest p g ord shard chunk s
  | .loadDeadline p g ord => Sys2Proof.Machine.execLoadDeadline p g ord s
  | .loadFail p g ord rank status shard => Sys2Proof.Machine.execLoadFail p g ord rank status shard s
  | .loadSuccess p g ord rank => Sys2Proof.Machine.execLoadSuccess p g ord rank s
  | .recoveryFetch p set shard chunk coord => Sys2Proof.Machine.execRecoveryFetch p set shard chunk coord s
  | .recoveryAnswer p set shard chunk bytes => Sys2Proof.Machine.execRecoveryAnswer p set shard chunk bytes s
  | .replicaTimeout p set shard chunk => Sys2Proof.Machine.execReplicaTimeout p set shard chunk s
  | .recoveryTimeout p set shard chunk => Sys2Proof.Machine.execRecoveryTimeout p set shard chunk s
  | .coreNop c w => Sys2Proof.Machine.execCoreNop c w s
  | .coreEnd c w => Sys2Proof.Machine.execCoreEnd c w s
  | .jmp c w => Sys2Proof.Machine.execJmp c w s
  | .br c w => Sys2Proof.Machine.execBr c w s
  | .loop c w => Sys2Proof.Machine.execLoop c w s
  | .li c w => Sys2Proof.Machine.execLi c w s
  | .lih c w => Sys2Proof.Machine.execLih c w s
  | .alu c w => Sys2Proof.Machine.execAlu c w s
  | .alui c w => Sys2Proof.Machine.execAlui c w s
  | .sys c w => Sys2Proof.Machine.execSys c w s
  | .arg c w => Sys2Proof.Machine.execArg c w s
  | .dmain c w => Sys2Proof.Machine.execDmain c w s
  | .dmaout c w => Sys2Proof.Machine.execDmaout c w s
  | .dmapeer c w => Sys2Proof.Machine.execDmapeer c w s
  | .dmawait c w => Sys2Proof.Machine.execDmawait c w s
  | .dmaComplete c => Sys2Proof.Machine.execDmaComplete c s
  | .tld c w => Sys2Proof.Machine.execTld c w s
  | .tst c w => Sys2Proof.Machine.execTst c w s
  | .sld c w => Sys2Proof.Machine.execSld c w s
  | .sst c w => Sys2Proof.Machine.execSst c w s
  | .amm c w => Sys2Proof.Machine.execAmm c w s
  | .afdset c w => Sys2Proof.Machine.execAfdset c w s
  | .adrain c w => Sys2Proof.Machine.execAdrain c w s
  | .vadd c w => Sys2Proof.Machine.execVadd c w s
  | .vsub c w => Sys2Proof.Machine.execVsub c w s
  | .vmul c w => Sys2Proof.Machine.execVmul c w s
  | .vfma c w => Sys2Proof.Machine.execVfma c w s
  | .vmin c w => Sys2Proof.Machine.execVmin c w s
  | .vmax c w => Sys2Proof.Machine.execVmax c w s
  | .vcmp c w => Sys2Proof.Machine.execVcmp c w s
  | .vsel c w => Sys2Proof.Machine.execVsel c w s
  | .vmov c w => Sys2Proof.Machine.execVmov c w s
  | .vexp2 c w => Sys2Proof.Machine.execVexp2 c w s
  | .vlog2 c w => Sys2Proof.Machine.execVlog2 c w s
  | .vrsqrt c w => Sys2Proof.Machine.execVrsqrt c w s
  | .vrcp c w => Sys2Proof.Machine.execVrcp c w s
  | .vtanh c w => Sys2Proof.Machine.execVtanh c w s
  | .vsig c w => Sys2Proof.Machine.execVsig c w s
  | .vgelu c w => Sys2Proof.Machine.execVgelu c w s
  | .rsum c w => Sys2Proof.Machine.execRsum c w s
  | .rmax c w => Sys2Proof.Machine.execRmax c w s
  | .rmin c w => Sys2Proof.Machine.execRmin c w s
  | .badd c w => Sys2Proof.Machine.execBadd c w s
  | .bsub c w => Sys2Proof.Machine.execBsub c w s
  | .bmul c w => Sys2Proof.Machine.execBmul c w s
  | .bmax c w => Sys2Proof.Machine.execBmax c w s
  | .bmin c w => Sys2Proof.Machine.execBmin c w s
  | .vld c w => Sys2Proof.Machine.execVld c w s
  | .vst c w => Sys2Proof.Machine.execVst c w s
  | .vvop c w => Sys2Proof.Machine.execVvop c w s
  | .vext c w => Sys2Proof.Machine.execVext c w s
  | .vins c w => Sys2Proof.Machine.execVins c w s
  | .cvst c w => Sys2Proof.Machine.execCvst c w s
  | .cvld c w => Sys2Proof.Machine.execCvld c w s
  | .cvt c w => Sys2Proof.Machine.execCvt c w s
  | .cvctx c w => Sys2Proof.Machine.execCvctx c w s
  | .stbind c w => Sys2Proof.Machine.execStbind c w s
  | .stacc c w => Sys2Proof.Machine.execStacc c w s
  | .stemit c w => Sys2Proof.Machine.execStemit c w s
  | .stlp c w => Sys2Proof.Machine.execStlp c w s
  | .coreFence c w => Sys2Proof.Machine.execCoreFence c w s
  | .kbar c w => Sys2Proof.Machine.execKbar c w s
  | .evinc c w => Sys2Proof.Machine.execEvinc c w s
  | .evwait c w => Sys2Proof.Machine.execEvwait c w s
  | .crpost c w => Sys2Proof.Machine.execCrpost c w s
  | .crwait c w => Sys2Proof.Machine.execCrwait c w s
  | .instructionComplete c u => Sys2Proof.Machine.execInstructionComplete c u s
  | .coreCyclesRead a c => Sys2Proof.Machine.execCoreCyclesRead a c s
  | .evcValRead a p => Sys2Proof.Machine.execEvcValRead a p s
  | .genStepRead a p => Sys2Proof.Machine.execGenStepRead a p s
  | .colLastRead a p => Sys2Proof.Machine.execColLastRead a p s
  | .loomBytesRead a t => Sys2Proof.Machine.execLoomBytesRead a t s
  | .secLeafRead a => Sys2Proof.Machine.execSecLeafRead a s
  | .logValueRead a r => Sys2Proof.Machine.execLogValueRead a r s
  | .reservedAddressAccess a addr v => Sys2Proof.Machine.execReservedAddressAccess a addr v s
  | .registerWrite a addr v => Sys2Proof.Machine.execRegisterWrite a addr v s
  | .partnerLinkTraining t => Sys2Proof.Machine.execPartnerLinkTraining t s
  | .resetEnd k target => Sys2Proof.Machine.execResetEnd k target s
  | .mgmtVioLoss => Sys2Proof.Machine.execMgmtVioLoss s
  | .alwaysOnRailUp => Sys2Proof.Machine.execAlwaysOnRailUp s

end Sys2Proof.Machine
end

