-- ==== Sys2Proof/Machine/Step.lean ====
section
/-! DEFINITION. One step: the command at the front of the queue of waiting commands. -/

namespace Sys2Proof.Machine

/-- The state in which a command runs: the queue holds what is left after it. -/
def State.withQueue (s : State) (cs : List Instr) : State := { s with pending := cs }

/-- Takes the command at the front and runs it with the rest of the queue; with none the block idles
(log entry 33). -/
def step (s : State) : Host.Outcome State Fault Refusal :=
  match s.pending with
  | [] => .next s
  | c :: cs => exec c (s.withQueue cs)

/-- The command that a table word spells, at the front of the queue; the state as it is where the word
spells none. -/
def State.withFetchWord (s : State) (nbits w : Nat) : State :=
  match decodeTableWord nbits w with
  | some c => s.withQueue (c :: s.pending)
  | none => s

end Sys2Proof.Machine
end

