-- ==== Sys2Proof/Safety.lean ====
section
/-! DEFINITION. What a safe run keeps: the invariant of the memories, and what a command may do to the
state as a whole, in the terms that the statements use. -/

namespace Sys2Proof

/-- The memory of a tier is in its canonical form: addresses strictly rising, and no byte listed that
equals what an unlisted address holds. -/
def TierMem.wf (m : TierMem) : Bool := SMap.wf unlistedByte m.bytes

def MemState.wf (m : MemState) : Bool := m.bd.wf && m.lp.wf && m.host.wf

end Sys2Proof

namespace Sys2Proof.Machine

/-- The invariant of every step: the three memories are canonical. -/
def State.memWf (s : State) : Bool := s.mem.wf

/-- What every command keeps: it leaves the queue of waiting commands and the inputs from the board
alone, takes back nothing that has gone out, never counts its free values back, and leaves canonical
memories canonical. -/
structure Kept (s t : State) : Prop where
  pending : t.pending = s.pending
  board : t.board = s.board
  free : s.free ≤ t.free
  out : s.out <+: t.out
  mem : s.memWf = true → t.memWf = true

/-! Where a core's instruction runs with its own effect. -/

/-- Core `c` stands at word `w` of a kernel that runs, its clock up, and `w` is the instruction of
opcode `op` with no bit outside `mask` set (R137, R142, R144). -/
def State.standsAt (s : State) (c : Nat) (w : Dword) (op : Nat) (mask : Dword) : Bool :=
  let x := s.core c
  let pc := x.regs.pc.toNat
  (s.kernelOf c).isSome && x.regs.state == 1 && s.awake (islandOfCluster (clusterOf c))
  && decide (pc < x.count) && SMap.get 0 x.ibuf pc == w && iOp w == op
  && w &&& ~~~(mask ||| bitsMask [(63, 56)]) == 0

/-- No uncompleted instruction holds the scalar registers back (R138); D0 never is. -/
def State.regsFree (s : State) (c : Nat) (rd wr : List Nat) : Bool :=
  !regBusy (s.core c) (rd.filter (· != 0)) (wr.filter (· != 0))

/-- The unit's queue has a place, and the scratchpad words of the ranges hold neither a mark nor an
error (R124, R137). -/
def State.unitFree (s : State) (c unit : Nat) (rs : List (Nat × Nat)) : Bool :=
  let x := s.core c
  decide ((unitQueue x unit).length < 16)
  && rs.all fun r => (wordsOf r.1 r.2).all fun k => SMap.get 0 x.err k == 0 && !scrPoisoned x k

/-- `t` with core `c` gone past the instruction at which it stands in `s` (R142). -/
def State.wentPast (s : State) (c : Nat) (t : State) : State :=
  t.updCore c (corePast (s.core c).regs.pc.toNat)

/-- The same for an instruction that stays in a unit's queue until it completes (R137). -/
def State.queued (s : State) (c unit : Nat) (e : UEntry) (t : State) : State :=
  s.wentPast c (t.updCore c (corePush unit e))

/-! Where a register row has its own effect. -/

/-- The agent can make the access now, and its reach holds the address (R61). -/
def State.hasAccess (s : State) (g : Agent) (a : Nat) : Bool := s.agentLive g && s.agentReaches g a

/-- The partition's registers take writes: it is enabled and no partition reset runs (R53, R416). -/
def State.parOpen (s : State) (p : Nat) : Bool := s.enabled p && !(s.part p).resetting

end Sys2Proof.Machine
end

