-- ==== Sys2Proof/Certificates/Slice0/Obligations.lean ====
section
/-! DEFINITION. The statements about this machine. Where one names a state after a command, everything
that it does not name is unchanged: the state is written as the one before with the named parts
replaced. -/

set_option linter.unusedVariables false

open Sys2Proof Sys2Proof.Machine

/-! The machine as a whole. -/

/-- A step takes the command at the front of the queue and runs it on the state with the queue's rest;
with none waiting it changes nothing (the model's choice, log entry 33). -/
def Obligations.StepTakesTheFront : Prop :=
  ∀ (s : State),
    (∀ (c : Instr) (rest : List Instr), step (s.withQueue (c :: rest)) = exec c (s.withQueue rest)) ∧
    (∀ c rest, s.pending = c :: rest → step s = exec c (s.withQueue rest)) ∧
    (s.pending = [] → step s = .next s)

/-- After a module reset nothing waits, the memories are canonical, no partition is enabled and no core
runs, power good is not reached and no bring-up step has completed (R452), the fields hold the reset
values that the spec's tables give (R452, R467, R486, R501, R515); that power good is still awaited is
the model's choice (log entry 27). -/
def Obligations.ResetState : Prop :=
  let s := State.reset
  s.pending = [] ∧ s.memWf = true ∧ s.pwr.input = .standby ∧
  s.bu.done = 0xF ∧ s.bu.run = 0 ∧ s.bu.busy = true ∧ s.bu.failed = false ∧ s.bu.ready = false ∧
  s.pwr.capW = 3600 ∧ s.pwr.idleUs = 20 ∧ s.pwr.cause = 0 ∧ s.rst.running = [] ∧ s.rst.err = 0 ∧
  s.log.bucket = 64 ∧ s.out = [] ∧
  (∀ p, s.enabled p = false ∧ (s.part p).cmds = [] ∧
    ∀ q, ((s.part p).queue q).en = false ∧ ((s.part p).queue q).state = 0) ∧
  (∀ c, (s.core c).regs.state = 0 ∧ s.kernelOf c = none) ∧
  (∀ l, linkRuns (s.link l) = false) ∧ (∀ u, portLive (s.port u) = false) ∧
  (∀ g, (s.group g).inUse = false) ∧ (∀ a : Agent, s.agentLive a = false)

/-- Every command completes in every state, and keeps what every command keeps: the queue and the
board's inputs are not touched, nothing that has gone out is taken back, and canonical memories stay
canonical. -/
def Obligations.EveryCommandCompletes : Prop :=
  ∀ (c : Instr) (s : State), ∃ t, exec c s = .next t ∧ Kept s t

/-- The memories stay canonical over every step, and the queue loses its front and nothing else. -/
def Obligations.StepKeepsMemoriesCanonical : Prop :=
  ∀ (s t : State), s.memWf = true → step s = .next t →
    t.memWf = true ∧ t.pending = s.pending.tail ∧ t.board = s.board ∧ s.out <+: t.out

/-- A tier's bytes: what is written is read, every other byte reads as before, the lines' marks are not
touched, the form stays canonical, and canonical memories that read alike are equal data. -/
def Obligations.MemoryReadAfterWrite : Prop :=
  (∀ (m : TierMem) (a : Nat) (bs : List Byte),
    (∀ x, (m.setBytes a bs).byte x =
      if a ≤ x ∧ x < a + bs.length then bs.getD (x - a) 0 else m.byte x) ∧
    (m.setBytes a bs).lines = m.lines ∧ (m.setBytes a bs).gone = m.gone ∧
    (m.wf = true → (m.setBytes a bs).wf = true)) ∧
  (∀ m n : TierMem, m.wf = true → n.wf = true → (∀ x, m.byte x = n.byte x) → m.bytes = n.bytes) ∧
  (∀ (s : State) (t : Tier) (key a : Nat) (bs : List Byte),
    (∀ i, i < bs.length → (s.tier t).withdrawn ((a + i) / 64) = false ∧
      ((s.tier t).line ((a + i) / 64)).key = key) →
    let u := s.rawWrite t key a bs
    u.rawRead t key a bs.length = bs ∧
    (∀ x, (u.tier t).byte x =
      if a ≤ x ∧ x < a + bs.length then bs.getD (x - a) 0 else (s.tier t).byte x) ∧
    (∀ r, r ≠ t → u.tier r = s.tier r))

/-- Stores to a scratchpad (TST, SST, VST, CVST and the DMAs go through them): with no uncompleted reader
of another unit, no other core changes, every byte outside the stored runs reads as before, and the
registers stay; a run whose words hold no mark and no error, and that no other unit is writing, then
holds what was stored. -/
def Obligations.ScratchpadStoresFrame : Prop :=
  ∀ (s : State) (c unit me : Nat) (runs : List (Nat × List Byte)),
    s.readersOf c unit (runs.map fun r => (r.1, r.2.length)) = [] →
    let t := s.scrStore c unit runs me
    (∀ k, k ≠ c → t.core k = s.core k) ∧
    (∀ a, (∀ r ∈ runs, a < r.1 ∨ r.1 + r.2.length ≤ a) → scrByte (t.core c) a = scrByte (s.core c) a) ∧
    (t.core c).d = (s.core c).d ∧ (t.core c).x = (s.core c).x ∧ (t.core c).v = (s.core c).v ∧
    (t.core c).banks = (s.core c).banks ∧ (t.core c).regs.pc = (s.core c).regs.pc ∧
    t.parts = s.parts ∧ t.mem = s.mem ∧
    (∀ a bs, runs = [(a, bs)] →
      (∀ k ∈ wordsOf a bs.length, SMap.get 0 (s.core c).err k = 0 ∧ scrPoisoned (s.core c) k = false) →
      ((s.foreignWrites c unit me).any fun w => meets w (a, bs.length)) = false →
      ∀ i, i < bs.length → scrByte (t.core c) (a + i) = bs.getD i 0)

/-- Every instruction of a core: constructor, opcode and the bits that R144 assigns. -/
def coreRows : List ((Fin 192 → Dword → Instr) × Nat × Dword) :=
  [(.coreNop, 0x00, 0), (.coreEnd, 0x01, 0), (.jmp, 0x02, bitsMask [(15, 0)]),
    (.br, 0x03, bitsMask [(55, 43), (15, 0)]), (.loop, 0x04, bitsMask [(52, 32), (15, 0)]),
    (.li, 0x08, bitsMask [(52, 0)]), (.lih, 0x09, bitsMask [(52, 48), (15, 0)]),
    (.alu, 0x0A, bitsMask [(55, 37)]), (.alui, 0x0B, bitsMask [(55, 42), (31, 0)]),
    (.sys, 0x0C, bitsMask [(52, 48), (7, 0)]), (.arg, 0x0D, bitsMask [(52, 48), (7, 0)])] ++
  [(.dmain, 0x10, bitsMask [(52, 38), (3, 0)]), (.dmaout, 0x11, bitsMask [(52, 38), (3, 0)]),
    (.dmapeer, 0x12, bitsMask [(52, 33), (3, 0)]), (.dmawait, 0x13, bitsMask [(15, 0)]),
    (.tld, 0x14, bitsMask [(55, 28)]), (.tst, 0x15, bitsMask [(55, 28)]),
    (.sld, 0x16, bitsMask [(52, 43), (31, 0)]), (.sst, 0x17, bitsMask [(52, 43), (31, 0)]),
    (.amm, 0x20, bitsMask [(55, 53), (51, 28)]), (.afdset, 0x21, bitsMask [(55, 9)]),
    (.adrain, 0x22, bitsMask [(55, 48)])] ++
  ([(Instr.vadd, 0x30), (.vsub, 0x31), (.vmul, 0x32), (.vfma, 0x33), (.vmin, 0x34), (.vmax, 0x35),
    (.vcmp, 0x36), (.vsel, 0x37), (.vmov, 0x38), (.vexp2, 0x39), (.vlog2, 0x3A), (.vrsqrt, 0x3B),
    (.vrcp, 0x3C), (.vtanh, 0x3D), (.vsig, 0x3E), (.vgelu, 0x3F)].map fun r =>
      (r.1, r.2, bitsMask [(55, 30)])) ++
  ([(Instr.rsum, 0x40), (.rmax, 0x41), (.rmin, 0x42), (.vext, 0x4C), (.vins, 0x4D)].map fun r =>
      (r.1, r.2, bitsMask [(55, 48), (43, 37)])) ++
  ([(Instr.badd, 0x44), (.bsub, 0x45), (.bmul, 0x46), (.bmax, 0x47), (.bmin, 0x48)].map fun r =>
      (r.1, r.2, bitsMask [(55, 44)])) ++
  [(.vld, 0x49, bitsMask [(55, 52), (47, 43)]), (.vst, 0x4A, bitsMask [(54, 52), (47, 43)]),
    (.vvop, 0x4B, bitsMask [(54, 30)]), (.cvst, 0x50, bitsMask [(51, 4)]),
    (.cvld, 0x51, bitsMask [(51, 33), (27, 5)]), (.cvt, 0x52, bitsMask [(55, 37), (27, 8)]),
    (.cvctx, 0x53, bitsMask [(52, 38), (16, 10), (2, 0)])] ++
  [(.stbind, 0x60, bitsMask [(52, 48), (2, 0)]), (.stacc, 0x61, bitsMask [(51, 48), (2, 0)]),
    (.stemit, 0x62, bitsMask [(2, 0)]), (.stlp, 0x63, bitsMask [(54, 43)]),
    (.coreFence, 0x70, bitsMask [(3, 0)]), (.kbar, 0x71, bitsMask [(3, 0)]),
    (.evinc, 0x72, bitsMask [(11, 0)]), (.evwait, 0x73, bitsMask [(52, 48), (11, 0)]),
    (.crpost, 0x74, bitsMask [(52, 32), (3, 0)]), (.crwait, 0x75, bitsMask [(47, 32), (3, 0)])]

/-- An instruction waits while its core runs no kernel or its clock is down; past the last instruction
the core faults with cause 0x08, and on a reserved opcode or a reserved bit with cause 0x01 (R142, R144).
The row of another opcode has no effect. -/
def Obligations.EncodingFaults : Prop :=
  ∀ r ∈ coreRows, ∀ (c : Fin 192) (w : Dword) (s : State),
    let x := s.core c
    let pc := x.regs.pc.toNat
    let runs := (s.kernelOf c).isSome && x.regs.state == 1 && s.awake (islandOfCluster (clusterOf c))
    (runs = false → exec (r.1 c w) s = .next s) ∧
    (runs = true → x.count ≤ pc → exec (r.1 c w) s = .next (s.coreFault c 0x08 0 0)) ∧
    (runs = true → pc < x.count → SMap.get 0 x.ibuf pc = w →
      (listedOps.contains (iOp w) = false → exec (r.1 c w) s = .next (s.coreFault c 0x01 0 0)) ∧
      (listedOps.contains (iOp w) = true → iOp w ≠ r.2.1 → exec (r.1 c w) s = .next s) ∧
      (iOp w = r.2.1 → w &&& ~~~(r.2.2 ||| bitsMask [(63, 56)]) ≠ 0 →
        exec (r.1 c w) s = .next (s.coreFault c 0x01 0 0)))

/-- Operands that an instruction cannot take fault its core with the cause and the unit of R151: a
reserved code or condition (0x01), an AMM's formats, offset or bank (0x02 to 0x06, 0x09), an address
outside the scratchpad or misaligned (0x05), the DQ of a floating bank (0x09), an absent rank or a
credit counter beyond 65,535 (0x0E), another KBAR (0x0F), an unbound slot (0x11), a peer that has failed
(0x13). -/
def Obligations.OperandFaults : Prop :=
  ∀ (c : Fin 192) (w : Dword) (s : State) (p : Nat) (cmd : Cmd) (k : Kernel),
    s.kernelOf c = some (p, cmd, k) →
    let x := s.core c
    let arr := iw w 55 55
    let faults := fun (i : Instr) (cause unit a : Nat) => exec i s = .next (s.coreFault c cause unit a)
    let dst := (s.dreg c (iw w 52 48)).toNat
    (s.standsAt c w 0x0C (bitsMask [(52, 48), (7, 0)]) → 4 < iw w 7 0 → faults (.sys c w) 0x01 0 0) ∧
    (s.standsAt c w 0x03 (bitsMask [(55, 43), (15, 0)]) → 6 ≤ iw w 55 53 → faults (.br c w) 0x01 0 0) ∧
    (s.standsAt c w 0x36 vecMask → iw w 30 30 = 1 → faults (.vcmp c w) 0x01 0 0) ∧
    (∀ cause, s.standsAt c w 0x20 (bitsMask [(55, 53), (51, 28)]) →
      ammCause (coreFeed x (iw w 51 49)) (coreFeed x (iw w 48 46)) (iw w 53 53 == 1)
        (s.dreg c (iw w 45 41)).toNat (iw w 40 28 + 1) (coreBank x (2 * arr + iw w 54 54)) =
          some cause → faults (.amm c w) cause (1 + arr) 0) ∧
    (s.standsAt c w 0x22 (bitsMask [(55, 48)]) →
      (iw w 48 48 = 1 → (coreBank x (2 * arr + iw w 54 54)).isInt = false →
        faults (.adrain c w) 0x09 (1 + arr) 0) ∧
      (iw w 48 48 = 0 → iw w 49 49 = 1 → (sndSlot x x.ctx.slot.toNat).bound = false →
        faults (.adrain c w) 0x11 (1 + arr) 0)) ∧
    (∀ a, badRange 4 (tileRanges (tileMove s c w)) = some a →
      (s.standsAt c w 0x14 tileMask → faults (.tld c w) 0x05 3 a) ∧
      (s.standsAt c w 0x15 tileMask → faults (.tst c w) 0x05 3 a)) ∧
    (∀ a, badRange 8 [(wordAddr s c w, 8)] = some a →
      (s.standsAt c w 0x16 (bitsMask [(52, 43), (31, 0)]) → faults (.sld c w) 0x05 3 a) ∧
      (s.standsAt c w 0x17 (bitsMask [(52, 43), (31, 0)]) → faults (.sst c w) 0x05 3 a)) ∧
    (s.regsFree c [iw w 52 48, iw w 47 43, iw w 42 38] [] → s.dmaFull c = false →
      dmaOk dst (s.dreg c (iw w 47 43)).toNat (s.dreg c (iw w 42 38)).toNat = false →
      (s.standsAt c w 0x10 (bitsMask [(52, 38), (3, 0)]) →
        faults (.dmain c w) 0x05 4 (dst % 2 ^ 56)) ∧
      (s.standsAt c w 0x11 (bitsMask [(52, 38), (3, 0)]) →
        faults (.dmaout c w) 0x05 4 (dst % 2 ^ 56)) ∧
      (s.standsAt c w 0x12 (bitsMask [(52, 33), (3, 0)]) → s.regsFree c [iw w 37 33] [] →
        faults (.dmapeer c w) 0x05 4 (dst % 2 ^ 56))) ∧
    (∀ b there, s.standsAt c w 0x71 (bitsMask [(3, 0)]) → k.barrier = some (b, there) → b ≠ iw w 3 0 →
      k.cores.idxOf c.val ∉ there → faults (.kbar c w) 0x0F 0 0) ∧
    (s.standsAt c w 0x74 (bitsMask [(52, 32), (3, 0)]) → s.regsFree c [iw w 52 48] [] →
      (k.cores[dst]? = none → faults (.crpost c w) 0x0E 0 0) ∧
      (∀ t, k.cores[dst]? = some t → (x.dmas.any fun d => d.kind == .peer && d.rank == dst) = false →
        ((s.core t).regs.state = 3 → faults (.crpost c w) 0x13 0 0) ∧
        ((s.core t).regs.state ≠ 3 → 65535 < SMap.get 0 (s.core t).cc (iw w 3 0) + iw w 47 32 →
          faults (.crpost c w) 0x0E 0 0)))

/-- ARG reads the 64-bit word IDX of the argument block into Dd, and nothing else changes; an IDX at or
beyond the header's argument word count, which is the number of words that the core has taken, faults
with cause 0x12 (R149). -/
def Obligations.ArgRule : Prop :=
  ∀ (c : Fin 192) (w : Dword) (s : State),
    s.standsAt c w 0x0D (bitsMask [(52, 48), (7, 0)]) →
    (∀ v, (s.core c).args[iw w 7 0]? = some v → s.regsFree c [] [iw w 52 48] →
      exec (.arg c w) s = .next (s.wentPast c (s.setD c (iw w 52 48) v))) ∧
    ((s.core c).args.length ≤ iw w 7 0 → exec (.arg c w) s = .next (s.coreFault c 0x12 0 0))

/-- A read of a reserved address returns zero, a write to one is ignored, and each is recorded with
0x8020 under the accessing agent (R60). In the persistent store's block a write also lets go of the half
of a word that was held, as any write there does (R503). -/
def Obligations.ReservedAddressRule : Prop :=
  ∀ (a : Agent) (addr : BitVec 24) (v : Word) (s : State), s.agentLive a = true →
    s.agentReaches a addr.toNat = true → regAt addr.toNat = none →
    let t := if addr.toNat / 0x10000 = 4 then s.dropHalves else s
    exec (.reservedAddressAccess a addr none) s =
      .next ((s.event 0x8020 (s.uid a)).emit (.read a addr.toNat 0)) ∧
    exec (.reservedAddressAccess a addr (some v)) s = .next (t.event 0x8020 (s.uid a)) ∧
    exec (.registerWrite a addr v) s = .next (t.event 0x8020 (s.uid a))

/-! Core instructions: each one's whole next state where it has its own effect. `s.wentPast c t` is `t`
with the core at the next instruction and nothing else changed, so each equation is the instruction's
frame as well: what it does not name stays. -/

/-- What R144 lists for OP 0 to 12 of ALU and ALUI. -/
def aluValue (op : Nat) (a b : Dword) : Dword :=
  [a + b, a - b, a &&& b, a ||| b, a ^^^ b, a <<< (b.toNat % 64), a >>> (b.toNat % 64),
    a.sshiftRight (b.toNat % 64), a * b, if b.slt a then b else a, if a.slt b then b else a,
    if b.ult a then b else a, if a.ult b then b else a].getD op 0

/-- ALU and ALUI write the value of their OP to Dd; a reserved OP is an encoding fault, cause 0x01. -/
def Obligations.AluComplete : Prop :=
  ∀ (c : Fin 192) (w : Dword) (s : State),
    (s.standsAt c w 0x0A (bitsMask [(55, 37)]) →
      (12 < iw w 55 52 → exec (.alu c w) s = .next (s.coreFault c 0x01 0 0)) ∧
      (iw w 55 52 ≤ 12 → s.regsFree c [iw w 46 42, iw w 41 37] [iw w 51 47] →
        exec (.alu c w) s = .next (s.wentPast c (s.setD c (iw w 51 47)
          (aluValue (iw w 55 52) (s.dreg c (iw w 46 42)) (s.dreg c (iw w 41 37))))))) ∧
    (s.standsAt c w 0x0B (bitsMask [(55, 42), (31, 0)]) →
      (12 < iw w 55 52 → exec (.alui c w) s = .next (s.coreFault c 0x01 0 0)) ∧
      (iw w 55 52 ≤ 12 → s.regsFree c [iw w 46 42] [iw w 51 47] →
        exec (.alui c w) s = .next (s.wentPast c (s.setD c (iw w 51 47)
          (aluValue (iw w 55 52) (s.dreg c (iw w 46 42))
            (BitVec.ofInt 64 (signedOf 32 (iw w 31 0))))))))

/-- NOP, LI, LIH and SYS write the value R144 gives to Dd and nothing else; SYS 3 reads a cycle count
that has gone on by a free amount (log entry 11). D0 reads as zero and discards what is written to it.
-/
def Obligations.ScalarRegistersAndMoves : Prop :=
  (∀ (c : Fin 192) (w : Dword) (s : State),
    (s.standsAt c w 0x00 0 → exec (.coreNop c w) s = .next (s.wentPast c s)) ∧
    (s.standsAt c w 0x08 (bitsMask [(52, 0)]) → s.regsFree c [] [iw w 52 48] →
      exec (.li c w) s = .next (s.wentPast c
        (s.setD c (iw w 52 48) (BitVec.ofInt 64 (signedOf 48 (iw w 47 0)))))) ∧
    (s.standsAt c w 0x09 (bitsMask [(52, 48), (15, 0)]) → s.regsFree c [iw w 52 48] [iw w 52 48] →
      exec (.lih c w) s = .next (s.wentPast c (s.setD c (iw w 52 48)
        (BitVec.ofNat 64 ((s.dreg c (iw w 52 48)).toNat % 2 ^ 48 + iw w 15 0 * 2 ^ 48))))) ∧
    (∀ p cmd k, s.standsAt c w 0x0C (bitsMask [(52, 48), (7, 0)]) → s.regsFree c [] [iw w 52 48] →
      s.kernelOf c = some (p, cmd, k) →
      (iw w 7 0 = 0 → exec (.sys c w) s = .next (s.wentPast c
        (s.setD c (iw w 52 48) (BitVec.ofNat 64 (k.cores.idxOf c.val))))) ∧
      (iw w 7 0 = 1 → exec (.sys c w) s = .next (s.wentPast c
        (s.setD c (iw w 52 48) (BitVec.ofNat 64 k.cores.length)))) ∧
      (iw w 7 0 = 2 → exec (.sys c w) s = .next (s.wentPast c
        (s.setD c (iw w 52 48) (BitVec.ofNat 64 ((kCores cmd).getD (k.cores.idxOf c.val) 0))))) ∧
      (iw w 7 0 = 3 → exec (.sys c w) s = .next (s.wentPast c
        ((s.countCycles c).setD c (iw w 52 48)
          ((s.core c).regs.cycles + BitVec.ofNat 64 s.freeVal)))) ∧
      (iw w 7 0 = 4 → exec (.sys c w) s = .next (s.wentPast c
        (s.setD c (iw w 52 48) (BitVec.ofNat 64 (s.core c).argVa)))))) ∧
  (∀ (s : State) (c r : Nat) (v : Dword),
    (s.setD c r v).dreg c 0 = 0 ∧ (s.setD c 0 v).core c = s.core c ∧
    (r ≠ 0 → (s.setD c r v).dreg c r = v) ∧
    (∀ q, q ≠ r → (s.setD c r v).dreg c q = s.dreg c q))

/-- A jump goes to its target, a branch when its condition holds, and both drop the loops that the
target leaves; a target at or beyond the instruction count faults with cause 0x08 when taken. LOOP
repeats its body, COUNT 0 skips it, and the fifth level faults with cause 0x07. -/
def Obligations.ControlFlowComplete : Prop :=
  ∀ (c : Fin 192) (w : Dword) (s : State),
    (s.standsAt c w 0x02 (bitsMask [(15, 0)]) →
      (iw w 15 0 < (s.core c).count →
        exec (.jmp c w) s = .next (s.updCore c (coreJump (iw w 15 0)))) ∧
      ((s.core c).count ≤ iw w 15 0 → exec (.jmp c w) s = .next (s.coreFault c 0x08 0 0))) ∧
    (s.standsAt c w 0x03 (bitsMask [(55, 43), (15, 0)]) → s.regsFree c [iw w 52 48, iw w 47 43] [] →
      iw w 55 53 < 6 →
      let holds := brHolds (iw w 55 53) (s.dreg c (iw w 52 48)) (s.dreg c (iw w 47 43))
      (holds = false → exec (.br c w) s = .next (s.wentPast c s)) ∧
      (holds = true → iw w 15 0 < (s.core c).count →
        exec (.br c w) s = .next (s.updCore c (coreJump (iw w 15 0)))) ∧
      (holds = true → (s.core c).count ≤ iw w 15 0 →
        exec (.br c w) s = .next (s.coreFault c 0x08 0 0))) ∧
    (s.standsAt c w 0x04 (bitsMask [(52, 32), (15, 0)]) → s.regsFree c [iw w 52 48] [] →
      let x := s.core c
      let pc := x.regs.pc.toNat
      let n := if iw w 47 32 ≠ 0 then iw w 47 32 else (s.dreg c (iw w 52 48)).toNat % 2 ^ 32
      (iw w 15 0 ≤ pc ∨ x.count ≤ iw w 15 0 → exec (.loop c w) s = .next (s.coreFault c 0x08 0 0)) ∧
      (pc < iw w 15 0 → iw w 15 0 < x.count → 4 ≤ x.loops.length →
        exec (.loop c w) s = .next (s.coreFault c 0x07 0 0)) ∧
      (pc < iw w 15 0 → iw w 15 0 < x.count → x.loops.length < 4 → n ≠ 0 →
        exec (.loop c w) s = .next (s.wentPast c (s.updCore c fun y =>
          { y with loops := ⟨pc + 1, iw w 15 0, n⟩ :: y.loops }))) ∧
      (pc < iw w 15 0 → iw w 15 0 < x.count → x.loops.length < 4 → n = 0 →
        exec (.loop c w) s = .next ((s.updCore c fun y =>
          { y with loops := (nextPc x.loops (iw w 15 0)).1 }).updCore c
            (coreJump (nextPc x.loops (iw w 15 0)).2))))

/-- END waits for the core's units and DMAs, marks the core idle, and is the kernel's commit point
once every core has ended and no Soundings record waits at a core (R141, R150). The sync instructions
wait or have their effect, each as R143 and R144 give it. -/
def Obligations.SyncAndEndComplete : Prop :=
  (∀ (c : Fin 192) (w : Dword) (s : State) (p : Nat) (cmd : Cmd) (k : Kernel),
    s.standsAt c w 0x01 0 → s.kernelOf c = some (p, cmd, k) →
    let k' := { k with ended := k.ended ++ [k.cores.idxOf c.val] }
    let t := (s.updKernel p cmd fun _ => k').updCore c fun x =>
      { x with regs := { x.regs with state := 0 } }
    (coreQuiet (s.core c) = false → exec (.coreEnd c w) s = .next s) ∧
    (coreQuiet (s.core c) = true →
      (k.cores.any fun i => !(k'.ended.contains (k.cores.idxOf i) && (t.core i).emitted.isEmpty)) →
      exec (.coreEnd c w) s = .next (s.wentPast c t)) ∧
    (coreQuiet (s.core c) = true →
      (k.cores.all fun i => k'.ended.contains (k.cores.idxOf i) && (t.core i).emitted.isEmpty) →
      exec (.coreEnd c w) s = .next (s.wentPast c (t.endKernel p cmd k' (endDone 0))))) ∧
  (∀ (c : Fin 192) (w : Dword) (s : State) (p : Nat) (cmd : Cmd) (k : Kernel),
    s.kernelOf c = some (p, cmd, k) →
    (s.standsAt c w 0x70 (bitsMask [(3, 0)]) →
      (iw w 3 0 % 2 = 1 → (s.core c).qa = []) → (iw w 3 0 / 2 % 2 = 1 → (s.core c).qb = []) →
      (iw w 3 0 / 4 % 2 = 1 → (s.core c).qv = []) → (iw w 3 0 / 8 % 2 = 1 → (s.core c).dmas = []) →
      exec (.coreFence c w) s = .next (s.wentPast c s)) ∧
    (s.standsAt c w 0x71 (bitsMask [(3, 0)]) → k.barrier = none → 1 < k.cores.length →
      exec (.kbar c w) s = .next ((s.updKernel p cmd fun y =>
        { y with barrier := some (iw w 3 0, [k.cores.idxOf c.val]) }).updCore c
          (coreJump (s.core c).regs.pc.toNat))) ∧
    (∀ there, s.standsAt c w 0x71 (bitsMask [(3, 0)]) → k.barrier = some (iw w 3 0, there) →
      k.cores.idxOf c.val ∉ there → k.cores.length ≤ there.length + 1 →
      exec (.kbar c w) s = .next (s.wentPast c (k.cores.foldl
        (fun s i => if i = c.val then s else s.updCore i fun x => corePast x.regs.pc.toNat x)
        (s.updKernel p cmd fun k => { k with barrier := none })))) ∧
    (s.standsAt c w 0x72 (bitsMask [(11, 0)]) → ((s.core c).dmas.all fun d => d.kind != .out) →
      exec (.evinc c w) s = .next (s.wentPast c (if cmd.atomic then
          s.updCmd p cmd fun y => { y with stagedEv := y.stagedEv ++ [iw w 11 0] }
        else s.evcAdd p (iw w 11 0) 1))) ∧
    (s.standsAt c w 0x73 (bitsMask [(52, 48), (11, 0)]) → s.regsFree c [iw w 52 48] [] →
      (s.dreg c (iw w 52 48)).toNat ≤ (s.evc p (iw w 11 0)).toNat →
      exec (.evwait c w) s = .next (s.wentPast c s)) ∧
    (∀ t, s.standsAt c w 0x74 (bitsMask [(52, 32), (3, 0)]) → s.regsFree c [iw w 52 48] [] →
      k.cores[(s.dreg c (iw w 52 48)).toNat]? = some t → (s.core t).regs.state ≠ 3 →
      ((s.core c).dmas.all fun d =>
        !(d.kind == .peer && d.rank == (s.dreg c (iw w 52 48)).toNat)) →
      SMap.get 0 (s.core t).cc (iw w 3 0) + iw w 47 32 ≤ 65535 →
      exec (.crpost c w) s = .next (s.wentPast c (s.updCore t fun x =>
        { x with cc := SMap.modify 0 x.cc (iw w 3 0) (· + iw w 47 32) }))) ∧
    (s.standsAt c w 0x75 (bitsMask [(47, 32), (3, 0)]) →
      iw w 47 32 ≤ SMap.get 0 (s.core c).cc (iw w 3 0) →
      exec (.crwait c w) s = .next (s.wentPast c (s.updCore c fun x =>
        { x with cc := SMap.modify 0 x.cc (iw w 3 0) (· - iw w 47 32) }))))

/-- A unit completes its oldest instruction in the order of R138, and the DMA engine its oldest DMA;
nothing else changes. DMAIN, DMAOUT, DMAPEER and DMAWAIT with their operands right (R145) and room for
a DMA (fewer than 32 outstanding, the unit's queue not full: the model's choice, log entry 43): the bytes
that were read stand at the destination, and the DMA is outstanding under its tag. With fewer than
16 outstanding there is always room. -/
def Obligations.UnitsAndDmaComplete : Prop :=
  (∀ (c : Fin 192) (s : State),
    (∀ u : Fin 3, exec (.instructionComplete c u) s = .next (s.updCore c (corePop u))) ∧
    exec (.dmaComplete c) s = .next (s.updCore c fun x => { x with dmas := x.dmas.drop 1 })) ∧
  (∀ (c : Fin 192) (w : Dword) (s : State) (p : Nat) (cmd : Cmd) (k : Kernel),
    s.kernelOf c = some (p, cmd, k) →
    let a := (s.dreg c (iw w 52 48)).toNat
    let b := (s.dreg c (iw w 47 43)).toNat
    let n := (s.dreg c (iw w 42 38)).toNat
    let regs := [iw w 52 48, iw w 47 43, iw w 42 38]
    let read := (List.range n).map fun i => s.scrView c 3 (a % 2 ^ 23 + i)
    ((s.core c).dmas.length < 16 → s.dmaFull c = false) ∧
    (s.dmaFull c = false → dmaOk a b n →
      (∀ s' bs, s.standsAt c w 0x10 (bitsMask [(52, 38), (3, 0)]) → s.regsFree c regs [] →
        b % 2 ^ 23 + n ≤ scratchBytes → s.xread ⟨p, uCore c⟩ (a % 2 ^ 56) n = (s', .ok bs) →
        exec (.dmain c w) s = .next (s.wentPast c
          ((s'.scrStore c 3 [(b % 2 ^ 23, bs)]).updCore c
            (corePushDma
              { no := 0, kind := .into, tag := iw w 3 0, local_ := b % 2 ^ 23, len := n, dst := 0, rank := 0
                core := 0 })))) ∧
      (∀ s', s.standsAt c w 0x11 (bitsMask [(52, 38), (3, 0)]) → s.regsFree c regs [] →
        cmd.atomic = false → a % 2 ^ 23 + n ≤ scratchBytes → s.unitFree c 3 [(a % 2 ^ 23, n)] →
        s.tickFree.xwrite ⟨p, uCore c⟩ (b % 2 ^ 56) read = (s', .ok ()) →
        exec (.dmaout c w) s = .next (s.wentPast c
          ((s'.updKernel p cmd fun k =>
              { k with outs := k.outs ++ [(b % 2 ^ 56, n)], wrote := k.wrote + n }).updCore c
            (corePushDma
              { no := 0, kind := .out, tag := iw w 3 0, local_ := a % 2 ^ 23, len := n
                dst := b % 2 ^ 56, rank := 0, core := 0 })))) ∧
      (∀ t, s.standsAt c w 0x12 (bitsMask [(52, 33), (3, 0)]) → s.regsFree c (regs ++ [iw w 37 33]) [] →
        a % 2 ^ 23 + n ≤ scratchBytes → b % 2 ^ 23 + n ≤ scratchBytes →
        k.cores[(s.dreg c (iw w 37 33)).toNat]? = some t → (s.core t).regs.state ≠ 3 →
        s.unitFree c 3 [(a % 2 ^ 23, n)] →
        exec (.dmapeer c w) s = .next (s.wentPast c
          ((s.tickFree.scrStore t 4 [(b % 2 ^ 23, read)] c).updCore c
            (corePushDma
              { no := 0, kind := .peer, tag := iw w 3 0, local_ := a % 2 ^ 23, len := n
                dst := b % 2 ^ 23, rank := (s.dreg c (iw w 37 33)).toNat, core := t }))))) ∧
    (s.standsAt c w 0x13 (bitsMask [(15, 0)]) →
      ((s.core c).dmas.all fun d => !bit (iw w 15 0) d.tag) →
      exec (.dmawait c w) s = .next (s.wentPast c s)))

/-- TLD, TST, SLD and SST with their ranges inside the scratchpad, aligned and without errors. -/
def Obligations.LoadStoreComplete : Prop :=
  ∀ (c : Fin 192) (w : Dword) (s : State),
    let m := tileMove s c w
    let a := wordAddr s c w
    let v := s.scrView c 2
    (s.standsAt c w 0x14 tileMask → badRange 4 (tileRanges m) = none →
      s.unitFree c 2 (tileRanges m) →
      exec (.tld c w) s = .next (s.queued c 2
        { rd := tileRegs w, wr := [rX m.x], srd := tileRanges m }
        (s.updCore c fun y => coreSetX y m.x (tileFn fun k =>
          if k / 128 < m.rows ∧ k % 128 < m.cols then
            wordAt v (m.base + m.stride * (k / 128) + 4 * (k % 128)) else 0)).tickFree)) ∧
    (s.standsAt c w 0x15 tileMask → badRange 4 (tileRanges m) = none → s.unitFree c 2 [] →
      exec (.tst c w) s = .next (s.queued c 2
        { rd := rX m.x :: tileRegs w, swr := tileRanges m }
        (s.scrStore c 2 ((List.range m.rows).map fun i => (m.base + m.stride * i,
          (List.range m.cols).flatMap fun j =>
            leBytes 4 (elem (coreX (s.core c) m.x) (tileKey i j)).toNat))))) ∧
    (s.standsAt c w 0x16 (bitsMask [(52, 43), (31, 0)]) → badRange 8 [(a, 8)] = none →
      s.unitFree c 2 [(a, 8)] →
      exec (.sld c w) s = .next (s.queued c 2
        { rd := [rD (iw w 47 43)], wr := [rD (iw w 52 48)], srd := [(a, 8)] }
        (s.setD c (iw w 52 48) (BitVec.ofNat 64 (bitsAt v (8 * a) 64))).tickFree)) ∧
    (s.standsAt c w 0x17 (bitsMask [(52, 43), (31, 0)]) → badRange 8 [(a, 8)] = none →
      s.unitFree c 2 [] →
      exec (.sst c w) s = .next (s.queued c 2
        { rd := [rD (iw w 52 48), rD (iw w 47 43)], swr := [(a, 8)] }
        (s.scrStore c 2 [(a, leBytes 8 (s.dreg c (iw w 52 48)).toNat)])))

/-- AFDSET writes the feed descriptor of R110; a format word it cannot take is cause 0x02. AMM adds the
products of R113 to R118 to its bank, and ADRAIN copies the bank into a tile, counted when SND is
set. -/
def Obligations.ArraysComplete : Prop :=
  ∀ (c : Fin 192) (w : Dword) (s : State),
    let x := s.core c
    let arr := iw w 55 55
    let bk := 2 * arr + iw w 54 54
    (s.standsAt c w 0x21 (bitsMask [(55, 9)]) →
      let f := FmtWord.of (BitVec.ofNat 16 (iw w 32 17))
      (f.reserved true || f.fmt == 0 || f.fmt == 11 →
        exec (.afdset c w) s = .next (s.coreFault c 0x02 0 0)) ∧
      ((f.reserved true || f.fmt == 0 || f.fmt == 11) = false →
        s.regsFree c [iw w 52 48, iw w 47 43, iw w 42 38, iw w 37 33] [] →
        exec (.afdset c w) s = .next (s.wentPast c (s.updCore c fun y => { y with
          feeds := SMap.set {} y.feeds (iw w 55 53)
            { data := (s.dreg c (iw w 52 48)).setWidth 23, scale := (s.dreg c (iw w 47 43)).setWidth 23
              stride := s.dreg c (iw w 42 38), sstride := s.dreg c (iw w 37 33)
              fmt := BitVec.ofNat 16 (iw w 32 17), ext := iw w 16 10 + 1
              layout := bit (iw w 9 9) 0 } })))) ∧
    (s.standsAt c w 0x20 (bitsMask [(55, 53), (51, 28)]) →
      let l := coreFeed x (iw w 51 49)
      let r := coreFeed x (iw w 48 46)
      let zero := iw w 53 53 == 1
      let doff := (s.dreg c (iw w 45 41)).toNat
      let kn := iw w 40 28 + 1
      let rs := feedRanges l true doff kn ++ feedRanges r false doff kn
      (∀ cause, ammCause l r zero doff kn (coreBank x bk) = some cause →
        exec (.amm c w) s = .next (s.coreFault c cause (1 + arr) 0)) ∧
      (ammCause l r zero doff kn (coreBank x bk) = none → badRange 1 rs = none →
        s.unitFree c arr rs →
        exec (.amm c w) s = .next (s.queued c arr
          { rd := rD (iw w 45 41) :: (if zero then [] else [rBank bk]), wr := [rBank bk], srd := rs }
          (s.updCore c fun y => coreSetBank y bk
            (ammBank (s.scrView c arr) l r zero doff kn (coreBank y bk))).tickFree))) ∧
    (s.standsAt c w 0x22 (bitsMask [(55, 48)]) →
      let b := coreBank x bk
      let dq := iw w 48 48 == 1
      let snd := iw w 49 49 == 1
      let k := x.ctx.slot.toNat
      (dq = true → b.isInt = false →
        exec (.adrain c w) s = .next (s.coreFault c 0x09 (1 + arr) 0)) ∧
      ((dq = true → b.isInt = true) → (snd = true → (sndSlot x k).bound = true) →
        s.unitFree c arr [] →
        exec (.adrain c w) s = .next (s.queued c arr
          { rd := [rBank bk], wr := [rX (iw w 53 50)], slot := if snd then some k else none }
          (s.updCore c fun y =>
            let y := coreSetX y (iw w 53 50) (tileFn (drained s.free b dq))
            if snd then sndAccum c k (if b.isInt && !dq then sndFree s.free
              else sndCount ((tileWords (tileFn (drained s.free b dq))).map fun v => (v, false))) y
            else y).tickFree)))

/-- An elementwise instruction: constructor, opcode, which of operands a, b and c it reads, its
function on FP32 words and, where R127 gives one, on INT32 words. -/
structure ElementwiseRow where
  instr : Fin 192 → Dword → Instr
  op : Nat
  useA : Bool := true
  useB : Bool := true
  useC : Bool := false
  onInt : Option (Word → Word → Word → Word) := none
  onFp : Word → Word → Word → Word

/-- The table of class 0x3_ (R127) but for VCMP and VMOV. -/
def elementwiseRows : List ElementwiseRow :=
  [ { instr := .vadd, op := 0x30, onInt := some fun a b _ => a + b, onFp := fun a b _ => fadd a b },
    { instr := .vsub, op := 0x31, onInt := some fun a b _ => a - b, onFp := fun a b _ => fsub a b },
    { instr := .vmul, op := 0x32, onFp := fun a b _ => fmul a b },
    { instr := .vfma, op := 0x33, useC := true, onFp := ffma },
    { instr := .vmin, op := 0x34, onFp := fun a b _ => fmin a b
      onInt := some fun a b _ => if b.toInt < a.toInt then b else a },
    { instr := .vmax, op := 0x35, onFp := fun a b _ => fmax a b
      onInt := some fun a b _ => if a.toInt < b.toInt then b else a },
    { instr := .vsel, op := 0x37, useC := true, onFp := fun a b k => fcanon (if fzero k then b else a) } ] ++
  [ { instr := .vexp2, op := 0x39, useB := false, onFp := fun a _ _ => vexp2 a },
    { instr := .vlog2, op := 0x3A, useB := false, onFp := fun a _ _ => vlog2 a },
    { instr := .vrsqrt, op := 0x3B, useB := false, onFp := fun a _ _ => vrsqrt a },
    { instr := .vrcp, op := 0x3C, useB := false, onFp := fun a _ _ => vrcp a },
    { instr := .vtanh, op := 0x3D, useB := false, onFp := fun a _ _ => vtanh a },
    { instr := .vsig, op := 0x3E, useB := false, onFp := fun a _ _ => vsigmoid a },
    { instr := .vgelu, op := 0x3F, useB := false, onFp := fun a _ _ => vgelu a } ]

/-- The next state of an elementwise instruction: tile d takes `f` of the operands at every element. -/
def elementwiseNext (s : State) (c : Nat) (w : Dword) (srcs : List Nat)
    (f : Word → Word → Word → Word) : State :=
  s.queued c 2 { rd := srcs, wr := [rX (iw w 55 52)] } (s.updCore c fun x =>
    coreSetX x (iw w 55 52) (tileFn fun k =>
      f (elem (coreX x (iw w 51 48)) k) (vecB x w k) (elem (coreX x (iw w 43 40)) k)))

/-- VADD, VSUB, VMUL, VFMA, VMIN, VMAX, VSEL and the seven functions write their value to every element
of tile d; with INT set where R127 gives no integer form they fault with cause 0x01. -/
def Obligations.ElementwiseComplete : Prop :=
  ∀ r ∈ elementwiseRows, ∀ (c : Fin 192) (w : Dword) (s : State), s.standsAt c w r.op vecMask →
    (iw w 30 30 = 0 → s.unitFree c 2 [] → exec (r.instr c w) s =
      .next (elementwiseNext s c w (vecSources w r.useA r.useB r.useC) r.onFp)) ∧
    (iw w 30 30 = 1 → match r.onInt with
      | none => exec (r.instr c w) s = .next (s.coreFault c 0x01 0 0)
      | some f => s.unitFree c 2 [] → exec (r.instr c w) s =
          .next (elementwiseNext s c w (vecSources w r.useA r.useB r.useC) f))

/-- VCMP writes 1.0 where its condition holds and 0 elsewhere, CND 6 and 7 being reserved; VMOV copies
operand a, or Ds with SCB set; without INT it makes a NaN canonical (the model's reading of R96, log
entry 45). -/
def Obligations.CompareAndMoveComplete : Prop :=
  ∀ (c : Fin 192) (w : Dword) (s : State),
    (s.standsAt c w 0x36 vecMask → iw w 30 30 = 0 →
      (6 ≤ iw w 33 31 → exec (.vcmp c w) s = .next (s.coreFault c 0x01 0 0)) ∧
      (iw w 33 31 < 6 → s.unitFree c 2 [] → exec (.vcmp c w) s =
        .next (elementwiseNext s c w (vecSources w true true false)
          fun a b _ => if fcmp (iw w 33 31) a b then F32.one else 0))) ∧
    (s.standsAt c w 0x38 vecMask → s.unitFree c 2 [] →
      let moved := fun (v : Word) => if iw w 30 30 = 1 then v else fcanon v
      (iw w 39 39 = 0 → exec (.vmov c w) s =
        .next (elementwiseNext s c w [rX (iw w 51 48)] fun a _ _ => moved a)) ∧
      (iw w 39 39 = 1 → exec (.vmov c w) s =
        .next (elementwiseNext s c w [rD (iw w 38 34)] fun _ b _ => moved b)))

/-- Reductions of R128 with their opcodes and the value of a line. -/
def reductionRows : List ((Fin 192 → Dword → Instr) × Nat × (List Word → Word)) :=
  [(.rsum, 0x40, redSum), (.rmax, 0x41, redFold fmax), (.rmin, 0x42, redFold fmin)]

/-- Broadcasts of R129 with their opcodes and functions. -/
def broadcastRows : List ((Fin 192 → Dword → Instr) × Nat × (Word → Word → Word)) :=
  [(.badd, 0x44, fadd), (.bsub, 0x45, fsub), (.bmul, 0x46, fmul), (.bmax, 0x47, fmax),
    (.bmin, 0x48, fmin)]

/-- RSUM, RMAX and RMIN write the value of each line to a vector register; BADD to BMIN combine every
element of a tile with the vector element of its row (AX = 1) or column (AX = 0). -/
def Obligations.ReductionsAndBroadcastsComplete : Prop :=
  (∀ r ∈ reductionRows, ∀ (c : Fin 192) (w : Dword) (s : State), s.standsAt c w r.2.1 redMask →
    s.unitFree c 2 [] →
    exec (r.1 c w) s = .next (s.queued c 2 { rd := [rX (iw w 51 48)], wr := [rV (iw w 54 52)] }
      (s.updCore c fun x => coreSetV x (iw w 54 52) (vecFn fun i =>
        r.2.2 ((List.range (iw w 43 37 + 1)).map
          (lineElem (iw w 55 55) (coreX x (iw w 51 48)) i)))))) ∧
  (∀ r ∈ broadcastRows, ∀ (c : Fin 192) (w : Dword) (s : State), s.standsAt c w r.2.1 bcastMask →
    s.unitFree c 2 [] →
    exec (r.1 c w) s = .next (s.queued c 2
      { rd := [rX (iw w 51 48), rV (iw w 54 52)], wr := [rX (iw w 47 44)] }
      (s.updCore c fun x => coreSetX x (iw w 47 44) (tileFn fun k =>
        r.2.2 (elem (coreX x (iw w 51 48)) k)
          (elem (coreV x (iw w 54 52)) (if iw w 55 55 = 1 then k / 128 else k % 128))))))

/-- VLD, VST, VVOP, VEXT, VINS and STLP: what each writes (R128, R129, R135). -/
def Obligations.VectorRegistersComplete : Prop :=
  ∀ (c : Fin 192) (w : Dword) (s : State),
    let a := s.sAddr c (iw w 47 43)
    let vd := iw w 54 52
    (s.standsAt c w 0x49 (bitsMask [(55, 52), (47, 43)]) →
      let b8 := iw w 55 55 == 1
      let r := (a, if b8 then 128 else 512)
      badRange (if b8 then 1 else 4) [r] = none → s.unitFree c 2 [r] →
      exec (.vld c w) s = .next (s.queued c 2 { rd := [rD (iw w 47 43)], wr := [rV vd], srd := [r] }
        (s.updCore c fun x => coreSetV x vd (vecFn fun i =>
          if b8 then f32OfInt (s.scrView c 2 (a + i)).toNat
          else wordAt (s.scrView c 2) (a + 4 * i))).tickFree)) ∧
    (s.standsAt c w 0x4A (bitsMask [(54, 52), (47, 43)]) → badRange 4 [(a, 512)] = none →
      s.unitFree c 2 [] →
      exec (.vst c w) s = .next (s.queued c 2
        { rd := [rV vd, rD (iw w 47 43)], swr := [(a, 512)] }
        (s.scrStore c 2 [(a, (List.range 128).flatMap fun i =>
          leBytes 4 (elem (coreV (s.core c) vd) i).toNat)]))) ∧
    (s.standsAt c w 0x4B (bitsMask [(54, 30)]) →
      (12 ≤ iw w 33 30 → exec (.vvop c w) s = .next (s.coreFault c 0x01 0 0)) ∧
      (iw w 33 30 < 12 → s.unitFree c 2 [] →
        exec (.vvop c w) s = .next (s.queued c 2 { rd := vvopSources w, wr := [rV vd] }
          (s.updCore c fun x => coreSetV x vd (vvopVec (iw w 33 30) (iw w 40 34 + 1)
            ((coreD x (iw w 45 41)).setWidth 32) (coreV x (iw w 51 49)) (coreV x (iw w 48 46))))))) ∧
    (s.standsAt c w 0x4C redMask → s.unitFree c 2 [] →
      exec (.vext c w) s = .next (s.queued c 2 { rd := [rX (iw w 51 48)], wr := [rV vd] }
        (s.updCore c fun x => coreSetV x vd (vecFn fun k =>
          lineElem (iw w 55 55) (coreX x (iw w 51 48)) (iw w 43 37) k)))) ∧
    (s.standsAt c w 0x4D redMask → s.unitFree c 2 [] →
      exec (.vins c w) s = .next (s.queued c 2
        { rd := [rV vd, rX (iw w 51 48)], wr := [rX (iw w 51 48)] }
        (s.updCore c fun x => coreSetX x (iw w 51 48) (tileFn fun q =>
          let line := if iw w 55 55 = 1 then q / 128 else q % 128
          let k := if iw w 55 55 = 1 then q % 128 else q / 128
          if line = iw w 43 37 then elem (coreV x vd) k
          else elem (coreX x (iw w 51 48)) q)))) ∧
    (s.standsAt c w 0x63 (bitsMask [(54, 43)]) → s.unitFree c 2 [] →
      exec (.stlp c w) s = .next (s.queued c 2
        { rd := [rV (iw w 51 49), rV (iw w 48 46), rV (iw w 45 43)], wr := [rV vd] }
        (s.updCore c fun x => coreSetV x vd (vecFn fun i =>
          lpLast (elem (coreV x (iw w 51 49)) i) (elem (coreV x (iw w 48 46)) i)
            (elem (coreV x (iw w 45 43)) i)))))

/-- CVLD, CVT and CVCTX: what each writes (R130 to R132). CVST stores the converted rows and, unless
the scales stand in the scratchpad already, a scale code for each block; with SND set it counts its
source values (R130, R131, R334). -/
def Obligations.ConvertsComplete : Prop :=
  (∀ (c : Fin 192) (w : Dword) (s : State),
    let m := cvMove s c w
    (s.standsAt c w 0x51 (bitsMask [(51, 33), (27, 5)]) →
      (m.f.reserved true = true → exec (.cvld c w) s = .next (s.coreFault c 0x02 3 0)) ∧
      (m.f.reserved true = false → m.bad = none → s.unitFree c 2 (m.dataRanges ++ m.scaleRanges) →
        exec (.cvld c w) s = .next (s.queued c 2
          { rd := cvRegs w, wr := [rX (iw w 51 48)], srd := m.dataRanges ++ m.scaleRanges }
          (s.updCore c fun x => coreSetX x (iw w 51 48) (tileFn fun k =>
            if k / 128 < m.rows ∧ k % 128 < m.cols then
              loadedWord m (s.scrView c 2) (k / 128) (k % 128) else 0)).tickFree))) ∧
    (s.standsAt c w 0x52 (bitsMask [(55, 37), (27, 8)]) →
      let f := FmtWord.of (BitVec.ofNat 16 (iw w 27 12))
      let next := fun (v : Core → Elems → Elems) => s.queued c 2
        { rd := cvtSources w (iw w 11 8), wr := [rX (iw w 55 52)] }
        (s.updCore c fun x => coreSetX x (iw w 55 52) (v x (coreX x (iw w 51 48))))
      (4 ≤ iw w 11 8 ∨ (iw w 11 8 ≠ 0 ∧ iw w 27 12 ≠ 0) →
        exec (.cvt c w) s = .next (s.coreFault c 0x01 0 0)) ∧
      (iw w 11 8 = 0 → (f.reserved false || f.scaleSrc) = true →
        exec (.cvt c w) s = .next (s.coreFault c 0x02 3 0)) ∧
      (iw w 11 8 = 0 → (f.reserved false || f.scaleSrc) = false → s.unitFree c 2 [] →
        exec (.cvt c w) s = .next (next fun x a =>
          cvtQuantised f x.ctx (coreD x (iw w 47 43)).toNat a)) ∧
      (iw w 11 8 = 1 → iw w 27 12 = 0 → s.unitFree c 2 [] →
        exec (.cvt c w) s = .next (next fun _ a => tileFn fun k => toInt32 (elem a k))) ∧
      (iw w 11 8 = 2 → iw w 27 12 = 0 → s.unitFree c 2 [] →
        exec (.cvt c w) s = .next (next fun _ a => tileFn fun k => f32OfInt (elem a k).toInt)) ∧
      (iw w 11 8 = 3 → iw w 27 12 = 0 → s.unitFree c 2 [] →
        exec (.cvt c w) s = .next (next fun x a => tileFn fun k => dequant (elem a k).toInt
          (codeOf (elem (coreV x (iw w 42 40)) (k / 128)))
          (codeOf (elem (coreV x (iw w 39 37)) (k % 128)))))) ∧
    (s.standsAt c w 0x53 (bitsMask [(52, 38), (16, 10), (2, 0)]) → s.unitFree c 2 [] →
      exec (.cvctx c w) s = .next (s.queued c 2
        { rd := [rD (iw w 52 48), rD (iw w 47 43), rD (iw w 42 38)] }
        (s.updCore c fun x => { x with ctx :=
          { seed := coreD x (iw w 52 48), tensor := (coreD x (iw w 47 43)).setWidth 32
            pitch := coreD x (iw w 42 38), cols := iw w 16 10 + 1
            slot := BitVec.ofNat 3 (iw w 2 0) } })))) ∧
  (∀ (c : Fin 192) (w : Dword) (s : State), s.standsAt c w 0x50 (bitsMask [(51, 4)]) →
    let m := cvMove s c w
    let x := s.core c
    let k := x.ctx.slot.toNat
    let tile := coreX x (iw w 51 48)
    let reads := if m.f.scaleSrc then m.scaleRanges else []
    let keep : Bool := decide (m.f.blk = 0) || m.f.scaleSrc
    let cv := convertTile m.f x.ctx (s.dreg c (iw w 32 28)).toNat m.rows m.cols
      (fun uv => (s.scrView c 2 (m.scaleAt uv)).toNat) tile
    let word := fun k => if m.f.fmt = 11 then (elem tile k).toNat else SMap.get 0 cv.bits k
    let row := fun i => (m.row i, packBits (fmtBits m.f.fmt)
      ((List.range m.cols).map fun j => word (tileKey i j))
      fun b => Config.freeByte s.free (2 ^ 24 + m.row i + b))
    let codes := if keep then [] else cv.codes.map fun e => (m.scaleAt e.1, [BitVec.ofNat 8 e.2])
    (m.f.reserved false = true → exec (.cvst c w) s = .next (s.coreFault c 0x02 3 0)) ∧
    (m.f.reserved false = false → (iw w 4 4 = 1 → (sndSlot x k).bound = true) → m.bad = none →
      m.cols ≠ 0 → s.unitFree c 2 reads →
      exec (.cvst c w) s = .next (s.queued c 2
        { rd := rX (iw w 51 48) :: rD (iw w 32 28) :: cvRegs w, srd := reads
          swr := m.dataRanges ++ (if keep then [] else m.scaleRanges)
          slot := if iw w 4 4 = 1 then some k else none }
        ((s.scrStore c 2 (codes ++ (List.range m.rows).map row)).updCore c fun y =>
          if iw w 4 4 = 1 then sndAccum c k (cvstCounts m cv tile s.free) y else y))))

/-- STBIND binds a slot to a tensor with its counts at zero, STACC counts a tile into a bound slot, and
STEMIT passes the slot's record to the helm core and frees the slot; an unbound slot is cause 0x11
(R133). -/
def Obligations.SoundingsInstructionsComplete : Prop :=
  ∀ (c : Fin 192) (w : Dword) (s : State),
    let k := iw w 2 0
    (s.standsAt c w 0x60 (bitsMask [(52, 48), (2, 0)]) → s.unitFree c 2 [] →
      exec (.stbind c w) s = .next (s.queued c 2 { rd := [rD (iw w 52 48)] }
        (s.updCore c fun x => { x with
          slots := SMap.set {} x.slots k
            { bound := true, tensor := (s.dreg c (iw w 52 48)).setWidth 32 } }))) ∧
    (s.standsAt c w 0x61 (bitsMask [(51, 48), (2, 0)]) →
      ((sndSlot (s.core c) k).bound = false →
        exec (.stacc c w) s = .next (s.coreFault c 0x11 3 0)) ∧
      ((sndSlot (s.core c) k).bound = true → s.unitFree c 2 [] →
        exec (.stacc c w) s = .next (s.queued c 2 { rd := [rX (iw w 51 48)], slot := some k }
          (s.updCore c (sndAccum c k (sndCount ((tileWords (coreX (s.core c) (iw w 51 48))).map
            fun v => (v, false)))))))) ∧
    (s.standsAt c w 0x62 (bitsMask [(2, 0)]) →
      ((sndSlot (s.core c) k).bound = false →
        exec (.stemit c w) s = .next (s.coreFault c 0x11 3 0)) ∧
      ((sndSlot (s.core c) k).bound = true → s.unitFree c 2 [] →
        exec (.stemit c w) s = .next (s.queued c 2 {}
          (s.updCore c fun x => { x with
            emitted := x.emitted ++ [{ sndSlot (s.core c) k with unit := uCore c }]
            slots := SMap.set {} x.slots k {} }))))

/-! Commands and queues. -/

/-- A command is fetched into the queue's place at PAR_Q_HEAD with the outcome of its validation, when
descriptors are exposed and a record has room (R207). -/
def Obligations.DescriptorFetchComplete : Prop :=
  ∀ (p : Fin 16) (q : Fin 64) (s : State),
    let x := (s.part p).queue q
    (∀ s' bs, s.canFetch p q →
      s.xread (s.helmReq p) (x.base.toNat + 64 * (x.head.toNat % x.n)) 64 = (s', .ok bs) →
      let c : Cmd := { q := q, idx := 0, desc := BitVec.ofNat 512 (leNat bs) }
      exec (.descriptorFetch p q) s =
        .next ((s'.updPart p fun y => { y with cmds := y.cmds ++
          [{ c with idx := ((s'.part p).queue q).head.toNat, bad := s'.descDetail p c }] }).updQueue p q
            fun y => { y with head := BitVec.ofNat 17 ((y.head.toNat + 1) % (2 * y.n)) })) ∧
    (∀ s' st va, s.canFetch p q →
      s.xread (s.helmReq p) (x.base.toNat + 64 * (x.head.toNat % x.n)) 64 = (s', .fail st va) →
      exec (.descriptorFetch p q) s = .next (s'.stopQueue p q 5)) ∧
    (x.n ≤ s.inflightOf p q + unconsumed x → exec (.descriptorFetch p q) s = .next s)

/-- The helm core dispatches the next command of the queue whose turn it is: it holds its cores and its
part of the staging region, whose bytes are undefined, from then on (R147, R219, R221, R235); a NOP ends
with its dispatch (R222). A descriptor that failed its validation ends with DEVICE_FAULT in its turn (log entry 15). -/
def Obligations.CommandDispatchComplete : Prop :=
  ∀ (p : Fin 16) (s : State) (q : Nat) (c : Cmd), s.mayDispatch p →
    s.pickQueue p (s.queueReady p) = some q →
    s.nextOf p q = some c →
    (∀ need, s.turnOf p c = .go need →
      let s1 := s.takeTurn p q
      let n := (s1.part p).nextOrder
      let s2 := (s1.updCmd p c fun y => { y with 
          dispatched := true, order := n, atm := need
          dst := if staged c then s1.rowDst p c else [] }).updPart p
        fun x => { x with nextOrder := n + 1 }
      let s3 := (s2.claimed p c).foldl
        (fun s i => s.updCore i fun x => { x with job := some (p, c.q, c.idx) }) s2
      let s3 := s3.junkAtm p (s3.cmdNow p c)
      exec (.commandDispatch p) s = .next (if c.op == opNop then s3.finish p c (endDone 0) else s3)) ∧
    (∀ d, c.bad = some d →
      exec (.commandDispatch p) s = .next ((s.takeTurn p q).finishIdle p c stDeviceFault d none))

/-- The 32 bytes of R229, field by field, for a command of the queue that ended as `e` says. -/
def recordFields (s : State) (p : Nat) (c : Cmd) (e : CmdEnd) : List Byte :=
  let x := (s.part p).queue c.q
  let unit := match e.unit with | some u => u.toNat | none => s.uPartHelm p
  let phase := x.cplTail.toNat / x.n % 2 == 0
  leBytes 4 c.tag ++ leBytes 2 (c.idx % x.n) ++ leBytes 1 c.op ++ leBytes 1 e.status.toNat
  ++ leBytes 2 e.detail.toNat ++ leBytes 2 unit
  ++ leBytes 4 (b2n phase + 2 * b2n e.logSeq.isSome + 4 * b2n e.kept)
  ++ leBytes 8 e.result.toNat ++ leBytes 8 (e.logSeq.getD 0)

/-- A settled command's record goes to the next completion slot; then come its counter addition and its
interrupt, and a status that does not continue stops the queue with reason 1 (R215, R228, R232). A
record that cannot be written is held and stops the queue with reason 6 (R231). What a quarantine had kept
back of the command's staged writes goes first (R238). A KERNEL with a faulted core ends with the fault of
its lowest-ranked one (R152). -/
def Obligations.CommandCompleteComplete : Prop :=
  ∀ (p : Fin 16) (q : Fin 64) (slot : BitVec 16) (s : State) (c : Cmd), s.heldCmds p q = [] →
    let settled := s.pickCmd p fun c => c.q == q && cmdSlot (s.part p) c == slot.toNat && c.held == 0
      && c.outcome.isSome
    (∀ e, settled = some c → c.outcome = some e → s.unmerged p c = false → (s.heldBack c).isEmpty →
      let s0 := s.applyRest p c
      let x := (s0.part p).queue c.q
      let write := s0.xwrite (s0.helmReq p) (x.cpl.toNat + 32 * (x.cplTail.toNat % x.n))
        (recordFields s0 p c e)
      (∀ s', write = (s', .ok ()) →
        let t := s'.afterRecord p c e
        let u := if endStops c e && ((t.part p).queue c.q).state == 1 then t.stopQueue p c.q 1 else t
        exec (.commandComplete p q slot) s = .next (u.genAfter p c.q)) ∧
      (∀ s' st va, write = (s', .fail st va) →
        exec (.commandComplete p q slot) s = .next (s'.holdRecord p c))) ∧
    (∀ k e, settled = none → s.rowCmd p q slot.toNat cmdFaulted = some c → c.prog = .kernel k →
      lowestFault k = some e → exec (.commandComplete p q slot) s = .next (s.endKernel p c k e))

/-- A write of PAR_Q_TAIL (R205): a disabled queue records 0x8023; a value at or above 2N, one that
exposes more than N descriptors and one behind the previous tail stop the queue with reason 3 and
record 0x8022; any other value becomes the tail. -/
def Obligations.DoorbellRule : Prop :=
  ∀ (a : Agent) (p : Fin 16) (q : Fin 64) (v : Word) (s : State),
    s.hasAccess a (qBase p q + 0x14) → s.enabled p → s.quarantined a = false →
    let x := (s.part p).queue q
    let n2 := 2 * x.n
    let t := v.toNat % 2 ^ 17
    let exposed := (t + n2 - x.head.toNat) % n2
    (x.state = 0 →
      exec (.queueDoorbell a p q v) s = .next (s.eventP 0x8023 (s.uid a) p)) ∧
    (x.state ≠ 0 →
      n2 ≤ t ∨ x.n < exposed ∨ exposed < (x.tail.toNat + n2 - x.head.toNat) % n2 →
      exec (.queueDoorbell a p q v) s = .next ((s.stopQueue p q 3).eventP 0x8022 (s.uid a) p)) ∧
    (x.state ≠ 0 → t < n2 → exposed ≤ x.n → (x.tail.toNat + n2 - x.head.toNat) % n2 ≤ exposed →
      exec (.queueDoorbell a p q v) s =
        .next (s.updQueue p q fun x => { x with tail := BitVec.ofNat 17 t }))

/-- What PAR_Q_CTL does before and after its enable bit: LOG2N, which an enabled queue keeps, PRIO and
VEC; then STOP and RESUME (R210). -/
def queueFields (s : State) (a : Agent) (p q v : Nat) : State :=
  let x := (s.part p).queue q
  let n := v / 2 % 32
  let s := if x.en then (if n = x.log2n.toNat then s else s.eventP 0x4002 (s.uid a) p)
    else if 4 ≤ n ∧ n ≤ 16 then s.updQueue p q fun x => { x with log2n := BitVec.ofNat 5 n }
    else s.event 0x8021 (s.uid a)
  s.updQueue p q fun x => { x with prio := BitVec.ofNat 2 (v / 64), vec := BitVec.ofNat 6 (v / 256) }

def queueOrders (s : State) (p q v : Nat) : State :=
  let s := if v / 2 ^ 14 % 2 = 1 ∧ ((s.part p).queue q).state = 1 then s.stopQueue p q 4 else s
  if v / 2 ^ 15 % 2 = 1 ∧ ((s.part p).queue q).state = 2 then
    (s.updQueue p q fun x => { x with state := 1, reason := 0 }).flushHeld p q
  else s

/-- PAR_Q_EN: the enable checks the rings and runs the queue, or leaves it disabled with reason 5
(R203); the disable is ignored while the queue holds dispatched commands, and returns what was fetched
(R209, R210). STOP stops a running queue with reason 4, and RESUME sets a stopped one running. A write
of PAR_Q_HEAD moves it while the queue is stopped and at most N descriptors are then exposed; any
other write is ignored (R210). A port in quarantine drops a doorbell (log entry 31). -/
def Obligations.QueueRegistersComplete : Prop :=
  (∀ (a : Agent) (p : Fin 16) (q : Fin 64) (v : Word) (s : State),
    s.hasAccess a (qBase p q + 0x10) → s.parOpen p →
    let on := v.toNat / 2 * 2 + 1
    let off := v.toNat / 2 * 2
    (((s.part p).queue q).en = false →
      let s1 := queueFields s a p q on
      (s1.ringsOk p q = true → exec (.queueEnable a p q v) s = .next (queueOrders
        (s1.updQueue p q fun x => { x with en := true, state := 1 }) p q on)) ∧
      (s1.ringsOk p q = false → exec (.queueEnable a p q v) s = .next (queueOrders
        (s1.updQueue p q fun x => { x with reason := 5 }) p q on))) ∧
    (((s.part p).queue q).en = true →
      let s1 := queueFields s a p q off
      ((s1.part p).cmds.any (fun c => c.q == q && !cmdReturns q c) = true →
        exec (.queueDisable a p q v) s = .next (queueOrders s1 p q off)) ∧
      ((s1.part p).cmds.any (fun c => c.q == q && !cmdReturns q c) = false →
        exec (.queueDisable a p q v) s = .next (queueOrders
          ((s1.returnFetched p q).updQueue p q fun x => { x with en := false, state := 0 }) p q off))) ∧
    (((s.part p).queue q).en = true → v.toNat % 2 = 1 →
      ((s.part p).queue q).log2n.toNat = v.toNat / 2 % 32 →
      (((s.part p).queue q).state = 1 → v.toNat / 2 ^ 15 % 2 = 0 →
        exec (.parQStop a p q v) s = .next ((queueFields s a p q v.toNat).stopQueue p q 4)) ∧
      (((s.part p).queue q).state = 2 → exec (.parQResume a p q v) s =
        .next (((queueFields s a p q v.toNat).updQueue p q
          fun x => { x with state := 1, reason := 0 }).flushHeld p q)))) ∧
  (∀ (a : Agent) (p : Fin 16) (q : Fin 64) (v : Word) (s : State),
    s.hasAccess a (qBase p q + 0x18) → s.parOpen p →
    let x := (s.part p).queue q
    let h := v.toNat % 2 ^ 17
    (x.state = 2 → h < 2 * x.n → (x.tail.toNat + 2 * x.n - h) % (2 * x.n) ≤ x.n →
      exec (.queueHeadWrite a p q v) s =
        .next (s.updQueue p q fun x => { x with head := BitVec.ofNat 17 h })) ∧
    (x.state ≠ 2 ∨ x.n < (x.tail.toNat + 2 * x.n - h) % (2 * x.n) →
      exec (.queueHeadWrite a p q v) s = .next s) ∧
    (s.hasAccess a (qBase p q + 0x14) → s.quarantined a = true →
      exec (.queueDoorbell a p q v) s = .next s))

/-- PAR_EVC_ADD adds its 16 bits to the selected counter in one step; a counter that would pass 2⁶⁴ −
1 stays there and records 0x4003; 0 has no effect (R213, R218). A counter never falls by an addition
and never wraps. -/
def Obligations.EventCountersSaturate : Prop :=
  (∀ (a : Agent) (p : Fin 16) (v : Word) (s : State),
    s.hasAccess a (parBase p + 0x60C) → s.parOpen p →
    let i := (s.part p).evcIdx.toNat
    let n := v.toNat % 2 ^ 16
    let old := (s.evc p i).toNat
    let put := fun (w : Nat) => s.updPart p fun x => { x with evc := SMap.set 0 x.evc i (BitVec.ofNat 64 w) }
    (n = 0 → exec (.evcAdd a p v) s = .next s) ∧
    (n ≠ 0 → old + n < 2 ^ 64 → exec (.evcAdd a p v) s = .next (put (old + n))) ∧
    (n ≠ 0 → 2 ^ 64 ≤ old + n → exec (.evcAdd a p v) s =
      .next ((put (2 ^ 64 - 1)).eventP 0x4003 (s.uPartHelm p) p))) ∧
  (∀ (s : State) (p i n : Nat),
    ((s.evcAdd p i n).evc p i).toNat = min ((s.evc p i).toNat + n) (2 ^ 64 - 1) ∧
    (∀ j, j ≠ i → (s.evcAdd p i n).evc p j = s.evc p j) ∧
    (∀ q, q ≠ p → (s.evcAdd p i n).part q = s.part q) ∧
    (2 ^ 64 ≤ (s.evc p i).toNat + n ↔ ((s.evcAdd p i n).log.nextSeq ≠ s.log.nextSeq)))

/-- FENCE waits to be the oldest; SIGNAL_ADD, SIGNAL_SET and WAIT act on their counter and give its
value; a NOP ends; MARK writes its variable record under the next sequence number (R222, R226, R227).
A data command that meets no held and no failing line ends DONE with its byte count, its source moved
piece by piece in ascending address; a failure ends it with its status, RESULT naming the address
(R224, R225, R230). -/
def Obligations.QueueCommandsComplete : Prop :=
  (∀ (p : Fin 16) (q : Fin 64) (slot : BitVec 16) (s : State) (c : Cmd),
    (s.rowCmd p q slot.toNat (isFence 0) = some c →
      ((s.part p).cmds.find? fun y => y.q == c.q) = some c →
      exec (.fence p q slot) s = .next (s.finish p c (endDone 0))) ∧
    (s.rowCmd p q slot.toNat (isFence 1) = some c →
      let t := s.evcAdd p (sCtr c) (sValue c)
      exec (.signalAdd p q slot) s = .next (t.finish p c (endDone (t.evc p (sCtr c)).toNat))) ∧
    (s.rowCmd p q slot.toNat (isFence 2) = some c →
      exec (.signalSet p q slot) s =
        .next ((s.evcSet p (sCtr c) (BitVec.ofNat 64 (sValue c))).finish p c (endDone (sValue c)))) ∧
    (s.rowCmd p q slot.toNat (isFence 3) = some c → sValue c ≤ (s.evc p (sCtr c)).toNat →
      exec (.wait p q slot) s = .next (s.finish p c (endDone (s.evc p (sCtr c)).toNat))) ∧
    (s.rowCmd p q slot.toNat (·.op == opNop) = some c →
      exec (.nop p q slot) s = .next (s.finish p c (endDone 0))) ∧
    (s.rowCmd p q slot.toNat (·.op == opMark) = some c →
      exec (.mark p q slot) s = .next ((s.record {
          code := 0xF002, unit := s.uPartHelm p, part := some p.val,
          var := some (48, [(0x10, 1, p.val), (0x18, 8, markTime c), (0x20, 4, markLabel c),
            (0x28, 8, s.log.optime.toNat)]) }).finish p c
        (endWith stDone 0 s.log.optime.toNat false none (some s.seqNext))))) ∧
  (∀ (p : Fin 16) (q : Fin 64) (slot : BitVec 16) (s : State) (c : Cmd),
    let fill := fun (word : Nat) => moveGo p c (fDst c) (fun s off n =>
      (s, .ok ((List.range n).map fun i => (leBytes 8 word).getD ((off + i) % 8) 0)))
      (piecesOf (fDst c) (fLen c)) s
    let copy := moveGo p c (cDst c) (fun s off n =>
      s.xread (s.moverReq p (cSrc c + off)) (cSrc c + off) n) (piecesOf (cDst c) (cLen c)) s
    (s.rowCmd p q slot.toNat (fun c => c.op == opCopy && !isMigrate c) = some c →
      (cDst c + cLen c ≤ cSrc c ∨ cSrc c + cLen c ≤ cDst c) →
      (∀ t, copy = (t, .ok ()) →
        exec (.copy p q slot) s = .next (t.finish p c (endDone (cLen c)))) ∧
      (∀ t st m, copy = (t, .fail st m) →
        (staged c = true → exec (.copy p q slot) s = .next (t.finish p c (endAt st m true))) ∧
        (staged c = false → exec (.copy p q slot) s =
          .next ((t.scramble p (cDst c) (cLen c)).finish p c (endAt st m false))))) ∧
    (s.rowCmd p q slot.toNat (fun c => c.op == opFill && !fScrub c) = some c →
      ∀ t, fill (fPattern c) = (t, .ok ()) →
        exec (.fill p q slot) s = .next (t.finish p c (endDone (fLen c)))) ∧
    (s.rowCmd p q slot.toNat (fun c => c.op == opFill && fScrub c) = some c →
      ∀ t, fill 0 = (t, .ok ()) →
        exec (.scrub p q slot) s = .next (t.finish p c (endDone (fLen c)))))

/-- A KERNEL's cores take the program and arguments of its image, ranks ascending with the core index,
every register but the fault address and error counts zero, and run from index 0 (R147, R148). -/
def Obligations.KernelStartComplete : Prop :=
  ∀ (p : Fin 16) (q : Fin 64) (slot : BitVec 16) (s : State) (c : Cmd),
    s.rowCmd p q slot.toNat (fun c => c.op == opKernel && c.prog == .none) = some c →
    let cores := (kCores c).filterMap (s.coreAt p)
    (cores.length ≠ (kCores c).length →
      exec (.kernel p q slot) s = .next (s.finish p c (endWith stDeviceFault 0x0206 0 true))) ∧
    (∀ t h code args, cores.length = (kCores c).length →
      s.readImage p c = (t, .ok (h, code, args)) →
      (imageOk h = false →
        exec (.kernel p q slot) s = .next (t.finish p c (endWith stDeviceFault 0x10 0 true))) ∧
      (imageOk h = true →
        exec (.kernel p q slot) s = .next (cores.zipIdx.foldl (fun s e =>
          (s.updCore e.1 fun x => { x with
            d := [], x := [], v := [], banks := [], feeds := [], ctx := {}, slots := [], cc := []
            loops := [], ibuf := code.zipIdx.foldl (fun m e => SMap.set 0 m e.2 e.1) []
            count := code.length, args := args, argVa := kArgs c, qa := [], qb := [], qv := []
            dmas := [], issued := 0, job := some (p, c.q, c.idx)
            regs := { x.regs with state := 1, rank := BitVec.ofNat 8 e.2, pc := 0, cause := 0
                                  funit := 0 } }).queueWake (islandOfCluster (clusterOf e.1)))
          (t.updCmd p c fun y => { y with prog := .kernel { cores := cores } }))))

/-! Registers. A row that names one bit of a register is the write of the word with that bit set or
clear; `v` is the rest of the word. -/

/-- A write of the root, the table base or the table limit sets the register and drops every cached
translation of the partition (R171, R172), and the engine's upper-half tables, when it runs, are written
anew (the model's choice, log entry 8). PAR_XLT_INV starts an invalidation of the range that it
names, which INVALIDATION_DONE carries out; one that comes while another runs is ignored with 0x1012
(R173). PAR_PLT_EN = 1 checks the route table and the region and then runs with the counter latched,
or reads back 0 with its reason; PAR_PLT_EN = 0 sends every staged leaf home (R188, R189). -/
def Obligations.TranslationAndPilotRegisters : Prop :=
  (∀ (a : Agent) (p : Fin 16) (v : Word) (s : State), s.parOpen p →
    let write := fun (f : Xlt → Xlt) =>
      ((s.updPart p fun x => { x with xlt := f x.xlt }).updPart p fun x =>
        { x with xlt := xltDrop x.xlt 0 (2 ^ 56) }).kvRebuild p
    let x := (s.part p).xlt
    (s.hasAccess a (parBase p + 0x400) → exec (.xltRootWrite a p 0 v) s = .next (write fun x =>
      { x with rootAddr := BitVec.ofNat 28 v.toNat, en := v.getLsbD 31 })) ∧
    (s.hasAccess a (parBase p + 0x404) → exec (.xltRootWrite a p 1 v) s = .next (write fun x =>
      { x with base := BitVec.ofNat 27 v.toNat })) ∧
    (s.hasAccess a (parBase p + 0x408) → exec (.xltRootWrite a p 2 v) s = .next (write fun x =>
      { x with last := BitVec.ofNat 27 v.toNat })) ∧
    (s.hasAccess a (parBase p + 0x414) →
      (x.invBusy = true →
        exec (.xltInvalidate a p v) s = .next (s.eventP 0x1012 (s.uid a) p)) ∧
      (x.invBusy = false → 12 ≤ v.toNat % 64 → v.toNat % 64 ≤ 56 →
        exec (.xltInvalidate a p v) s = .next
          ((s.updPart p fun x => { x with xlt := { x.xlt with invLog2 := BitVec.ofNat 6 v.toNat } }).updPart
            p fun y => { y with xlt := { y.xlt with
              invBusy := true, runVa := y.xlt.invVa.toNat / 2 ^ y.xlt.invLog2.toNat * 2 ^ y.xlt.invLog2.toNat
              runLog2 := y.xlt.invLog2.toNat } }))) ∧
    (x.invBusy = true → exec (.invalidationDone p) s = .next (s.updPart p fun y => { y with
      xlt := { xltDrop x x.runVa (2 ^ x.runLog2) with invBusy := false } }))) ∧
  (∀ (a : Agent) (p : Fin 16) (v : Word) (s : State), s.parOpen p →
    s.hasAccess a (parBase p + 0x500) →
    let set := fun (w : Nat) => s.updPart p fun x => { x with plt := { x.plt with
      entries := BitVec.ofNat 12 (w / 2), ctr := BitVec.ofNat 12 (w / 2 ^ 13) } }
    let x := ((set (v.toNat / 2 * 2 + 1)).part p).plt
    let bytes := 32 * (x.entries.toNat + 1)
    let on := (set (v.toNat / 2 * 2 + 1)).touchTables p x.tableVa.toNat bytes
    ((s.part p).plt.en = false →
      (on.pinnedRange p x.tableVa.toNat bytes false = false →
        exec (.pilotEnable a p v) s = .next (on.updPart p fun y => { y with
          plt := { y.plt with en := false, err := 1 } })) ∧
      (∀ t bs, on.pinnedRange p x.tableVa.toNat bytes false = true →
        on.peek p x.tableVa.toNat bytes = (t, some bs) →
        regionOk (t.part p) = true →
        (((List.range (x.entries.toNat + 1)).map fun i => (bs.drop (32 * i)).take 32).any
          (routeBad x.period.toNat)) = false →
        exec (.pilotEnable a p v) s = .next (t.updPart p fun y => { y with plt := { y.plt with
          en := true, run := true, err := 0, c0 := t.evc p x.ctr.toNat
          route := ((List.range (x.entries.toNat + 1)).map fun i => (bs.drop (32 * i)).take 32).map routeOf
          nextK := [], active := [], staged := [], ringPos := 0 } }))) ∧
    ((s.part p).plt.en = true →
      exec (.pilotDisable a p v) s = .next ((set (v.toNat / 2 * 2)).pilotOff p)))

/-- PAR_GEN_CTL and PAR_GEN_REQ_TAIL: a failed check of the enable leaves its reason, a good descriptor
starts the engine; the disable ends every request once no step runs; PARK parks at once between steps,
and leaving it opens a new epoch (R290, R328). -/
def Obligations.ServingControlComplete : Prop :=
  ∀ (a : Agent) (p : Fin 16) (v : Word) (s : State), s.parOpen p →
    let g := s.gen p
    (s.hasAccess a (parBase p + 0x900) → v.getLsbD 1 = g.park →
      (g.en = false → g.active = false →
        let s0 := s.touchTables p g.descVa.toNat 256
        (s0.pinnedRange p g.descVa.toNat 256 false = false → exec (.genEnable a p v) s =
          .next (s0.updPart p fun x => { x with gen := { x.gen with err := 1 } })) ∧
        (∀ s1 b, s0.pinnedRange p g.descVa.toNat 256 false = true →
          s0.peek p g.descVa.toNat 256 = (s1, some b) →
          let d := genDescOf b
          let u := s1.genTouch p d
          u.genRingsBad p d = false → genFieldsBad b = false → stepQueueBad (u.part p) d.stepQ = false →
          ∀ s2 s3 tb pb, u.peek p d.tplVa (64 * d.tplN) = (s2, some tb) → templateBad d tb = false →
          s2.peek p d.poolVa (16 * d.poolN) = (s3, some pb) →
          (∀ i, i < d.poolN → s3.extentBad d ((pb.drop (16 * i)).take 16) = false) →
          exec (.genEnable a p v) s = .next (((s3.kvClear p).updGen p fun g =>
            { en := true, park := g.park, descVa := g.descVa, reqTail := g.reqTail
              reqHead := g.reqHead, evtTail := g.evtTail, evtHead := g.evtHead
              state := if g.park then 2 else 1, desc := d, extents := poolOf d pb }).scramble p d.dirVa
                (dirEntryBytes d * d.dirN)))) ∧
      (g.en = true → g.active = true → g.step.isNone → exec (.genDisable a p v) s =
        .next ((s.updPart p fun x => { x with gen := { x.gen with
          en := false, stopping := x.gen.active } }).genEnd p)) ∧
      (g.en = true → g.active = true → g.step.isSome → exec (.genDisable a p v) s =
        .next (s.updPart p fun x => { x with gen := { x.gen with
          en := false, stopping := x.gen.active } }))) ∧
    (s.hasAccess a (parBase p + 0x900) → v.getLsbD 0 = true → g.en = true →
      (g.park = false → exec (.genPark a p v) s = .next (s.updPart p fun x => { x with
        gen := { x.gen with
          park := true
          state := if x.gen.state = 1 ∧ x.gen.step.isNone then 2 else x.gen.state } })) ∧
      (g.park = true → exec (.genUnpark a p v) s = .next (s.genParkOff p))) ∧
    (s.hasAccess a (parBase p + 0x90C) → s.quarantined a = false →
      (g.active = true → tailOk g.reqN g.reqHead.toNat g.reqTail.toNat (v.toNat % 2 ^ 17) = true →
        exec (.genReqDoorbell a p v) s = .next (s.updPart p fun x => { x with
          gen := { x.gen with reqTail := BitVec.ofNat 17 (v.toNat % 2 ^ 17) } })) ∧
      (g.active = false ∨ tailOk g.reqN g.reqHead.toNat g.reqTail.toNat (v.toNat % 2 ^ 17) = false →
        exec (.genReqDoorbell a p v) s = .next (s.eventP 0x4001 (s.uid a) p)))

/-- PAR_SND_EN = 1 with a legal size checks the table's place (R339). PAR_EN: the write of a disabled
partition's PAR_CTL sets its fields and starts the enable (R415, R418); PAR_EN = 0 starts the teardown
of an enabled one (R432) and is held during an enable (R420). -/
def Obligations.SoundingsAndPartitionControlComplete : Prop :=
  ∀ (a : Agent) (p : Fin 16) (v : Word) (s : State),
    (s.parOpen p → s.hasAccess a (parBase p + 0xA00) → (s.part p).snd.en = false →
      6 ≤ v.toNat / 2 % 32 → v.toNat / 2 % 32 ≤ 16 →
      let t := (s.updPart p fun x => { x with snd := { x.snd with queue := BitVec.ofNat 6 (v.toNat / 64) } }).updPart
        p fun x => { x with snd := { x.snd with log2n := BitVec.ofNat 5 (v.toNat / 2) } }
      let ok := t.pinnedRange p (t.part p).snd.base.toNat (128 * (t.part p).snd.n) false
      exec (.sndEnable a p v) s = .next (t.updPart p fun x => { x with
        snd := { x.snd with en := ok, err := !ok } })) ∧
    (s.hasAccess a (parBase p) → (s.part p).state = 0 →
      let f := ctlFields (s.part p) (v.toNat / 2 * 2 + 1)
      let t := s.updPart p fun _ => { f.1 with en := true }
      exec (.partitionEnable a p v) s =
        .next ((if f.2 then t.event 0x8021 (s.uid a) else t).startEnable p)) ∧
    (s.hasAccess a (parBase p) → (s.part p).state ≠ 0 →
      exec (.partitionEnable a p v) s = .next (s.eventP 0x6001 (s.uid a) p)) ∧
    (s.hasAccess a (parBase p) → (s.part p).state = 2 →
      exec (.partitionTeardown a p v) s = .next ((s.updPart p fun x =>
        { x with state := 3, en := false }).startReset
          ⟨.partition, p, true, BitVec.ofNat 16 s.uMgmt, false⟩)) ∧
    (s.hasAccess a (parBase p) → (s.part p).state = 1 →
      exec (.partitionTeardown a p v) s = .next (s.updPart p fun x => { x with heldDisable := true }))

/-- The state with the fields of MOD_RESET set to a kind, a target and SCRUB. -/
def withReset (s : State) (kind target : Nat) (scrub : Bool) : State :=
  { s with rst := { s.rst with kind := BitVec.ofNat 2 kind, target := BitVec.ofNat 8 target, scrub := scrub } }

/-- MOD_RESET with GO: with no reset of the host running, past S9 and with its target present, the
reset starts and MOD_RST_ERR reads 0; else MOD_RST_ERR names the reason (R464, R467). A module reset
is accepted whenever the module is powered; its groups' other members are told with LEAVE, and it leaves
nothing running (R264, R464). The end of a reset: one
that no wider reset covers ends with every reset that it covers, each with its record, and its cores
are idle again (R466). -/
def Obligations.ResetsComplete : Prop :=
  (∀ (a : Agent) (s : State), s.hasAccess a 0x210 →
    let start := fun (kind : ResetKind) (k t : Nat) (scrub : Bool) =>
      ({ withReset s k t scrub with rst := { (withReset s k t scrub).rst with err := 0 } }).startReset
        ⟨kind, t, scrub, BitVec.ofNat 16 (s.uid a), true⟩
    (resetBusy s = true →
      (∀ c, exec (.coreReset a c) s = .next (s.resetErr 1)) ∧
      (∀ cl, exec (.clusterReset a cl) s = .next (s.resetErr 1)) ∧
      (∀ p scrub, exec (.partitionReset a p scrub) s = .next (s.resetErr 1))) ∧
    (resetBusy s = false → s.reachedS9 = true →
      (∀ c : Fin 192, s.resetAbsent 0 c = false →
        exec (.coreReset a c) s = .next (start .core 0 c false)) ∧
      (∀ cl : Fin 32, s.resetAbsent 1 cl = false →
        exec (.clusterReset a cl) s = .next (start .cluster 1 cl false)) ∧
      (∀ (p : Fin 16) (scrub : Bool), s.resetAbsent 2 p = false →
        exec (.partitionReset a p scrub) s = .next (start .partition 2 p scrub)) ∧
      (∀ p scrub, s.resetAbsent 2 p.val = true →
        exec (.partitionReset a p scrub) s = .next ((withReset s 2 p scrub).resetErr 2))) ∧
    exec (.moduleReset a) s = .next ((((List.range 16).foldl (fun s p => s.leaveGroups p)
      ((withReset s 3 0 false).resetRecord 0x7020
        ⟨.module, 0, false, BitVec.ofNat 16 (s.uid a), false⟩)).wiped 1).startS0
      (some (BitVec.ofNat 16 (s.uid a))))) ∧
  (∀ (k : ResetKind) (target : Nat) (s : State) (r : RunningReset),
    (s.rst.running.find? fun r => r.kind == k && r.target == target) = some r →
    ((s.rst.running.any fun x => s.resetCovers x r && !s.resetCovers r x) = true →
      exec (.resetEnd k target) s = .next s) ∧
    ((s.rst.running.any fun x => s.resetCovers x r && !s.resetCovers r x) = false →
      (k = .core → exec (.resetEnd k target) s = .next ((s.endResets r).releaseCores [target])) ∧
      (k = .cluster →
        exec (.resetEnd k target) s = .next ((s.endResets r).releaseCores (clusterCores target))) ∧
      (∀ t, k = .partition → s.absorbAll target = .on t →
        exec (.resetEnd k target) s = .next (((t.finishPartReset target
          ((s.rst.running.filter fun x => s.resetCovers r x).any
            fun x => x.kind == .partition && x.scrub)).endResets r).afterPartReset target))))

/-- The security engine: a report that can be served waits for its turn, else SEC_ERR names the reason
(R444); each turn serves the oldest operation that is its own (R439); SEC_REVOKE0 revokes slot 0 of a
module that runs signed firmware from slot 1, and SEC_SVN_MIN takes a value from its own up to
SEC_SVN_RUN (R443). -/
def Obligations.SecurityRequestsComplete : Prop :=
  ∀ (a : Agent) (s : State),
    (s.hasAccess a 0x60014 → s.sec.busy = false → s.sec.fwState = 1 → s.sec.failed = false →
      s.idExhausted = false →
      let ask := fun (kind p : Nat) => ({ s with sec := { s.sec with
        part := BitVec.ofNat 4 p, kind := BitVec.ofNat 2 kind, err := 0, outLen := 0, out := []
        busy := true, waiting := s.sec.waiting ++ [.report kind p] } } : State)
      (∀ p : Fin 16, s.enabled p = true → exec (.partitionReport a p) s = .next (ask 1 p)) ∧
      exec (.moduleReport a) s = .next (ask 2 0)) ∧
    (s.hasAccess a 0x60014 → s.sec.busy = true →
      (∀ p, exec (.partitionReport a p) s = .next { s with sec := { s.sec with err := 4 } }) ∧
      exec (.moduleReport a) s = .next { s with sec := { s.sec with err := 4 } }) ∧
    (s.hasAccess a 0x60008 → s.sec.fwState = 1 → s.sec.fwSlot = true →
      exec (.secRevoke0 a) s =
        .next (({ s with sec := { s.sec with slot0Revoked := true } }).event 0x6022 s.uSec)) ∧
    (∀ v : BitVec 16, s.hasAccess a 0x60004 →
      (s.svnMin ≤ v.toNat → v.toNat ≤ s.sec.svnRun.toNat →
        exec (.secSvnMinWrite a v) s = .next (s.prsOwn svnWord
          (BitVec.ofNat 64 ((s.prsWord svnWord).toNat / 2 ^ 16 * 2 ^ 16 + v.toNat)))) ∧
      (v.toNat < s.svnMin ∨ s.sec.svnRun.toNat < v.toNat →
        exec (.secSvnMinWrite a v) s = .next s)) ∧
    (s.sec.failed = false → s.reachedS9 = true →
      let t : State := { s with sec := { s.sec with turn := (s.sec.turn + 1) % 17 } }
      ((t.sec.waiting.find? fun o => opTurn o == s.sec.turn && t.opReady o) = none →
        exec .secTurn s = .next t) ∧
      (∀ o, (t.sec.waiting.find? fun o => opTurn o == s.sec.turn && t.opReady o) = some o →
        exec .secTurn s = .next (({ t with sec := { t.sec with
          waiting := t.sec.waiting.erase o } }).serveOp o)))

/-- The persistent store: a LO half of a host word is held, and the HI half that follows commits the
word and counts it, unless it is worn (R503, R504); PRS_REMAP_GO directs the selected word to a spare,
whose count starts at 0 (R505). LOG_CLR and LOG_PCLEAR move their floors to the number of the record
that says so (R515). -/
def Obligations.PersistentStoreAndLogComplete : Prop :=
  ∀ (a : Agent) (i : Fin 4096) (v : Word) (s : State),
    (2048 ≤ i.val → s.hasAccess a (0x40000 + 8 * i) → exec (.prsLoWrite a i v) s =
      .next { s with prs := { s.prs with held := [(2 * i.val, v)] } }) ∧
    (∀ lo, 2048 ≤ i.val → s.hasAccess a (0x40004 + 8 * i) → s.prs.held = [(2 * i.val, lo)] →
      (SMap.get 0 s.prs.count i < 999999 → exec (.prsHiWrite a i v) s =
        .next { s with prs := { s.prs with
          held := [], words := SMap.set 0 s.prs.words i (v ++ lo)
          count := SMap.modify 0 s.prs.count i (· + 1) } }) ∧
      (1000000 ≤ SMap.get 0 s.prs.count i → exec (.prsHiWrite a i v) s =
        .next (({ s with prs := { s.prs with held := [], writeErr := true } }).event 0x7031 (s.uid a)))) ∧
    (s.hasAccess a 0x48008 → 2048 ≤ s.prs.idx.toNat →
      (s.prs.sparesUsed < 512 → exec (.prsRemapGo a) s = .next (({ s with prs := { s.prs with
          held := [], remap := SMap.set 0 s.prs.remap s.prs.idx.toNat (s.prs.sparesUsed + 1)
          sparesUsed := s.prs.sparesUsed + 1
          count := SMap.set 0 s.prs.count s.prs.idx.toNat 0 } }).event 0x7032 s.uMgmt)) ∧
      (512 ≤ s.prs.sparesUsed → exec (.prsRemapGo a) s =
        .next { s with prs := { s.prs with held := [], remapErr := true } })) ∧
    (s.hasAccess a 0x50010 → exec (.logClr a) s =
      .next (({ s with log := { s.log with floor := s.seqNext } }).record
        { code := 0xF001, unit := s.uid a, arg0 := some s.log.floor })) ∧
    (s.hasAccess a 0x50010 → exec (.logPclear a) s =
      .next ((s.record { code := 0xF001, unit := s.uid a
                         arg0 := some ((s.prsWord 1049).toNat % 2 ^ 48) }).prsOwn 1049
        (BitVec.ofNat 64 s.seqNext)))

/-- PL_CTL and UL_CTL: DISABLE takes a link or port out of service and writing 0 trains it again, RETRAIN
trains it, and QCLR ends its quarantine with the lanes it has, each with its event (R257, R258, R495,
R496); a bit that finds nothing to do leaves the link or port alone. PL_CE_LOG2 takes a value from 10 to
30, and 0x8021 records another one. A change of what serves changes the routes (R253). -/
def Obligations.LinkControlRegistersComplete : Prop :=
  ∀ (a : Agent) (s : State),
    (∀ (l : Fin 64), s.hasAccess a (plBase l + 4) →
      let ce := fun (n : Nat) => if 10 ≤ n ∧ n ≤ 30 then
          s.updLink l fun k => { k with ceLog2 := BitVec.ofNat 5 n }
        else s.event 0x8021 (s.uid a)
      let same := ce (s.link l).ceLog2.toNat
      let train := fun (s : State) => s.withService l fun s =>
        s.updLink l fun k => { k with state := 1, replayCount := 0, fails := 0 }
      (∀ v : Word, v.toNat % 8 < 2 →
        let t := ce (v.toNat / 256 % 32)
        (v.toNat % 2 = b2n (s.link l).disable → exec (.plDisable a l v) s = .next t) ∧
        (v.toNat % 2 = 1 → (s.link l).disable = false →
          exec (.plDisable a l v) s = .next (t.withService l fun s =>
            (s.updLink l fun k => { k with disable := true, state := 0, lanes := 0 }).emit
              (.control l true true))) ∧
        (v.toNat % 2 = 0 → (s.link l).disable = true → s.stepDone 8 = true → s.connected l = true →
          exec (.plDisable a l v) s = .next (train
            ((t.updLink l fun k => { k with disable := false }).emit (.control l false true)))) ∧
        (v.toNat % 2 = 0 → (s.link l).disable = true → s.stepDone 8 = false ∨ s.connected l = false →
          exec (.plDisable a l v) s = .next
            ((t.updLink l fun k => { k with disable := false }).emit (.control l false true)))) ∧
      ((s.link l).disable = false → s.stepDone 8 = true → s.connected l = true →
        exec (.plRetrain a l) s = .next (train same)) ∧
      ((s.link l).disable = true ∨ s.stepDone 8 = false ∨ s.connected l = false →
        exec (.plRetrain a l) s = .next same) ∧
      ((s.link l).quar = true →
        exec (.plQclr a l) s = .next (same.withService l fun s =>
          ((s.updLink l fun k => { k with
            quar := false, window := 0
            state := if k.state == 4 then (if k.lanes == 2 then 2 else 3) else k.state }).event 0x3005
              (uLink l)).emit (.control l false false))) ∧
      ((s.link l).quar = false → exec (.plQclr a l) s = .next same)) ∧
    (∀ (u : Fin 2), s.hasAccess a (ulBase u + 4) →
      (∀ v : Word, v.toNat % 8 < 2 →
        (v.toNat % 2 = b2n (s.port u).disable → exec (.ulDisable a u v) s = .next s) ∧
        (v.toNat % 2 = 1 → (s.port u).disable = false →
          exec (.ulDisable a u v) s =
            .next ((s.updPort u fun x => { x with disable := true }).portDown u 0)) ∧
        (v.toNat % 2 = 0 → (s.port u).disable = true → s.tileCut (3 * u) = false →
          exec (.ulDisable a u v) s =
            .next ((s.updPort u fun x => { x with disable := false }).portDown u 1)) ∧
        (v.toNat % 2 = 0 → (s.port u).disable = true → s.tileCut (3 * u) = true →
          exec (.ulDisable a u v) s = .next (s.updPort u fun x => { x with disable := false }))) ∧
      ((s.port u).disable = false → s.tileCut (3 * u) = false →
        exec (.ulRetrain a u) s = .next (s.portDown u 1)) ∧
      ((s.port u).disable = true ∨ s.tileCut (3 * u) = true →
        exec (.ulRetrain a u) s = .next s) ∧
      ((s.port u).quar = true →
        exec (.ulQclr a u) s = .next (((((s.updPort u fun x => { x with
          quar := false, window := 0
          state := if x.state == 4 then (if x.lanes == 4 then 2 else 3) else x.state }).event 0x8011
            (uPort u)).refreshRouted).releaseIrqs))) ∧
      ((s.port u).quar = false → exec (.ulQclr a u) s = .next s))

/-- A read of the LO half of a wide value answers its low word and leaves the high word in the HI half
(R17): the cycle count of a core, an event counter, the step and ordinal of a partition, a Loom's byte
count, the identity leaf, and the four Logbook values. -/
def Obligations.SnapshotReadsComplete : Prop :=
  ∀ (a : Agent) (s : State),
    (∀ c : Fin 192, s.hasAccess a (coreBase c + 0x18) →
      let n := (s.core c).regs.cycles.toNat + s.freeVal
      exec (.coreCyclesRead a c) s = .next (((s.countCycles c).updCore c fun x => { x with
        regs := { x.regs with cyclesHi := BitVec.ofNat 32 (n % 2 ^ 64 / 2 ^ 32) } }).emit
          (.read a (coreBase c + 0x18) (BitVec.ofNat 32 n)))) ∧
    (∀ p : Fin 16, s.enabled p = true →
      (s.hasAccess a (parBase p + 0x604) →
        let n := (s.evc p (s.part p).evcIdx.toNat).toNat
        exec (.evcValRead a p) s = .next ((s.updPart p fun x => { x with
          evcHi := BitVec.ofNat 32 (n / 2 ^ 32) }).emit
            (.read a (parBase p + 0x604) (BitVec.ofNat 32 n)))) ∧
      (s.hasAccess a (parBase p + 0x92C) →
        let n := (s.gen p).stepNo.toNat
        exec (.genStepRead a p) s = .next ((s.updPart p fun x => { x with
          gen := { x.gen with stepHi := BitVec.ofNat 32 (n / 2 ^ 32) } }).emit
            (.read a (parBase p + 0x92C) (BitVec.ofNat 32 n)))) ∧
      (s.hasAccess a (parBase p + 0x818) →
        let n := (s.part p).col.last.toNat
        exec (.colLastRead a p) s = .next ((s.updPart p fun x => { x with
          col := { x.col with lastHi := BitVec.ofNat 16 (n / 2 ^ 32) } }).emit
            (.read a (parBase p + 0x818) (BitVec.ofNat 32 n))))) ∧
    (∀ t : Fin 4, s.hasAccess a (loomBase t + 4) →
      let n := (s.loom t).bytes.toNat
      exec (.loomBytesRead a t) s = .next ((s.updLoom t fun x => { x with
        bytesHi := BitVec.ofNat 32 (n / 2 ^ 32) }).emit
          (.read a (loomBase t + 4) (BitVec.ofNat 32 n)))) ∧
    (s.hasAccess a 0x6000C → exec (.secLeafRead a) s = .next ((({ s with sec := { s.sec with
      leafHi := BitVec.ofNat 8 (s.sec.leaf / 2 ^ 32) } } : State)).emit
        (.read a 0x6000C (BitVec.ofNat 32 s.sec.leaf)))) ∧
    (s.hasAccess a 0x50000 → exec (.logValueRead a 0) s = .next ((({ s with log := { s.log with
      headHi := BitVec.ofNat 16 ((s.log.nextSeq - 1) / 2 ^ 32) } } : State)).emit
        (.read a 0x50000 (BitVec.ofNat 32 (s.log.nextSeq - 1))))) ∧
    (s.hasAccess a 0x50008 → exec (.logValueRead a 1) s = .next ((({ s with log := { s.log with
      oldestHi := BitVec.ofNat 16 (s.logOldest / 2 ^ 32) } } : State)).emit
        (.read a 0x50008 (BitVec.ofNat 32 s.logOldest)))) ∧
    (s.hasAccess a 0x50018 → exec (.logValueRead a 2) s = .next ((({ s with log := { s.log with
      pfloorHi := BitVec.ofNat 16 (s.pfloor / 2 ^ 32) } } : State)).emit
        (.read a 0x50018 (BitVec.ofNat 32 s.pfloor)))) ∧
    (s.hasAccess a 0x50028 → exec (.logValueRead a 3) s = .next ((({ s with log := { s.log with
      optimeHi := BitVec.ofNat 8 (s.log.optime.toNat / 2 ^ 32) } } : State)).emit
        (.read a 0x50028 (BitVec.ofNat 32 s.log.optime.toNat))))

/-- REGISTER_WRITE of fields that hold what is written: a value in range is there afterwards and nothing
else has changed; a reserved one keeps the old value and records 0x8021 (R17, R20, R34, R486). One
outside a helm core's reach is recorded with 0x6002 (R61). -/
def Obligations.RegisterWriteComplete : Prop :=
  ∀ (a : Agent) (v : Word) (s : State),
    (∀ addr : BitVec 24, s.agentLive a = true → s.agentReaches a addr.toNat = false →
      exec (.registerWrite a addr v) s = .next (s.event 0x6002 (s.uid a))) ∧
    (s.hasAccess a 0x104 →
      (v.toNat % 256 ≤ 191 → exec (.registerWrite a 0x104 v) s =
        .next { s with mod := { s.mod with lcoreSel := BitVec.ofNat 8 v.toNat } }) ∧
      (191 < v.toNat % 256 → exec (.registerWrite a 0x104 v) s = .next (s.event 0x8021 (s.uid a)))) ∧
    (s.hasAccess a 0x10008 →
      (1500 ≤ v.toNat % 65536 → v.toNat % 65536 ≤ 3600 → exec (.registerWrite a 0x10008 v) s =
        .next { s with pwr := { s.pwr with capW := BitVec.ofNat 16 v.toNat } }) ∧
      (v.toNat % 65536 < 1500 ∨ 3600 < v.toNat % 65536 →
        exec (.registerWrite a 0x10008 v) s = .next (s.event 0x8021 (s.uid a)))) ∧
    (s.hasAccess a 0x30004 → exec (.registerWrite a 0x30004 v) s =
      .next { s with cht := { s.cht with uid := BitVec.ofNat 16 v.toNat } }) ∧
    (s.hasAccess a 0x48000 → exec (.registerWrite a 0x48000 v) s =
      .next { s with prs := { s.prs with held := [], idx := BitVec.ofNat 12 v.toNat } }) ∧
    (∀ p : Fin 16, s.parOpen p = true → s.hasAccess a (parBase p + 0x600) →
      exec (.registerWrite a (BitVec.ofNat 24 (parBase p + 0x600)) v) s =
        .next (s.updPart p fun x => { x with evcIdx := BitVec.ofNat 12 v.toNat }))

/-! Migration, Pilot, patrol scrub, host memory, and the commands of the engines. -/

/-- MIGRATE marks the first page once every page of the range is mapped, unpinned, unpoisoned and has a
place in the destination, else ends with the status of the first check that fails (R178); a page that a
dispatched atomic command writes to waits (R174). The end of a page's copy repoints a leaf that still
holds what was marked, and goes on to the next page; a changed leaf is let go of, with 0x1030, and ends
the command with TRANSLATION (R177). What the copy's reads have lost is recovered at its new place
(R175). -/
def Obligations.MigrationComplete : Prop :=
  ∀ (p : Fin 16) (q : Fin 64) (slot : BitVec 16) (s : State) (c : Cmd),
    (s.rowCmd p q slot.toNat (fun c => isMigrate c && c.prog == .none) = some c →
      let r := s.touchTables p (cSrc c) (cLen c)
      ∀ gs, r.pages p (cSrc c) (cLen c) = .ok gs →
      (∀ g, (gs.find? fun g => leafPin g.leaf) = some g →
        exec (.migrate p q slot) s = .next (r.finish p c (endWith stProtection 0 g.va true))) ∧
      ((gs.find? fun g => leafPin g.leaf) = none →
        (∀ g, (gs.find? fun g => leafPsn g.leaf) = some g →
          exec (.migrate p q slot) s = .next (r.finish p c (endWith stPoison 0 g.va true))) ∧
        ((gs.find? fun g => leafPsn g.leaf) = none →
          (placeGo gs (mDstFrame c) (mDstFrame c + mDstLen c) = none →
            exec (.migrate p q slot) s = .next (r.finish p c (endWith stNoPages 0 0 true))) ∧
          (∀ m ms, placeGo gs (mDstFrame c) (mDstFrame c + mDstLen c) = some (m :: ms) →
            (r.atomicHolds p m.va m.size = true →
              exec (.migrate p q slot) s = .next (r.updCmd p c fun y => { y with
                prog := .migrate (m :: ms) 0 none })) ∧
            (∀ t e at_, r.atomicHolds p m.va m.size = false → r.markMig p m.va = some (t, e, at_) →
              exec (.migrate p q slot) s = .next (t.updCmd p c fun y => { y with
                prog := .migrate ({ m with slot := at_ } :: ms) 0
                  (some (BitVec.ofNat 64 (setMig e))) })))))) ∧
    (s.rowCmd p q slot.toNat isMigrate = some c →
      ∀ m todo moved e, c.prog = .migrate (m :: todo) moved (some e) → s.hostHeld = false →
      let a := s.frameOf p e.toNat
      let b := s.frameOf p (leafAt e.toNat (mDstTier c) m.frame)
      (∀ isl, s.copyAsleep a b m.size = some isl →
        exec (.migrationCopyDone p q slot) s = .next (s.queueWake isl)) ∧
      (s.copyAsleep a b m.size = none →
        let t := (s.copyPage a b m.size p m.va).1
        let lost := (s.copyPage a b m.size p m.va).2
        (∀ lvl at_ now, t.leafHeld p m.va e.toNat = some (lvl, at_, now) →
          exec (.migrationCopyDone p q slot) s = .next
            ((foundGo 8 (t.setLeaf p m.va lvl at_ now (leafAt now (mDstTier c) m.frame)) lost).migrateNext
              p c todo (moved + 1))) ∧
        (t.leafHeld p m.va e.toNat = none →
          exec (.migrationCopyDone p q slot) s = .next
            ((foundGo 8 (t.unmark p m e.toNat) lost).finish p c (endWith stTranslation 0 m.va)))))

/-- Pilot takes the triggered occurrence that comes next, but a STAGE only while fewer than four copy
(R184); a copy that ends moves its leaf to the staging frame and the home record is kept, or is given
up when the leaf has changed (R177, R183). PATROL_SCRUB senses the line with the error it finds there,
once the module is READY (R193). HOST_MEMORY_RESPONSE stores what the adapter answers with its
marking, which the access that meets it reports, through an own port or over a relay; a response that
breaks the protocol is counted and refused (R160, R494, R495). -/
def Obligations.PilotScrubAndHostMemory : Prop :=
  (∀ (p : Fin 16) (s : State), (s.part p).plt.run = true →
    let t := s.pilotDeadlines p
    let took := fun (i k : Nat) => t.updPart p fun y => { y with plt := { y.plt with
      nextK := SMap.set 0 y.plt.nextK i (k + 1) } }
    (∀ i k e, t.nextOccurrence p = some (i, k, e) →
      (e.release = true → exec (.pilotOccurrence p) s =
        .next (((took i k).startRelease p e).runAll p)) ∧
      (e.release = false → pilotCopies (s.part p).plt < 4 → exec (.pilotOccurrence p) s =
        .next ((took i k).startStage p i k e)) ∧
      (e.release = false → 4 ≤ pilotCopies (s.part p).plt → exec (.pilotOccurrence p) s = .next t)) ∧
    (t.nextOccurrence p = none → exec (.pilotOccurrence p) s = .next t) ∧
    (∀ n r m home, (t.part p).plt.active[n]? = some r → r.cur = some (m, home) → t.hostHeld = false →
      let a := t.frameOf p home.toNat
      let b : Frame := ⟨.bd, m.frame, 0⟩
      t.copyAsleep a b m.size = none →
      let u := (t.copyPage a b m.size p m.va).1
      let lost := (t.copyPage a b m.size p m.va).2
      (∀ lvl at_ now, u.leafHeld p m.va (setMig home.toNat) = some (lvl, at_, now) →
        exec (.pilotStageDone p n) s = .next
          ((foundGo 8 (((u.setLeaf p m.va lvl at_ now (leafAt now 0 m.frame)).homeRecord p).updPart p
            fun y => { y with
              plt := { y.plt.updRun n fun r => { r with cur := none, staged := r.staged + m.size } with
                staged := y.plt.staged ++
                  [{ va := m.va, size := m.size, home := home, frame := m.frame }] } }) lost).runAll p)) ∧
      (u.leafHeld p m.va (setMig home.toNat) = none →
        exec (.pilotStageDone p n) s = .next
          ((foundGo 8 ((u.unmark p m (setMig home.toNat)).updPart p fun y => { y with
            plt := y.plt.updRun n fun r => { r with cur := none } }) lost).runAll p)))) ∧
  (∀ (s : State),
    (∀ (u : Fin 40) (line : Nat) (err : Fin 5),
      let t := (lineOfUnit u line).1
      s.bu.ready = true → (lineOfUnit u line).2 = true → s.frameOk t (line * 64) = true →
      let s0 := if err.val = 0 then s else s.updTier t fun m => m.updLine line fun i => { i with err := err }
      let r := s0.senseLine t line none
      exec (.patrolScrub u line err [] false) s =
        .next (r.1.found (if r.2 then [(t, line)] else []))) ∧
    (∀ (u : Fin 2) (a : BitVec 56) (data : List Byte), portLive (s.port u) = true →
      (∀ poison, (s.port u).state ≠ 4 →
        exec (.hostMemoryResponse (.host u) a data poison 0) s =
          .next (s.hostResponse a.toNat data poison)) ∧
      (∀ poison, exec (.hostMemoryResponse (.host u) a data poison 1) s =
        .next ((s.updPort u fun x => { x with crcFail := satInc x.crcFail }).emit (.nack (uPort u) none 1))) ∧
      (∀ poison (reason : BitVec 8), reason.toNat ∈ ulReasons →
        exec (.hostMemoryResponse (.host u) a data poison reason) s =
          .next (s.ulViolation u reason.toNat))) ∧
    (∀ (l : Fin 64) (a : BitVec 56) (data : List Byte) (poison : Bool), linkRuns (s.link l) = true →
      exec (.hostMemoryResponse (.relay l) a data poison 0) s =
        .next (s.hostResponse a.toNat data poison)))

/-- The commands over rows: a batch, profile or table that is not as it must be ends with DEVICE_FAULT
and its detail; rows that go through in order end DONE with their count (R301 to R315, R339). -/
def Obligations.RowCommandsComplete : Prop :=
  ∀ (p : Fin 16) (q : Fin 64) (slot : BitVec 16) (s : State) (c : Cmd),
    (s.rowCmd p q slot.toNat (·.op == opAttend) = some c →
      ((s.gen p).active = false → exec (.attend p q slot) s =
        .next (s.finish p c (endWith stDeviceFault 0x1101 0 true))) ∧
      (∀ s1 x s2 rows, s.attendProfile p c = (s1, .inl x) → s1.readBatch p (c.va 0x28) = (s2, .ok rows) →
        let d := (s.gen p).desc
        let bad := rows.findIdx? fun r => decide (d.posMax < r.pos)
        let heads := rows.zipIdx.flatMap fun e => (List.range x.hq).map fun g => (e.1, e.2, g)
        let adds := rows.zipIdx.flatMap fun e => [false, true].flatMap fun v =>
          (List.range d.hkv).map fun h => (e.1, e.2, h, v)
        (∀ i, rowsBroken [] rows = some i → exec (.attend p q slot) s =
          .next (s2.finish p c (endWith stDeviceFault 0x1102 i true))) ∧
        (∀ i, rowsBroken [] rows = none → bad = some i → exec (.attend p q slot) s =
          .next (s2.finish p c (endWith stDeviceFault 0x1103 i true))) ∧
        (∀ s3 s4 n m, rowsBroken [] rows = none → bad = none →
          appendGo p c d (aLayer c) (if aAppend c then adds else []) s2 = (s3, .ok n) →
          attendGo p c x d heads s3 = (s4, .ok m) →
          exec (.attend p q slot) s = .next (s4.finish p c (endDone rows.length))))) ∧
    (s.rowCmd p q slot.toNat (·.op == opSample) = some c →
      (4 < saHead c ∨ saV c < 2 ∨ 1048576 < saV c → exec (.sample p q slot) s =
        .next (s.finish p c (endWith stDeviceFault 0x1104 0 true))) ∧
      (∀ s1 rows s2 n, saHead c ≤ 4 → 2 ≤ saV c → saV c ≤ 1048576 →
        s.readBatch p (c.va 0x20) = (s1, .ok rows) → sampleGo p c rows.zipIdx 0 s1 = (s2, .ok n) →
        exec (.sample p q slot) s = .next (s2.tickFree.finish p c (endDone n)))) ∧
    (s.rowCmd p q slot.toNat (·.op == opVerify) = some c →
      ∀ s1 rows s2 ts s3 n, s.readBatch p (c.va 0x18) = (s1, .ok rows) →
      tokensGo p c rows.zipIdx s1 = (s2, .ok ts) →
      verdictGo p c (verdictsGo none (rows.zip ts)).zipIdx s2 = (s3, .ok n) →
      exec (.verifyHeads p q slot) s = .next
        (s3.finish p c (endDone ((verdictsGo none (rows.zip ts)).filter (·.2)).length))) ∧
    (s.rowCmd p q slot.toNat (·.op == opSoundRead) = some c →
      ((s.part p).snd.en = false → exec (.soundRead p q slot) s =
        .next (s.finish p c (endWith stDeviceFault 0x1210 0 true))) ∧
      (∀ s1 n, (s.part p).snd.en = true → sndReadGo p c (List.range (sndN c)) s = (s1, .ok n) →
        ((sndClear c && staged c) = false →
          exec (.soundRead p q slot) s = .next (s1.finish p c (endDone (sndN c)))) ∧
        ((sndClear c && staged c) = true → exec (.soundRead p q slot) s =
          .next (((List.range (sndN c)).foldl (fun s i => (s.sndClearEntry p (sndFirst c + i)).1) s1).finish
            p c (endDone (sndN c))))))

/-- An UPDATE whose checks stop it ends as they say and runs nothing (R355); otherwise it runs its layers in
order, writes the tails of their entries, and ends DONE with the elements updated and NF (R353, R358); a
line that cannot be read once it runs ends it, and which of the readable blocks are new is free (R359,
R360). A LOCAL LOOM_MOVE whose descriptors fail ends with what they give (R379); otherwise it takes the
Looms of its tiles, reads its units, writes its destinations and ends DONE with their bytes (R51, R377,
R381); one over a group waits for its admission (R379). A core's oldest Soundings record is taken and
merged by the helm core into the entry of its tensor, or counted as dropped without one (R335, R337,
R338); with it a KERNEL that waits for nothing else commits (R150). -/
def Obligations.UpdateLoomAndRecordsComplete : Prop :=
  ∀ (s : State),
    (∀ (p : Fin 16) (q : Fin 64) (slot : BitVec 16) (c : Cmd),
      (s.rowCmd p q slot.toNat (·.op == opUpdate) = some c →
        (∀ t e, s.updCheck p c = (t, .stop e) → exec (.update p q slot) s = .next (t.finish p c e)) ∧
        (∀ s1 js clip eta, s.updCheck p c = (s1, .run js clip eta) →
          (∀ s2 r s3, layersGo p c clip eta js s1 = (s2, .ok r) →
            tailsGo (s2.helmReq p) r.1 s2 = (s3, .ok ()) →
            exec (.update p q slot) s =
              .next (s3.finish p c (endDone (r.2.1 % 2 ^ 40 + b2n r.2.2 * 2 ^ 40)))) ∧
          (∀ s2 st m, layersGo p c clip eta js s1 = (s2, .fail st m) →
            exec (.update p q slot) s = .next
              ((partialGo p c clip eta js { readAll p c js s1 with free := s2.free }).finish p c
                (endAt st m))))) ∧
      (s.rowCmd p q slot.toNat (·.op == opLoomMove) = some c →
        (c.prog = .none → loomLocal c = false → exec (.loomMove p q slot) s =
          .next (s.updCmd p c fun y => { y with
            prog := .loom { coll := { group := colGroup c, ordinal := colOrd c, hash := 0 }, tensors := [] } })) ∧
        (c.prog = .none → loomLocal c = true →
          (∀ t st detail result tell, s.loomOpen p c = (t, .fail st detail result tell) →
            exec (.loomMove p q slot) s = .next (t.finish p c (endWith st detail result true))) ∧
          (∀ t st m, s.loomOpen p c = (t, .miss st m) →
            exec (.loomMove p q slot) s = .next (t.finish p c (endAt st m true))) ∧
          (∀ t ts hashed, s.loomOpen p c = (t, .ok ts hashed) →
            let l : LoomRun :=
              { coll := { group := 0, ordinal := 0, hash := 0, phase := .data }, tensors := ts }
            let t1 := (t.loomsTake p c (t.moveTiles p ts)).updCmd p c fun y => { y with prog := .loom l }
            let t2 := t1.loomsAct p (t1.cmdNow p c)
            (t1.cmdNow p c).prog = .loom l → t1.loomYields p c = false →
            ∀ t3 l' u, loomRead p c ts.zipIdx t2 l = (t3, l', .none) → loomComplete l' 1 0 = true →
              l'.coll.committed = none → l'.owed = [] →
              loomWrites p (loomOutput l' 1 0) (t3.updCmd p c fun y => { y with prog := .loom l' }) =
                (u, .ok ()) →
              exec (.loomMove p q slot) s =
                .next (u.finish p c (endDone (writesBytes (loomOutput l' 1 0)))))))) ∧
    (∀ (c : Fin 192),
      ((s.core c).emitted = [] ∨ s.ownerOf (clusterOf c) = none → exec (.soundingsRecord c) s = .next s) ∧
      (∀ (p : Nat) (r : SndRec) (rs : List SndRec),
        (s.core c).emitted = r :: rs → s.ownerOf (clusterOf c) = some p →
        let t := s.updCore c fun x => { x with emitted := rs }
        let va := (s.part p).snd.entryVa (r.tensor.toNat % (s.part p).snd.n)
        let fits := fun (b : List Byte) => bit (bAt b 0x0E 2) 0 && bAt b 0 4 == r.tensor.toNat
        let put := fun (b : List Byte) =>
          let m := mergeRec (totalsOf b) r
          { m with trips := (newTrips b m).foldl (fun a i => a + 2 ^ i) m.trips }
        let done := fun (u : State) => exec (.soundingsRecord c) s = .next
          (match u.kernelOf c with
          | some (p, cmd, k) => u.tryCommit p cmd k
          | none => u)
        ((s.part p).snd.en = false → done t) ∧
        (∀ t1 b t2, (s.part p).snd.en = true → t.xreadNow (t.helmReq p) va 128 = (t1, .ok b) →
          fits b = true → t1.xwriteNow (t.helmReq p) (va + 16) (totalsBytes (put b)) = (t2, .ok ()) →
          done ((newTrips b (mergeRec (totalsOf b) r)).foldl
            (fun s i => s.sndTrip p r (bit (bAt b 0x0E 2) 1) i) t2)) ∧
        (∀ t1 b, (s.part p).snd.en = true → t.xreadNow (t.helmReq p) va 128 = (t1, .ok b) →
          fits b = false → done (t1.sndDrop p r))))

/-! Groups and collectives. -/

/-- FORM and REFORM read the member table and end with the outcome of the first row of R263 that holds;
a group of one commits at once, and its RESULT holds rank and epoch. DISSOLVE breaks the group and
frees its id (R260 to R264). A LEAVE of another member breaks the group; a hash that differs ends the
forming command, the last one that agrees commits it, and a silent member ends it after its limit
(R261, R263). -/
def Obligations.GroupsComplete : Prop :=
  ∀ (p : Fin 16) (q : Fin 64) (slot : BitVec 16) (s : State) (c : Cmd),
    (s.rowCmd p q slot.toNat (fun c => isForm 0 c && c.prog == .none) = some c →
      let g := c.f 0x20 12
      let n := c.f 0x22 9
      ∀ t bs, s.xread (s.helmReq p) (c.va 0x18) (4 * n) = (t, .ok bs) →
      let ws := (List.range n).map fun i => bAt bs (4 * i) 4
      let ms := ws.map memberOf
      let rank := ms.idxOf ⟨BitVec.ofNat 8 t.coord, BitVec.ofNat 4 p⟩
      (t.tableBad p ws = true → exec (.form p q slot) s =
        .next (t.finish p c (endWith stDeviceFault 0x0204))) ∧
      (t.tableBad p ws = false → 4096 ≤ t.groupsUsed → exec (.form p q slot) s =
        .next (t.finish p c (endWith stBusy 0x1031))) ∧
      (t.tableBad p ws = false → t.groupsUsed < 4096 → (t.group g).inUse = true →
        exec (.form p q slot) s = .next (t.finish p c (endWith stBusy 0x1032))) ∧
      (t.tableBad p ws = false → t.groupsUsed < 4096 → (t.group g).inUse = false →
        exec (.form p q slot) s = .next
          ((t.updGroup g fun _ => { part := p, members := ms, rank := rank, state := .forming }).formStart
            p c { group := g, epoch := 0, members := ms, rank := rank, hash := listHashOf g 0 n bs
                  reform := false, got := [] }))) ∧
    (s.rowCmd p q slot.toNat (fun c => isForm 1 c && c.prog == .none) = some c →
      let g := c.f 0x20 12
      let n := c.f 0x22 9
      let s1 := if s.groupFor p g then s.breakGroup g 0x1012 0xFFFF else s
      ∀ t bs, s1.xread (s1.helmReq p) (c.va 0x18) (4 * n) = (t, .ok bs) →
      let ws := (List.range n).map fun i => bAt bs (4 * i) 4
      let ms := ws.map memberOf
      let epoch := (t.group g).epoch + 1
      (t.tableBad p ws = true → exec (.reform p q slot) s =
        .next (t.finish p c (endWith stDeviceFault 0x0204))) ∧
      (t.tableBad p ws = false → (t.groupFor p g && ms.isSublist (t.group g).members) = false →
        exec (.reform p q slot) s = .next (t.finish p c (endWith stDeviceFault 0x1010))) ∧
      (t.tableBad p ws = false → (t.groupFor p g && ms.isSublist (t.group g).members) = true →
        exec (.reform p q slot) s = .next (t.formStart p c
          { group := g, epoch := epoch, members := ms
            rank := ms.idxOf ⟨BitVec.ofNat 8 t.coord, BitVec.ofNat 4 p⟩
            hash := listHashOf g epoch.toNat n bs, reform := true, got := [] }))) ∧
    (s.rowCmd p q slot.toNat (fun c => isForm 2 c && c.prog == .none) = some c →
      let g := c.f 0x20 12
      (s.groupFor p g = false → exec (.dissolve p q slot) s =
        .next (s.finish p c (endWith stDeviceFault 0x1010))) ∧
      (s.groupFor p g = true →
        let t := (s.breakGroup g 0x1012 0xFFFF).forgetEpochs p g fun _ => false
        exec (.dissolve p q slot) s =
          .next (({ t with groups := SMap.set {} t.groups g {} }).finish p c (endDone 0)))) ∧
    (∀ (g : BitVec 12) (r : Fin 256), r.val < (s.group g.toNat).n → r.val ≠ (s.group g.toNat).rank →
      exec (.leave g r) s = .next (s.breakGroup g.toNat 0x1011 r)) ∧
    (∀ (g : BitVec 12) (at_ : BitVec 8) (h : Dword) (f : Forming), s.formingCmd g.toNat = some (p.val, c, f) →
      (s.cmdNow p c).prog = .form f → formWants f (formRank f at_.toNat) = true →
      (h ≠ f.hash → exec (.listHash g at_ h) s =
        .next (s.endForm p c stDescMismatch 0x1030 h.toNat)) ∧
      (h = f.hash → f.got.length + 2 = f.members.length →
        let f' := { f with got := f.got ++ [(formRank f at_.toNat, h)] }
        exec (.listHash g at_ h) s = .next
          ((s.updCmd p c fun y => { y with prog := .form f' }).formDone p c f'))) ∧
    (∀ f r, s.rowCmd p q slot.toNat (fun c => c.op == opGroupForm) = some c → c.prog = .form f →
      (List.range f.members.length).find? (formWants f) = some r →
      exec (.groupFormTimeout p q slot) s = .next (s.endForm p c stMemberLost 0x1033 r)) ∧
    (∀ f : Forming, f.members.length = 1 → f.rank = 0 →
      s.formStart p c f = (s.updCmd p c fun y => { y with prog := .form f }).formDone p c f) ∧
    (∀ f : Forming, let t := s.forgetEpochs p f.group (· == f.epoch.toNat)
      s.formDone p c f = (t.updGroup f.group fun _ =>
        { part := p, members := f.members, rank := f.rank, epoch := f.epoch, state := .formed }).finish p c
          (endDone (f.rank + f.epoch.toNat * 2 ^ 16)))

/-- The row of a COLLECTIVE hands it to the collective engine, with its group and ordinal, where it
waits for its admission (R267, R274). COLLECTIVE_ADMIT takes the oldest dispatched command over a
group, and an admission that fails ends it with the outcome of R274: no such group, a broken one, an
ordinal not above the last, no staging core; a full staging core makes it wait. One that another member
has abandoned already ends with ORDER_STALL (R282, R284). -/
def Obligations.CollectivesStart : Prop :=
  (∀ (p : Fin 16) (q : Fin 64) (slot : BitVec 16) (s : State) (c : Cmd) (e : Nat × Instr),
    e ∈ [(0, Instr.allReduce p q slot), (1, .reduceScatter p q slot), (2, .allGather p q slot),
      (3, .reduce p q slot), (4, .broadcast p q slot), (5, .allToAll p q slot)] →
    s.rowCmd p q slot.toNat (fun c => c.op == opCollective && colOp c == e.1 && c.prog == .none) = some c →
    exec e.2 s = .next (s.updCmd p c fun y => { y with
      prog := .coll { group := colGroup c, ordinal := colOrd c, hash := 0 } })) ∧
  (∀ (p : Fin 16) (s : State) (c : Cmd), s.enabled p = true →
    let t := s.resumeGroups p
    let g := t.group (gGroup c)
    let last := (t.part p).col
    let late := last.any && decide (gOrd c ≤ last.last.toNat)
    let gone := (t.part p).abandoned.contains (gGroup c, g.epoch.toNat, gOrd c)
    let u := t.updPart p fun x => { x with
      col := { x.col with last := BitVec.ofNat 48 (gOrd c), any := true }
      abandoned := x.abandoned.filter fun e => decide (gOrd c < e.2.2) }
    t.nextAdmit p = some c → c.coll.isSome = true →
    (t.groupFor p (gGroup c) = false → exec (.collectiveAdmit p) s =
      .next (t.endGroup p c stDeviceFault 0x1010)) ∧
    (t.groupFor p (gGroup c) = true → g.state = .broken → exec (.collectiveAdmit p) s =
      .next (t.endGroup p c stMemberLost 0x1011 (some g.lostRank))) ∧
    (t.groupFor p (gGroup c) = true → g.state ≠ .broken → c.op = opCollective →
      (collSizeBad c g.n = true → exec (.collectiveAdmit p) s =
        .next (t.endGroup p c stDeviceFault 0x0204)) ∧
      (collSizeBad c g.n = false → late = true → exec (.collectiveAdmit p) s =
        .next ((t.eventP 0x3023 (t.uPartHelm p) p).endGroup p c stOrderStall 0x1001 none false
          (some t.seqNext))) ∧
      (collSizeBad c g.n = false → late = false → t.stagingBad p = true →
        exec (.collectiveAdmit p) s = .next (t.endGroup p c stBusy 0x1022)) ∧
      (collSizeBad c g.n = false → late = false → t.stagingBad p = false → t.stagingFull p = true →
        exec (.collectiveAdmit p) s = .next t) ∧
      (collSizeBad c g.n = false → late = false → t.stagingBad p = false → t.stagingFull p = false →
        (gone = true → exec (.collectiveAdmit p) s = .next (u.endGroup p c stOrderStall 0x1003)) ∧
        (gone = false → exec (.collectiveAdmit p) s =
          .next ((u.takeSlot p c).admitColl p c g.epoch.toNat)))) ∧
    (t.groupFor p (gGroup c) = true → g.state ≠ .broken → c.op ≠ opCollective →
      (late = true → exec (.collectiveAdmit p) s = .next
        ((t.eventP 0x3023 (t.uPartHelm p) p).endGroup p c stOrderStall 0x1001 none false
          (some t.seqNext))) ∧
      (late = false → gone = true → exec (.collectiveAdmit p) s =
        .next (u.endGroup p c stOrderStall 0x1003)) ∧
      (late = false → gone = false → exec (.collectiveAdmit p) s = .next
        (if isLoad c then u.admitLoad p c g.epoch.toNat else u.admitLoom p c g.epoch.toNat))))

/-- The messages of the other members. A header is kept for a command not yet admitted, counted once in
its header phase, and the last one that makes the hashes differ ends the command with DESC_MISMATCH
(R275, R277); chunks and batches that come in the header phase are kept, later ones go in at once
(R276, R278); a stall, a missing header and an ABANDON end the command with ORDER_STALL (R281, R282), one
that this member has not come to yet at its admission (R284); a message of another epoch of the group
reaches no command (R275); a KEEP_ALIVE lets a waiting LOOM_MOVE go on (R382). -/
def Obligations.CollectiveMessagesComplete : Prop :=
  ∀ (p : Fin 16) (g : BitVec 12) (epoch : BitVec 8) (ord : BitVec 48) (s : State) (c : Cmd),
    let found := fun (f : Cmd → Bool) => s.groupCmd p g.toNat ord.toNat f = some c
    let named := fun (f : Cmd → Bool) => s.epochCmd p ⟨g, epoch⟩ ord f = some c
    (∀ h : CollHeader, s.epochCmd p ⟨g, epoch⟩ ord cmdAdmitted = none → s.ordAhead p ord = true →
      ((s.part p).early.any fun e => e.1 == g.toNat && e.2.1 == epoch.toNat && e.2.2.1 == ord.toNat
        && e.2.2.2.rank == h.rank) = false →
      exec (.collectiveHeader p ⟨g, epoch⟩ ord h) s = .next
        (s.updPart p fun x => { x with early := x.early ++ [(g.toNat, epoch.toNat, ord.toNat, h)] })) ∧
    (∀ h : CollHeader, s.epochCmd p ⟨g, epoch⟩ ord cmdAdmitted = none → s.ordAhead p ord = false →
      exec (.collectiveHeader p ⟨g, epoch⟩ ord h) s = .next s) ∧
    (∀ (h : CollHeader) (k : Coll), named cmdAdmitted → s.collNow p c = some k → k.phase = .header →
      h.rank < (s.group k.group).n → (k.headers.any fun x => x.rank == h.rank) = false →
      exec (.collectiveHeader p ⟨g, epoch⟩ ord h) s = .next
        ((s.updColl p c fun k => { k with headers := k.headers ++ [h] }).headersDone p c)) ∧
    (∀ chunk data batch es, (s.group g.toNat).epoch ≠ epoch →
      exec (.collectiveChunk p ⟨g, epoch⟩ ord chunk data) s = .next s ∧
      exec (.exponentBatch p ⟨g, epoch⟩ ord batch es) s = .next s) ∧
    (∀ chunk data, named cmdAdmitted →
      (cmdPhase c = .data → exec (.collectiveChunk p ⟨g, epoch⟩ ord chunk data) s =
        .next ((s.takeChunk p c chunk data).groupStep p c)) ∧
      (cmdPhase c ≠ .data → exec (.collectiveChunk p ⟨g, epoch⟩ ord chunk data) s =
        .next (s.updColl p c fun k => { k with inbox := k.inbox ++ [(chunk, data)] }))) ∧
    (∀ batch es, named (fun c => cmdAdmitted c && isSumRed c && c.op == opCollective) →
      let t := s.updColl p c fun k => { k with batchIn := k.batchIn ++ [(batch, es)] }
      (cmdPhase c = .data → exec (.exponentBatch p ⟨g, epoch⟩ ord batch es) s =
        .next ((t.drainAll p c).groupStep p c)) ∧
      (cmdPhase c ≠ .data → exec (.exponentBatch p ⟨g, epoch⟩ ord batch es) s = .next t)) ∧
    (found (fun c => !isLoad c && (cmdPhase c == .data || (cmdPhase c == .header &&
        (c.coll.map fun k => !(k.headers.any fun h => h.rank == (s.group k.group).rank)).getD false))) →
      exec (.collectiveStallTimeout p g ord) s =
        .next (s.endGroup p c stOrderStall 0x1002 none true)) ∧
    (found (fun c => cmdPhase c == .header) → exec (.headerTimeout p g ord) s =
      .next (s.endGroup p c stOrderStall 0x1004 none true)) ∧
    (∀ rank : Fin 256, rank.val < (s.group g.toNat).n → rank.val ≠ (s.group g.toNat).rank →
      (named (fun _ => true) →
        exec (.abandon p ⟨g, epoch⟩ ord rank) s = .next (s.endGroup p c stOrderStall 0x1003)) ∧
      (s.epochCmd p ⟨g, epoch⟩ ord (fun _ => true) = none → s.ordAhead p ord = true →
        (s.part p).abandoned.contains (g.toNat, epoch.toNat, ord.toNat) = false →
        exec (.abandon p ⟨g, epoch⟩ ord rank) s = .next (s.updPart p fun x => { x with
          abandoned := x.abandoned ++ [(g.toNat, epoch.toNat, ord.toNat)] }))) ∧
    (∀ rank : Fin 256, rank.val < (s.group g.toNat).n →
      found (fun c => isLoomGroup c && cmdPhase c == .data) →
      exec (.keepAlive p g ord rank) s = .next (s.groupStep p c))

/-- The partial sums of a chunk do not depend on the order in which the parts of its members come: two
parts that share no rank with each other or with what is there leave the same elements either way, and a
part that repeats a rank changes nothing (R99, R278). -/
def Obligations.ChunkSumsDoNotDependOnOrder : Prop :=
  ∀ (k : Nat) (ra rb : List Nat) (ea eb : List CollElem) (x : Coll), ra ≠ [] → rb ≠ [] →
    (∀ r ∈ ra, r ∉ rb) →
    let there := (SMap.get ([], []) x.partials k).1
    (∀ r ∈ ra ++ rb, r ∉ there) →
    let sums := fun (y : Coll) => (SMap.get ([], []) y.partials k).2
    sums (addPartial 0 k rb eb (addPartial 0 k ra ea x)) =
      sums (addPartial 0 k ra ea (addPartial 0 k rb eb x)) ∧
    addPartial 0 k ra ea (addPartial 0 k ra ea x) = addPartial 0 k ra ea x

/-! Weights, ABORT and the serving engine. -/

/-- LOAD of a set that is EMPTY or LOST checks its manifest and starts LOADING; ADOPT fills the CRC
table from what memory holds and makes the set RESIDENT; RETIRE empties it; each fails in a state that
it does not allow with 0x1303 (R384, R389, R395, R396). The messages of a LOAD in its data phase. A
chunk of the right length and CRC-64 is taken, another one is asked for again, at most four times
(R391); END goes on down the chain (R390); a missing or corrupt shard at the deadline fails the load
(R392); outcomes of the other members are counted, and a member that has not reported stops (R393). -/
def Obligations.WeightLoadsComplete : Prop :=
  (∀ (p : Fin 16) (q : Fin 64) (slot : BitVec 16) (s : State) (c : Cmd),
    let w := (s.part p).wset (loadSet c)
    let new := fun (mode : Nat) =>
      s.rowCmd p q slot.toNat (fun c => isWeight mode c && c.prog == .none) = some c
    (new 0 →
      (w.state ≠ 0 → w.state ≠ 4 → exec (.load p q slot) s =
        .next (s.finish p c (endWith stDeviceFault 0x1303 w.state.toNat true))) ∧
      (∀ t st detail result, w.state = 0 ∨ w.state = 4 →
        s.readManifest p c true = (t, .fail st detail (some result)) →
        exec (.load p q slot) s = .next (t.finish p c (endWith st detail result true))) ∧
      (∀ t es crc ret, w.state = 0 ∨ w.state = 4 → s.readManifest p c true = (t, .ok es crc ret) →
        let run : LoadRun :=
          { set := loadSet c, coll := { group := gGroup c, ordinal := gOrd c, hash := 0 }
            entries := es, crcVa := crc, retVa := ret, genFlag := loadGen c }
        let u := t.updSet p (loadSet c) fun w => { w with
          state := 1, man := BitVec.ofNat 56 (loadMan c), entries := [], recoveries := [] }
        exec (.load p q slot) s = .next
          ((u.loomsTake p c (u.loadTiles p es crc (some ret))).updCmd p c fun y =>
            { y with prog := .load run }))) ∧
    (new 1 →
      (w.state ≠ 0 → exec (.adopt p q slot) s =
        .next (s.finish p c (endWith stDeviceFault 0x1303 w.state.toNat true))) ∧
      (∀ t es crc ret, w.state = 0 → s.readManifest p c false = (t, .ok es crc ret) →
        let order := (es.zipIdx.filter fun x => x.1.copies != 0).flatMap fun x =>
          (List.range (manChunks x.1)).map fun k => (x.2, k)
        let t1 := t.updSet p (loadSet c) fun w => { w with
          state := 1, man := BitVec.ofNat 56 (loadMan c) }
        let t2 := t1.loomsTake p c (t1.loadTiles p es crc none)
        (t2.loomYields p c = true → exec (.adopt p q slot) s = .next s) ∧
        (∀ u, t2.loomYields p c = false →
          adoptAll p c es crc order (t2.loomsAct p (t2.cmdNow p c)) = .on u →
          exec (.adopt p q slot) s = .next u))) ∧
    (new 2 →
      (w.state = 3 → exec (.retire p q slot) s = .next s) ∧
      (w.state = 1 → exec (.retire p q slot) s =
        .next (s.finish p c (endWith stDeviceFault 0x1303 1 true))) ∧
      (w.state ≠ 3 → w.state ≠ 1 →
        let t := (s.emptySet p (loadSet c)).updSet p (loadSet c) fun w => { w with gen := false }
        exec (.retire p q slot) s = .next
          (t.tickFree.finish p c (endWith stDone 0 (t.freeVal % 2 ^ 64) false))))) ∧
  (∀ (p : Fin 16) (g : BitVec 12) (ord : BitVec 48) (s : State) (c : Cmd) (l : LoadRun),
    s.groupCmd p g.toNat ord.toNat (fun c => isLoad c && cmdPhase c == .data) = some c →
    s.groupCmd p g.toNat ord.toNat (fun c => isLoad c && cmdPhase c == .header) = none →
    s.loadOf p c = some l → l.coll.group = g.toNat →
    let me := (s.group g.toNat).rank
    let n := (s.group g.toNat).n
    let reported := l.reports.any fun r => r.1 == me
    (∀ shard chunk bytes crc e, l.entries[shard]? = some e → loadRuns l = true →
      l.good.contains (shard, chunk) = false → chunk < manChunks e → me ≠ 0 →
      let keep := fun (t : State) => t.updLoad p c fun l => { l with
        inbox := l.inbox ++ [(shard, chunk, bytes, crc)] }
      let took := (s.loomsAct p (s.cmdNow p c)).loadTake p c shard chunk bytes crc
      (s.loomYields p c = true →
        exec (.loadChunk p g ord shard chunk bytes crc) s = .next (keep s)) ∧
      (s.loomYields p c = false → crc64 bytes = crc → bytes.length = chunkLen e chunk →
        (∀ t, took = .on t →
          exec (.loadChunk p g ord shard chunk bytes crc) s = .next (t.loadCheck p c)) ∧
        (∀ w, took = .wait w →
          exec (.loadChunk p g ord shard chunk bytes crc) s = .next (keep (s.waking w)))) ∧
      (s.loomYields p c = false → crc64 bytes ≠ crc ∨ bytes.length ≠ chunkLen e chunk →
        let t := s.updLoad p c fun l => { l with bad := l.bad ++ [(shard, chunk)] }
        exec (.loadChunk p g ord shard chunk bytes crc) s = .next
          (if l.bad.count (shard, chunk) < 4 then
            t.sendTo g.toNat (me - 1) msgLoadRerequest (leBytes 4 shard ++ leBytes 4 chunk)
          else t))) ∧
    (l.ended = false → me ≠ 0 →
      let t := if me + 1 < n then s.sendTo g.toNat (me + 1) msgLoadEnd [] else s
      exec (.loadEnd p g ord) s =
        .next ((t.updLoad p c fun l => { l with ended := true }).loadCheck p c)) ∧
    (∀ shard chunk t bs, me + 1 < n →
      let e := l.entries.getD shard ⟨0, false, 0, [], 0, [], [], 0⟩
      let kept := l.kept.find? fun k => k.1 == shard && k.2.1 == chunk
      let again := exec (.loadRerequest p g ord shard chunk) s =
        .next (t.sendTo g.toNat (me + 1) msgLoadChunk
          (leBytes 4 shard ++ leBytes 4 chunk ++ leBytes 8 (crc64 bs).toNat ++ bs))
      (∀ k, kept = some k → s.xread ⟨p, s.loomFor p l.retVa⟩ (l.retVa + chunkBytes * k.2.2)
        (chunkLen e chunk) = (t, .ok bs) → again) ∧
      (kept = none → me = 0 → shard < l.entries.length → chunk < manChunks e →
        s.headChunk p l shard chunk = (t, .ok bs) → again)) ∧
    (l.failure = none → reported = false →
      (∀ e i, (heldShards l).find? (fun x => !shardComplete l x.2 x.1) = some (e, i) →
        exec (.loadDeadline p g ord) s = .next
          (if (l.bad.any fun b => b.1 == i && !l.good.contains b) then
            s.loadFailOwn p c stShardCorrupt 0x1310 i
          else s.loadFailOwn p c stShardMissing 0x1312 i)) ∧
      ((heldShards l).find? (fun x => !shardComplete l x.2 x.1) = none →
        exec (.loadDeadline p g ord) s =
          .next ((s.updLoad p c fun l => { l with ended := true }).loadCheck p c))) ∧
    (∀ rank : Fin 256, rank.val < n → rank.val ≠ me →
      (∀ (st : BitVec 8) shard,
        let t := s.updLoad p c (loadAddReport rank st.toNat shard)
        exec (.loadFail p g ord rank st shard) s =
          .next (if reported then t.loadSettle p c else t.loadReport p c msgLoadFail 0 0)) ∧
      exec (.loadSuccess p g ord rank) s =
        .next ((s.updLoad p c (loadAddReport rank 0 0)).loadSettle p c)))

/-- Recovery: another member's fetch is answered with the chunk, or with NONE where this one has none to
give (R400); an answer is offered to the recovery that waits for it, NONE and silence pass to the next
source (R401), and one that finds nothing in time loses the set (R402). -/
def Obligations.RecoveryMessagesComplete : Prop :=
  ∀ (p set : Fin 16) (shard chunk : Nat) (s : State),
    let w := (s.part p).wset set
    let here := (w.state = 2 ∨ w.state = 3) ∧ shard < w.entries.length ∧
      chunk < manChunks (manEntry w shard)
    let answer := fun (at_ : BitVec 8) (t : State) (bs : List Byte) =>
      t.post msgRecAnswer at_.toNat p 0 (t.anyStream msgRecAnswer)
        ([BitVec.ofNat 8 set] ++ leBytes 4 shard ++ leBytes 4 chunk ++ bs)
    (∀ at_ : BitVec 8, ¬ here →
      exec (.recoveryFetch p set shard chunk at_) s = .next (answer at_ s [0])) ∧
    (∀ (at_ : BitVec 8) t f, here →
      (∀ bs, copyGo p set shard chunk (List.range (manEntry w shard).copies) s [] = (t, some bs, f) →
        exec (.recoveryFetch p set shard chunk at_) s = .next (answer at_ (t.found f) ([1] ++ bs))) ∧
      (copyGo p set shard chunk (List.range (manEntry w shard).copies) s [] = (t, none, f) →
        exec (.recoveryFetch p set shard chunk at_) s = .next (answer at_ (t.found f) [0]))) ∧
    (∀ r, s.askedRecovery p set shard chunk = some r →
      exec (.recoveryAnswer p set shard chunk none) s =
        .next ((s.nextSource p set r).afterRecovery p) ∧
      exec (.replicaTimeout p set shard chunk) s = .next ((s.nextSource p set r).afterRecovery p) ∧
      (∀ t crc f u bs, s.tableCrc p set shard chunk = (t, some crc, f) → r.shard = shard →
        r.chunk = chunk →
        (t.offerChunk p set r crc bs = (u, true) →
          exec (.recoveryAnswer p set shard chunk (some bs)) s = .next ((u.found f).afterRecovery p)) ∧
        (t.offerChunk p set r crc bs = (u, false) →
          exec (.recoveryAnswer p set shard chunk (some bs)) s =
            .next (((u.found f).nextSource p set r).afterRecovery p)))) ∧
    (∀ r, (w.recoveries.find? fun r => r.shard == shard && r.chunk == chunk) = some r →
      exec (.recoveryTimeout p set shard chunk) s = .next ((s.loseSet p set r).afterRecovery p))

/-- The four scopes of ABORT: one command by queue, slot and tag; the dispatched commands of a queue,
which stops with reason 2; of a cluster; of the partition, whose queues all stop but the ABORT's own.
RESULT counts those that reported ABORTED, and 0 of them gives NOTHING_TO_ABORT (R233, R234). -/
def Obligations.AbortsComplete : Prop :=
  ∀ (p : Fin 16) (q : Fin 64) (slot : BitVec 16) (s : State) (c : Cmd),
    let is := fun (scope : Nat) =>
      s.rowCmd p q slot.toNat (fun c => c.op == opAbort && aScope c == scope) = some c
    let targets := fun (f : Cmd → Bool) =>
      (s.part p).cmds.filter fun t => abortable t && t.outcome.isNone && f t
    let ended := fun (t : State) (n : Nat) =>
      t.finish p c (endWith (if n = 0 then stAbortNothing else stDone) 0 n)
    (is 0 → ∀ t n, abortGo p (targets fun t => t.q == aQueue c
          && cmdSlot (s.part p) t == aSlot c && t.tag == aTag c) s 0 = (t, n) →
      exec (.abortCommand p q slot) s = .next (ended t n)) ∧
    (is 1 → ∀ t n, abortGo p (targets fun t => t.dispatched && t.q == aQueue c) s 0 = (t, n) →
      let u := t.abortStop p c [aQueue c]
      exec (.abortQueue p q slot) s = .next (ended
        (if aQueue c = c.q then
          u.abortGoesOn p c (targets fun t => t.dispatched && t.q == aQueue c) else u) n)) ∧
    (is 2 → ∀ t n,
      abortGo p (targets fun t => t.dispatched && s.usesCluster p t (aCluster c)) s 0 = (t, n) →
      exec (.abortCluster p q slot) s = .next (ended t n)) ∧
    (is 3 → c.q < 64 → ∀ t n, abortGo p (targets fun t => t.dispatched) s 0 = (t, n) →
      exec (.abortPartition p q slot) s = .next (ended
        ((t.abortStop p c (List.range 64)).abortGoesOn p c (targets fun t => t.dispatched)) n))

/-- The serving engine takes the next entry of its request ring while the event ring has room for what
it causes (R318, R319): a SUBMIT that breaks a check is REJECTED, and one whose prompt, ids, windows
and frames are there is admitted (R321, R322); CANCEL, PAUSE and RESUME of a request that is not live
end with an ENTRY_DONE event of status NOTHING_TO_ABORT, and else do their work (R323 to R325). A step
starts when the engine may step: the plan's rows are launched, or nothing starts with none, or the
ring is marked full when the events of a commit would not fit (R298 to R303, R327). A step whose
template has run commits its rows' outputs, advances the step number and ends; a failure discards it
(R302, R327). A request long paused moves its private pages to LPDDR6 (R324). -/
def Obligations.ServingComplete : Prop :=
  (∀ (p : Fin 16) (s t : State) (b : List Byte), s.nextEntry p = .on (t, b) →
    let g := t.gen p
    let u := t.updPart p fun x => { x with gen := { x.gen with
      reqHead := BitVec.ofNat 17 ((g.reqHead.toNat + 1) % (2 * g.reqN)) } }
    let now := u.gen p
    let none_ := entryDone b stAbortNothing none
    (¬ (2 ≤ eKind b ∧ eKind b ≤ 4) → submitBad g.desc b = true → submitBad (s.gen p).desc b = true →
      submitBad now.desc b = true → 1 ≤ g.evtRoom →
      exec (.submit p) s = .next ((u.reject p b stDeviceFault 1).genEvents p)) ∧
    (eKind b = 1 → submitBad g.desc b = false → submitBad (s.gen p).desc b = false →
      submitBad now.desc b = false → submitRoom (s.gen p) b ≤ g.evtRoom →
      let n := bAt b 0x18 4
      let flags := bAt b 1 1
      (∀ v, t.xread (t.helmReq p) (bVa b 0x10) (4 * n) ≠ (v, .held)) →
      ∀ v pb, u.xread (u.helmReq p) (bVa b 0x10) (4 * n) = (v, .ok pb) →
      let prompt := (List.range n).map fun i => BitVec.ofNat 32 (bAt pb (4 * i) 4)
      let fan := bAt b 2 2
      let ws := pickWindows now (Config.freePick v.free) fan
      let look := if bit flags 2 || bit flags 4 then ([], false) else (v.gen p).lookup prompt
      let v1 := if look.2 then v.eventP 0x4011 (v.uPartHelm p) p else v
      let hold := fun (f : DirNode → DirNode) (g : Gen) =>
        { g with dir := g.dir.map fun x => if look.1.any fun h => h.key == x.key then f x else x }
      let free := (v1.updGen p (hold fun x => { x with refs := x.refs + 1 })).reclaim p (flags % 4)
        (admitNeed now.desc (bit flags 2) n (look.1.length * now.desc.tokens) fan)
      let used := (List.range fan).any fun j => (now.live (eId b + BitVec.ofNat 32 j)).isSome
      (used = true → exec (.submit p) s = .next ((v.reject p b stBusy 2).genEvents p)) ∧
      (used = false → ws.length < fan →
        exec (.submit p) s = .next ((v.reject p b stBusy 3).genEvents p)) ∧
      (used = false → fan ≤ ws.length → free.2 = false →
        exec (.submit p) s = .next ((v1.reject p b stNoPages 4).genEvents p)) ∧
      (used = false → fan ≤ ws.length → free.2 = true → exec (.submit p) s = .next
        (((free.1.updGen p (hold fun x => { x with refs := x.refs - 1 })).admitFan p b prompt ws
          look.1).tickFree.genEvents p))) ∧
    (eKind b = 2 → 2 ≤ g.evtRoom →
      (now.live (eId b) = none →
        exec (.cancel p) s = .next ((u.updGen p (·.push none_)).genEvents p)) ∧
      (∀ r, now.live (eId b) = some r → exec (.cancel p) s = .next
        ((u.updGen p fun g => (g.endReq r evCancelled stCancelled 0).push
          (entryDone b stDone (some r))).genEvents p))) ∧
    (eKind b = 3 → 1 ≤ g.evtRoom →
      (now.live (eId b) = none →
        exec (.pause p) s = .next ((u.updGen p (·.push none_)).genEvents p)) ∧
      (∀ r, now.live (eId b) = some r → r.paused.isSome = true ∨ r.pausing = true →
        exec (.pause p) s =
          .next ((u.updGen p (·.push (entryDone b stAbortNothing (some r)))).genEvents p)) ∧
      (∀ r, now.live (eId b) = some r → r.paused = none → r.pausing = false →
        (now.step = none → exec (.pause p) s = .next ((u.updGen p (·.pause r 1)).genEvents p)) ∧
        (now.step ≠ none → exec (.pause p) s = .next
          ((u.updGen p (·.updReq r.window fun x => { x with pausing := true })).genEvents p)))) ∧
    (eKind b = 4 → 1 ≤ g.evtRoom →
      (now.live (eId b) = none →
        exec (.resume p) s = .next ((u.updGen p (·.push none_)).genEvents p)) ∧
      (∀ r, now.live (eId b) = some r → r.paused ≠ some 1 → exec (.resume p) s =
        .next ((u.updGen p (·.push (entryDone b stAbortNothing (some r)))).genEvents p)) ∧
      (∀ r, now.live (eId b) = some r → r.paused = some 1 → exec (.resume p) s = .next
        ((u.updGen p (·.updReq r.window fun x => { x with
          paused := none, resumed := true, moved := false })).genEvents p)))) ∧
  (∀ (p : Fin 16) (s : State),
    (∀ late t items, s.mayStep p = true → s.planStep p late = (t, items) →
      (items = [] → exec (.genStepStart p late) s = .next (t.genEvents p)) ∧
      (items ≠ [] → evtShort (t.gen p) items = true → exec (.genStepStart p late) s =
        .next (s.updPart p fun y => { y with gen := { y.gen with evtFull := true } })) ∧
      (∀ u, items ≠ [] → evtShort (t.gen p) items = false →
        (t.genEvents p).launch p (items.flatMap (·.2)) = .on u →
        exec (.genStepStart p late) s = .next u.tickFree)) ∧
    (∀ st, (s.gen p).step = some st → st.left = 0 → s.enabled p = true →
      ((s.gen p).stopping = true → exec (.genStepCommit p) s = .next (s.stepEnd p)) ∧
      ((s.gen p).stopping = false →
        (∀ f, st.failed = some f → exec (.genStepCommit p) s =
          .next ((s.discard p st f.1.toNat f.2.toNat).stepEnd p)) ∧
        (∀ t os u, st.failed = none → s.outputs p st = (t, .ok os) →
          commitGo p st.no (stepReqs (s.gen p) os) t = .on u →
          exec (.genStepCommit p) s = .next ((u.updPart p fun x => { x with gen := { x.gen with
            stepNo := BitVec.ofNat 64 st.no, discards := 0, retry := false } }).stepEnd p)))) ∧
    (∀ id r, (s.gen p).live id = some r → s.enabled p = true → r.paused.isSome = true → r.moved = false →
      exec (.pauseTimeout p id) s = .next ((s.moveWindow p r.window true).updGen p
        (·.updReq r.window fun x => { x with moved := true }))))

/-! Bring-up, the Logbook's own rows, and I3C. -/

/-- The steps of bring-up (R447 to R462): each does its work once while it runs and leaves its outcome;
BU_STEP_DONE reports it, moving MOD_BU_DONE on success, and recording 0x7002 with the code otherwise
(R449, R453). S1 comes with the training of a port or, from a neighbour, of the host direction (R451). -/
def Obligations.BringUpComplete : Prop :=
  ∀ (s : State),
    (∀ (u : Fin 2) (lanes : BitVec 3), s.atS0End = true →
      let t := s.trainPort u (BitVec.ofNat 4 (2 ^ min 4 lanes.toNat - 1))
      exec (.s1 (.host u) lanes) s = .next (if lanes = 0 then t else t.beginS1)) ∧
    (∀ (l : Fin 64) (lanes : BitVec 3), s.atS0End = true → lanes ≠ 0 →
      s.bu.hostDir = some (dirOf l) → s.hostPort = none → 1 < s.dimSize (dirOf l / 2) →
      exec (.s1 (.relay l) lanes) s = .next ((s.mgmtLinks (dirOf l) lanes.toNat).beginS1)) ∧
    (s.stepRuns 2 = true → s.hostHeld = false →
      (s.readFirmware = none → exec .s2 s = .next (s.outcome 0x21 0)) ∧
      (∀ f r, s.readFirmware = some f → s.checkFirmware f = .inl r → exec .s2 s = .next
        ((({ s with sec := { s.sec with
          fwState := 2, fwReason := BitVec.ofNat 3 r } } : State).tickFree.event 0x6020 s.uSec).outcome
            0x20 0)) ∧
      (∀ f at_, s.readFirmware = some f → s.checkFirmware f = .inr at_ → exec .s2 s = .next
        ((({ s with sec := { s.sec with
          fwState := 1, fwReason := 0, fwSlot := at_, svnRun := BitVec.ofNat 16 (bAt f 6 2)
          measurement := sha256 (f.take (256 + bAt f 8 4)) } } : State).tickFree.event 0x6021
            s.uSec).outcome 0 0))) ∧
    (∀ (up : BitVec 4) (bad : List (Fin 100)), s.stepRuns 3 = true →
      (s.board.fusedMapOk = false → exec (.s3 up bad) s = .next (s.outcome 0x30 0)) ∧
      (∀ i, s.board.fusedMapOk = true → (bad.find? fun i : Fin 100 => (clusterOfIsland i.val).isNone) = some i →
        exec (.s3 up bad) s = .next (s.loadChart.outcome 0x31 (uIsland i))) ∧
      (s.board.fusedMapOk = true → (bad.find? fun i : Fin 100 => (clusterOfIsland i.val).isNone) = none →
        let t := ((bad.filterMap fun i : Fin 100 => clusterOfIsland i.val).foldl (fun s cl => s.dropCluster cl)
          s.loadChart).setBridges up
        let u := (List.range 4).foldl (fun s b =>
          if up.getLsbD b then s else s.event 0x0013 (uBridge b)) t
        exec (.s3 up bad) s = .next (u.split.outcome 0 0))) ∧
    (∀ (ports : BitVec 32) (channels : BitVec 16) t, s.stepRuns 4 = true →
      s.deadTile ports = some t → exec (.s4 ports channels) s = .next (s.outcome 0x40 (uBdp (8 * t)))) ∧
    (∀ (ports : BitVec 32) (channels : BitVec 16), s.stepRuns 4 = true → s.deadTile ports = none →
      let t := (List.range 32).foldl (fun s u =>
        let s1 := s.updBdp u fun x => { x with trained := true }
        if s.tileCut (u / 8) then s else if ports.getLsbD u then s1 else s1.dropPort u) s.applyRows
      let v := (List.range 16).foldl (fun s ch =>
        if !s.tileCut (ch / 4) && s.channelFitted ch && !channels.getLsbD ch then s.dropChannel ch
        else s) t
      let fitted := fun (s : State) (u : Nat) =>
        b2n (s.channelFitted (2 * u)) + b2n (s.channelFitted (2 * u + 1))
      exec (.s4 ports channels) s = .next (((List.range 8).foldl (fun s u =>
        s.updLpc u fun x => { x with pkgs := BitVec.ofNat 2 (fitted s u) }) v).outcome 0 0)) ∧
    (∀ rows : List RowTest, s.stepRuns 5 = true →
      let bad := rows.filter fun x => rowFails x (testPhases s.bu.test)
      let t := bad.foldl (fun s x => s.testRow x.row) s
      let u : State := { t with
        mem := { t.mem with bd := TierMem.zeroed t.mem.bd, lp := TierMem.zeroed t.mem.lp }
        bu := { t.bu with bdWritten := true } }
      exec (.s5 rows) s = .next ((if t.bu.test = 1 then
          (u.setBu fun b => { b with abbreviated := true }).event 0x7003 u.uMgmt else u).outcome 0 0)) ∧
    (∀ bad : List (BitVec 16 × BitVec 8), s.stepRuns 6 = true →
      exec (.s6 bad) s = .next (((testedUnits.filter fun u => !s.tileCut (tileOfUnit u)).foldl (fun s u =>
        let hit := bad.find? fun e => e.1.toNat == u
        s.updUnit u fun x => { x with
          tested := true, testBad := hit.isSome, testCode := (hit.map (·.2)).getD 0 }) s).outcome 0 0)) ∧
    (∀ ppr, s.stepRuns 7 = true →
      let t := testedUnits.foldl State.reconcile s
      (∀ u, t.fatalUnit = some (0x71, u) → exec (.s7 ppr) s =
        .next ((t.setBu fun b => { b with resetReq := true }).outcome 0x71 u)) ∧
      (∀ code u, code ≠ 0x71 → t.fatalUnit = some (code, u) →
        exec (.s7 ppr) s = .next (t.outcome code u)) ∧
      (t.fatalUnit = none →
        let v := (((List.range 4).foldl State.fillHelms ((List.range 4).foldl State.assignHelms
          ((List.range 32).foldl State.assignCluster t))).assignSingles.numberCores.repairPackages
            ppr).gateIdle
        let w : State := { v with cht := { v.cht with loaded := true } }
        exec (.s7 ppr) s = .next (({ w with bu := { w.bu with
          capBd := BitVec.ofNat 32 (w.mem.bd.gone.length + w.lostBefore .bd)
          capLpGran := BitVec.ofNat 16 (min (w.lpGone + w.lostBefore .lp) 0xFFFF) } } : State).outcome
            0 0))) ∧
    (s.stepRuns 8 = true →
      let t := (List.range 64).foldl (fun s l => s.updLink l fun k =>
        if k.mgmtMode then { k with mgmtMode := false, state := 0, lanes := 0 } else k) s
      ∀ links : List LinkTraining, exec (.s8 links) s = .next (((links.foldl (fun s x =>
        if x.link.val < 64 then s.trainBody x.link x else s) t).routesChanged 0).outcome 0 0)) ∧
    (s.stepRuns 9 = true → exec .s9 s =
      .next (((partDefaults s.bu.desc).foldl (fun s e => s.enableDefault e.1 e.2) s).outcome 0 0)) ∧
    (s.stepRuns 10 = true → exec .s10 s = .next (s.outcome 0 0)) ∧
    (∀ unit, s.bu.outcome = some (0, unit) → s.bu.busy = true → s.stepMayEnd = true →
      exec .buStepDone s = .next { s with bu := { s.bu with
        busy := false, failed := false, done := s.bu.run, outcome := none
        ready := s.bu.ready || s.bu.run == 10 } }) ∧
    (∀ code unit, code ≠ 0 → s.bu.outcome = some (code, unit) → s.bu.busy = true →
      s.stepMayEnd = true →
      exec .buStepDone s = .next (({ s with bu := { s.bu with
        busy := false, failed := true, outcome := none, code := BitVec.ofNat 8 code
        uid := BitVec.ofNat 16 unit } } : State).event 0x7002 (if unit = 0 then s.uMgmt else unit)))

/-- The always-on rail and power good start the module by itself; a power loss leaves what R528 lets
stay. A module with a bad descriptor and no host-link port offers management mode in every direction,
and takes the first neighbour's offer with a legal coordinate (R451). -/
def Obligations.PowerSequenceAndOffers : Prop :=
  (∀ (s : State),
    (s.pwr.input = .off → exec .alwaysOnRailUp s =
      .next { s with pwr := { s.pwr with input := .standby, cause := 0 } }) ∧
    (s.pwr.input = .standby → exec .powerGood s =
      .next (({ s with pwr := { s.pwr with input := .good } } : State).startS0 none)) ∧
    (let t := s.wiped 0
     exec .powerLoss s = .next { t with
       pwr := { t.pwr with input := .off, tripHold := false, temps := [] }
       log := { t.log with pwait := [] } })) ∧
  (∀ (s : State), s.atS0End = true → s.hostPort = none →
    (s.bu.descBad = true → s.bu.offering = false →
      let t : State := { s with bu := { s.bu with offering := true } }
      exec .descriptorFallbackTimeout s = .next (((List.range 8).filter fun d =>
        decide (1 < s.dimSize (d / 2))).foldl (fun s d => s.emit (.offer d)) t)) ∧
    (∀ (l : Fin 64) (at_ sizes : BitVec 8), s.bu.offering = true →
      let m := coordFields s.mod (at_.toNat + sizes.toNat * 2 ^ 16)
      (coordsLegal m = true → exec (.mgmtOffer l at_ sizes) s = .next
        ((({ s with mod := m, bu := { s.bu with hostDir := some (dirOf l) } } : State).mgmtLinks
          (dirOf l) 2).beginS1)) ∧
      (coordsLegal m = false → exec (.mgmtOffer l at_ sizes) s = .next s)))

/-- The persistent ring takes the oldest waiting record while its bucket has one to spend, else it is
counted; the bucket refills by one up to 64 (R513). A failure of the main ring moves the Logbook to its
mirror, once (R517). The operating time is committed to the next word of its rotating group, and never
runs back (R506). -/
def Obligations.LogbookRowsComplete : Prop :=
  ∀ (s : State),
    (∀ r rest, s.log.pwait = r :: rest →
      (s.log.bucket = 0 → exec .persistentRingWrite s = .next { s with log := { s.log with
        pwait := rest, pdrop := satInc s.log.pdrop } }) ∧
      (s.log.bucket ≠ 0 → exec .persistentRingWrite s = .next { s with
        free := s.free + 1
        log := { s.log with
          pwait := rest, bucket := s.log.bucket - 1, pring := SMap.set {} s.log.pring s.pringNext r } })) ∧
    exec .pdropBucketRefill s =
      .next { s with log := { s.log with bucket := min 64 (s.log.bucket + 1) } } ∧
    (s.pwr.input = .good →
      (s.log.mirror = false → exec .logRingFail s =
        .next (({ s with log := { s.log with mirror := true } } : State).event 0xF005 s.uMgmt)) ∧
      (s.log.mirror = true → exec .logRingFail s = .next s) ∧
      (∀ t : BitVec 40,
        (s.log.optime.toNat ≤ t.toNat → exec (.optimeCommit t) s =
          .next (({ s with log := { s.log with optime := t } } : State).prsOwn
            (1040 + ((rotTop s.prs 1040).1 + 1) % 8) (BitVec.ofNat 64 t.toNat))) ∧
        (t.toNat < s.log.optime.toNat → exec (.optimeCommit t) s = .next s)))

/-- The I3C target is there while MGMT_VIO is, with the always-on rail up: SETDASA and ENTDAA give it an
address, ENEC lets it interrupt, a private write of four bytes sets the read address and a longer one is
refused, and a private read of 4 to 256 bytes answers and moves the address on (R497, R498, R526). -/
def Obligations.I3cComplete : Prop :=
  ∀ (s : State),
    exec .mgmtVioAppear s = .next { s with pwr := { s.pwr with mgmtVio := true } } ∧
    exec .mgmtVioLoss s = .next { s with pwr := { s.pwr with mgmtVio := false } } ∧
    (s.i3cUp = false → ∀ (d : BitVec 7) (bs : List Byte) (n : Nat),
      exec (.i3cSetdasa d) s = .next s ∧ exec (.i3cEntdaa d) s = .next s ∧ exec .i3cEnec s = .next s ∧
      exec (.i3cAddressWrite bs) s = .next s ∧ exec (.i3cRead n) s = .next s) ∧
    (s.i3cUp = true →
      (∀ d : BitVec 7,
        exec (.i3cSetdasa d) s = .next { s with i3c := { s.i3c with dyn := some d } } ∧
        exec (.i3cEntdaa d) s = .next { s with
          out := s.out ++ [.i3c (leBytes 6 (Config.provisionedId s.board.serial).toNat)]
          i3c := { s.i3c with dyn := some d } }) ∧
      exec .i3cEnec s = .next { s with i3c := { s.i3c with ibi := true } } ∧
      (∀ bs : List Byte,
        (bs.length = 4 → exec (.i3cAddressWrite bs) s =
          .next { s with i3c := { s.i3c with addr := BitVec.ofNat 32 (leNat bs) } }) ∧
        (4 < bs.length → exec (.i3cAddressWrite bs) s = .next (s.emit .i3cNack))) ∧
      (∀ n t bs, 4 ≤ n → n ≤ 256 →
        i3cWords ((s.i3c.addr.toNat % 4 + n + 3) / 4) (s.i3c.addr.toNat / 4 * 4) s = (t, bs) →
        exec (.i3cRead n) s = .next (({ t with i3c := { t.i3c with
          addr := BitVec.ofNat 32 (s.i3c.addr.toNat + n) } } : State).emit
            (.i3c ((bs.drop (s.i3c.addr.toNat % 4)).take n)))))

/-! Power, clocks and failures. -/

/-- The input: a sample below 46 V starts the droop response at 8/16 once S0 has completed, one below
44 V for 1 ms holds 4/16, a recovery gives 1/16 back at a time; below 42 V for 10 ms the module
resets, as it does on its watchdog (R480, R485). A faulty phase is retired with its repair record and
0x0010; the rail is low once no spare stands in, which is recorded, and below three quarters of its
phases, or out of its band, the module resets (R475, R476). A local droop takes 2/16 from its own
cluster until it is released (R481). -/
def Obligations.DroopAndRailsComplete : Prop :=
  (∀ (s : State),
    let setDroop := fun (d : DroopPhase) => ({ s with pwr := { s.pwr with droop := d } } : State)
    let sampled := fun (vin iin : BitVec 16) (d : DroopPhase) =>
      (({ s with pwr := { s.pwr with vin := vin, iin := iin, droop := d } }) : State).followEpisodes false
    (∀ vin iin : BitVec 16, s.pwr.input ≠ .off →
      (46000 ≤ vin.toNat → exec (.inputSample vin iin) s = .next (sampled vin iin s.pwr.droop)) ∧
      (vin.toNat < 46000 → s.pastS0 = true →
        (s.pwr.droop = .none → exec (.inputSample vin iin) s = .next (sampled vin iin (.held 8))) ∧
        (∀ n, s.pwr.droop = .held n →
          exec (.inputSample vin iin) s = .next (sampled vin iin (.held n))) ∧
        (∀ n, s.pwr.droop = .restoring n →
          exec (.inputSample vin iin) s = .next (sampled vin iin (.held (min n 8)))))) ∧
    (s.pastS0 = true → s.pwr.vin.toNat < 44000 →
      exec .inputLowTimeout s = .next ((setDroop (.held 4)).followEpisodes false)) ∧
    (∀ n, s.pwr.droop = .held n → s.pastS0 = true → 47000 ≤ s.pwr.vin.toNat →
      exec .inputRecoveryTimeout s = .next (setDroop (.restoring n))) ∧
    (∀ n, s.pwr.droop = .restoring n →
      (n < 15 → exec .clockRestoreTick s =
        .next ((setDroop (.restoring (n + 1))).followEpisodes false)) ∧
      (15 ≤ n → exec .clockRestoreTick s = .next ((setDroop .none).followEpisodes false))) ∧
    (s.pastS0 = true → s.pwr.vin.toNat < 42000 →
      exec .brownoutTimeout s = .next (s.moduleReset 2 uPower)) ∧
    exec .mgmtWatchdog s = .next (s.moduleReset 4 uPower)) ∧
  (∀ (s : State),
    (∀ (r : Fin 25) (ph : BitVec 8), s.railIsOn r = true → s.pwr.input = .good →
      ph.toNat < railN r + 2 → (s.rail r).retired.contains ph.toNat = false →
      let t := ((s.updRail r fun x => { x with retired := x.retired ++ [ph.toNat] }).repairRec (uRail r)
        ph.toNat 7 3).event 0x0010 (uRail r)
      let w := (t.rail r).working (railN r)
      let u := t.event 0x0011 (uRail r)
      let after := if railN r ≤ w then t else if 4 * w < 3 * railN r then u.moduleReset 5 uPower else u
      exec (.phaseFault r ph) s = .next after ∧ exec (.railFault r (some ph)) s = .next after) ∧
    (∀ r : Fin 25, s.railIsOn r = true →
      exec (.railFault r none) s = .next (s.moduleReset 5 uPower)) ∧
    (∀ cl : Fin 32,
      let isl := islandOfCluster cl
      (s.railIsOn 0 = true → s.awake isl = true → (s.island isl).local_ = false →
        exec (.localDroop cl) s = .next (s.updIsland isl fun x => { x with
          local_ := true, localCount := satInc x.localCount })) ∧
      exec (.localDroopRelease cl) s = .next (s.updIsland isl fun x => { x with local_ := false })))

/-- The power cap is followed window by window, above it stretching, below 95 % releasing, and each
millisecond takes or gives back 1/16 for the cap, the low rails and the islands at 95 °C (R476, R482,
R483, R484). A sensor at 115 °C trips the module, one at 105 °C stretches its island at once (R483). A
quiet cluster of no sealed partition and an idle memory port stop after their idle time; a request
queues their wake, and each slot of a tile's FIFO goes to its head (R477 to R479). -/
def Obligations.PowerCapHeatAndStops : Prop :=
  (∀ (s : State), s.pwr.input = .good →
    (∀ w : BitVec 16,
      let dir := if s.pwr.capW.toNat < w.toNat then LimitDir.raise
        else if w.toNat * 100 < 95 * s.pwr.capW.toNat then .release
        else if s.pwr.capDir = .release then .release else .hold
      let full := decide (s.pwr.capW.toNat < w.toNat) && s.cappedIslands.all fun i => s.clkFactor i == 4
      exec (.powerWindow w) s = .next { s with
        free := s.free + 1
        pwr := { s.pwr with
          pin := w, pmax := if s.pwr.pmax.toNat < w.toNat then w else s.pwr.pmax, capDir := dir
          capOver := if full then satInc s.pwr.capOver else s.pwr.capOver
          rails := (List.range 25).foldl (fun m r =>
            SMap.modify {} m r fun x => { x with dir := s.railDir r x }) s.pwr.rails } }) ∧
    exec .stretchStepTick s = .next (({ s with pwr := { s.pwr with
      therm := ((List.range 100).filter stretchable).foldl (fun m i =>
        SMap.set 0 m i (s.thermNext i)) s.pwr.therm
      capSteps := if s.pwr.capDir = .raise ∧ s.cappedIslands = [] then s.pwr.capSteps
        else stepDir s.pwr.capDir s.pwr.capSteps
      rails := (List.range 25).foldl (fun m r =>
        SMap.modify {} m r fun x => { x with steps := stepDir x.dir x.steps }) s.pwr.rails } } :
          State).followEpisodes true) ∧
    (∀ (isl : Fin 100) (t : BitVec 16),
      let temps := SMap.set none s.pwr.temps isl (some t)
      let hot := hottest temps
      let k := if hot.length = 1 then hot.headD 0
        else hot.getD (Config.freePick s.free 3000 % hot.length) 0
      let read : State := { s with
        free := s.free + 1
        pwr := { s.pwr with
          temps := temps, tmax := (SMap.get none temps k).getD 0, tmaxIsl := BitVec.ofNat 7 k } }
      (s.pwr.tripHold = false →
        (920 ≤ t.toInt → exec (.thermalSample isl t) s = .next
          (({ read with pwr := { read.pwr with tripHold := true } } : State).moduleReset 3 uPower)) ∧
        (840 ≤ t.toInt → t.toInt < 920 → isl.val % 25 ≠ 24 → exec (.thermalSample isl t) s = .next
          (({ read with pwr := { read.pwr with
            therm := SMap.set 0 s.pwr.therm isl 12 } } : State).followEpisodes false)) ∧
        (t.toInt < 840 ∨ (isl.val % 25 = 24 ∧ t.toInt < 920) →
          exec (.thermalSample isl t) s = .next read)) ∧
      (s.pwr.tripHold = true → exec (.thermalSample isl t) s = .next read.endTrip))) ∧
  (∀ (s : State),
    (s.railIsOn 0 = true →
      (∀ cl : Fin 32, s.awake (islandOfCluster cl) = true → s.clusterQuiet cl = true →
        s.sealedIsland (islandOfCluster cl) = false →
        exec (.clusterIdleTimeout cl) s = .next (s.updIsland (islandOfCluster cl) fun x => { x with
          state := 2, local_ := false })) ∧
      (∀ u : Fin 40, s.awake (memIsland u) = true → s.sealedMemory u = false →
        exec (.memoryIdleTimeout u) s =
          .next (s.updIsland (memIsland u) fun x => { x with state := 2 })) ∧
      (∀ (t : Fin 4) isl n rest, SMap.get [] s.clk.wakes t = (isl, n) :: rest →
        let set := fun (q : List (Nat × Nat)) =>
          ({ s with clk := { s.clk with wakes := SMap.set [] s.clk.wakes t q } } : State)
        (1 < n → exec (.wakeSlot t) s = .next (set ((isl, n - 1) :: rest))) ∧
        (n ≤ 1 → exec (.wakeSlot t) s =
          .next ((set rest).updIsland isl fun x => { x with state := 0 })))) ∧
    (∀ isl : Fin 100, (s.island isl).state = 2 →
      exec (.wakeRequest isl) s = .next (s.queueWake isl)))

/-- Failures in service: a core is reset, marked bad and replaced by its cluster's spare (R470); a helm
core that stops is marked bad and its partition is reset (R39); a unit without a spare ends its users
with DEVICE_FAULT (R469); while a partition is being enabled such a failure waits for the end of the
enable (R420); the last security engine ends what it was to serve and loses the keys (R440);
a bridge that fails leaves a chain, and tiles that it cuts off are lost (R26, R27); an unmated cable
takes its links or its port down (R519). -/
def Obligations.FailuresComplete : Prop :=
  ∀ (s : State),
    (s.enabling = true →
      let waits := fun (u : Nat) => ({ s with cht := { s.cht with late := s.cht.late ++ [u] } } : State)
      (∀ c : Fin 192, exec (.coreHwFault c) s = .next (waits (uCore c))) ∧
      (∀ h : Fin 20, exec (.helmHeartbeatTimeout h) s = .next (waits (uHelm h))) ∧
      (∀ u : BitVec 16, noSpare u.toNat = true → exec (.unitFail u) s = .next (waits u.toNat))) ∧
    (s.stepDone 7 = true →
      (s.sec.failed = false → exec .secEngineFail s = .next s.secFail) ∧
      (s.sec.failed = true → exec .secEngineFail s = .next s)) ∧
    (s.enabling = false → s.stepDone 7 = true →
      (∀ c : Fin 192, s.coreServes c = true → exec (.coreHwFault c) s = .next
        (((s.startReset ⟨.core, c, false, BitVec.ofNat 16 s.uMgmt, false⟩).markBad (uCore c)).replaceCore
          c)) ∧
      (∀ h : Fin 20, s.helmRole h ≠ 0 →
        (s.helmPart h = none → exec (.helmHeartbeatTimeout h) s = .next (s.markBad (uHelm h))) ∧
        (∀ p, s.helmPart h = some p → exec (.helmHeartbeatTimeout h) s =
          .next ((s.markBad (uHelm h)).helmLost p))) ∧
      (∀ u : BitVec 16, noSpare u.toNat = true → u.toNat ∉ s.cht.lost →
        let t := s.faultUsers (fun s p c => s.usesUnit p c u.toNat) u.toNat
        let v := (({ t with cht := { t.cht with lost := t.cht.lost ++ [u.toNat] } } : State).updUnit u.toNat
          fun x => { x with role := 0 }).event 0x7014 u.toNat
        exec (.unitFail u) s =
          .next (if u.toNat / 0x1000 = 0xE then v.islandLost (u.toNat % 0x1000) else v))) ∧
    (∀ b : Fin 4, s.stepDone 3 = true → s.mod.bridgeUp.getLsbD b = true →
      let up := s.mod.bridgeUp &&& ~~~(BitVec.ofNat 4 (2 ^ b.val))
      let t := (s.setBridges up).event 0x0013 (uBridge b)
      let new := s.cutBy up &&& ~~~s.mod.tileCut
      (new = 0 → exec (.bridgeFail b) s = .next t) ∧
      (new ≠ 0 → exec (.bridgeFail b) s = .next (t.cutOff new))) ∧
    (∀ d : Fin 8, exec (.cableUnmate ⟨d, by omega⟩) s = .next
      (((List.range (dirCount d)).map (dirBase d + ·)).foldl (fun s l => s.withService l fun s =>
        let t := s.updLink l fun x => { x with mated := false, mgmtMode := false }
        if (s.link l).state != 0 && (s.link l).state != 5 then t.linkLanes l false false 0 6 else t)
        s)) ∧
    (∀ u : Fin 2,
      let t := s.updPort u fun x => { x with mated := false }
      ((portLive (s.port u) || (s.port u).state == 1) = true →
        exec (.cableUnmate ⟨8 + u, by omega⟩) s = .next ((t.portDown u 5).event 0x8001 (uPort u))) ∧
      ((portLive (s.port u) || (s.port u).state == 1) = false →
        exec (.cableUnmate ⟨8 + u, by omega⟩) s = .next t))

/-- Peer links. A packet with a bad CRC is refused and what follows is discarded; one that breaks the
protocol is a violation; the next one in order is acknowledged, taken and sent on, and one that has come
before is acknowledged again (R243 to R245, R256). An ACK frees what it acknowledges and a NACK or a timeout
replays, or retrains after eight replays (R245, R246). A window of corrected symbols takes a lane out of use
(R247). The end of a retraining, and the partner's own training, set the lanes in use, and leave a link
DOWN that is cabled wrongly or FAILED after three failures (R246 to R249, R258); a partner that has not come
to S8 is trained in management mode (R449). What the other end and other modules report changes the routes
(R253, R257). -/
def Obligations.PeerLinksComplete : Prop :=
  ∀ (s : State) (l : Fin 64),
    let k := s.link l
    (∀ (body : List Byte) (crc : Word) (credit : Bool),
      let f := readFlit body
      let come := exec (.dataPacket l body crc credit) s
      k.mgmtMode = false ∨ f.kind = 5 ∨ f.kind = 6 → linkRuns k = true ∨ k.state = 4 →
      (bodyOk body crc = false → come = .next ((s.updLink l fun k => { k with
        crcFail := satInc k.crcFail, rxDiscard := true }).emit
          (.nack (uLink l) (some k.rxNext.toNat) 0x01))) ∧
      (∀ r, bodyOk body crc = true → s.flitBad l f credit = some r →
        come = .next (s.violation l f.seq.toNat r)) ∧
      (bodyOk body crc = true → s.flitBad l f credit = none →
        let t := (s.ackThrough l f.ack).commitAcked
        (sequenced f = false → come = .next t) ∧
        (sequenced f = true → f.seq = (t.link l).rxNext → come = .next
          (((t.updLink l fun k => { k with rxNext := k.rxNext + 1, rxDiscard := false }).emit
            (.ack l f.seq.toNat)).forward l f)) ∧
        (sequenced f = true → f.seq ≠ (t.link l).rxNext →
          (repeats (t.link l) f = true → come = .next (t.emit (.ack l ((t.link l).rxNext - 1).toNat))) ∧
          (repeats (t.link l) f = false → come = .next t)))) ∧
    (linkRuns k = true →
      (∀ seq, exec (.ackNack l seq false) s = .next (s.ackThrough l seq).commitAcked) ∧
      (∀ seq, exec (.ackNack l seq true) s =
        .next ((s.ackThrough l (seq - 1)).commitAcked.replayOrRetrain l)) ∧
      (k.sent ≠ [] → k.replayCount < 8 → exec (.ackTimeout l) s = .next (s.replayLink l)) ∧
      (k.sent ≠ [] → 8 ≤ k.replayCount → exec (.ackTimeout l) s = .next (s.updLink l fun k => { k with
        state := 1, replayCount := 0 })) ∧
      (∀ (lane : Bool) (corr : BitVec 32) (spares : Fin 3),
        let t := s.updLink l fun k => { k with fecCorr := satAdd k.fecCorr corr.toNat }
        let bad := if lane then k.lane1Bad else k.lane0Bad
        (corr.toNat ≤ 2 ^ k.ceLog2.toNat ∨ bad = true →
          exec (.laneFecWindow l lane corr spares) s = .next t) ∧
        (2 ^ k.ceLog2.toNat < corr.toNat → bad = false →
          exec (.laneFecWindow l lane corr spares) s = .next (t.withService l fun s =>
            (s.linkLanes l (lane && !k.lane0Bad) (!lane && !k.lane1Bad) spares.val 5).linkResumes l)))) ∧
    (∀ t : LinkTraining, t.link.val = l.val →
      let ends := fun (u : State) =>
        (k.state = 1 → exec (.linkRetrainDone t.link t.lanes t.ok t.partner) s = .next (s.withService l fun _ => u)) ∧
        (s.stepDone 8 = true → k.state = 0 ∨ k.mgmtMode = true → t.partner.mgmt = false →
          exec (.partnerLinkTraining t) s = .next (s.withService l fun _ => u))
      let v := s.updLink l fun k => { k with
        peerCoord := t.partner.coord, peerLink := t.partner.link, mated := true, mgmtMode := false
        partnerOut := k.partnerOut && k.state == 1 }
      let right := t.partner.coord.toNat = s.neighbour s.coord (dirOf l) ∧ t.partner.link.toNat = partnerLink l
      let some_ := t.lanes.getLsbD 0 = true ∨ t.lanes.getLsbD 1 = true
      let both := t.lanes.getLsbD 0 = true ∧ t.lanes.getLsbD 1 = true
      let n := if t.ok then 0 else k.fails + 1
      let w := v.updLink l fun k => { k with fails := n }
      (s.connected l = false ∨ k.disable = true → ends s) ∧
      (s.connected l = true → k.disable = false →
        (¬ right → some_ →
          ends ((v.updLink l fun k => { k with state := 0, lanes := 0 }).event 0x3006 (uLink l))) ∧
        (right ∨ ¬ some_ → 3 ≤ n →
          ends ((w.updLink l fun k => { k with state := 5, lanes := 0 }).event 0x3001 (uLink l))) ∧
        (right ∨ ¬ some_ → n < 3 → t.ok = false → both →
          ends (w.updLink l fun k => { k with state := 1 })) ∧
        (right ∨ ¬ some_ → n < 3 → t.ok = true ∨ ¬ both →
          ends ((w.linkLanes l (t.lanes.getLsbD 0) (t.lanes.getLsbD 1) t.partner.spares.val 6).linkResumes
            l)) ∧
        (s.stepDone 1 = true → k.state = 0 ∨ k.mgmtMode = true → t.partner.mgmt = true →
          exec (.partnerLinkTraining t) s = .next (s.trainMgmt l t)))) ∧
    (∀ (t : LinkTraining) (u : Fin 2), t.link.val = 64 + u.val → s.tileCut (tileOfPort u) = false →
      (s.port u).disable = false →
      (s.stepDone 1 = true → (s.port u).state = 0 ∨ (s.port u).state = 1 →
        exec (.partnerLinkTraining t) s = .next (s.trainPort u t.lanes)) ∧
      ((s.port u).state = 1 → exec (.linkRetrainDone t.link t.lanes t.ok t.partner) s = .next (s.trainPort u t.lanes))) ∧
    (∀ (at_ : BitVec 8) (mask : BitVec 64), s.stepDone 8 = true → s.coordOk at_.toNat = true →
      at_.toNat ≠ s.coord → SMap.get 0 s.remote at_.toNat ≠ mask →
      exec (.linkStateExchange at_ mask) s = .next
        (({ s with remote := SMap.set 0 s.remote at_.toNat mask } : State).routesChanged 0)) ∧
    (k.disable = false → k.state ≠ 0 → k.state ≠ 5 →
      exec (.linkControl l true true) s = .next (s.withService l fun s => s.updLink l fun k => { k with
        partnerOut := true, state := 0, lanes := 0 }) ∧
      (∀ out, exec (.linkControl l out false) s = .next (s.withService l fun s => s.updLink l fun k =>
        { k with partnerOut := out })))
end

