-- ==== Sys2Proof/Laws/Map.lean ====
section
/-! SUPPORT. Sparse maps: reading after writing, and the canonical form, which every write keeps and in
which equal maps are equal data. -/

namespace Sys2Proof
variable {α : Type}

@[simp] theorem SMap.get_nil (d : α) (k : Nat) : SMap.get d [] k = d := rfl

theorem SMap.get_cons (d : α) (e : Nat × α) (m : SMap α) (j : Nat) :
    SMap.get d (e :: m) j = if j = e.1 then e.2 else SMap.get d m j := rfl

theorem SMap.mem_erase {m : SMap α} {k : Nat} {e : Nat × α} :
    e ∈ SMap.erase m k ↔ e ∈ m ∧ e.1 ≠ k := by simp [SMap.erase]

theorem SMap.erase_cons (e : Nat × α) (m : SMap α) (k : Nat) :
    SMap.erase (e :: m) k = if e.1 = k then SMap.erase m k else e :: SMap.erase m k := by
  by_cases h : e.1 = k <;> simp [SMap.erase, h]

theorem SMap.get_erase (d : α) (m : SMap α) (k j : Nat) :
    SMap.get d (SMap.erase m k) j = if j = k then d else SMap.get d m j := by
  induction m with
  | nil => simp [SMap.erase]
  | cons e m ih =>
    rw [SMap.erase_cons]
    by_cases he : e.1 = k
    · rw [if_pos he, ih, SMap.get_cons]
      by_cases hj : j = k
      · rw [if_pos hj, if_pos hj]
      · rw [if_neg hj, if_neg hj, if_neg (by omega)]
    · rw [if_neg he, SMap.get_cons, SMap.get_cons, ih]
      by_cases hj : j = k
      · rw [if_pos hj, if_pos hj, if_neg (by omega)]
      · rw [if_neg hj, if_neg hj]

/-- Inserting a key that the map does not list. -/
theorem SMap.get_insert (d : α) (m : SMap α) (k j : Nat) (v : α) (h : ∀ e ∈ m, e.1 ≠ k) :
    SMap.get d (SMap.insert k v m) j = if j = k then v else SMap.get d m j := by
  induction m with
  | nil => rfl
  | cons e m ih =>
    have hm := ih fun x hx => h x (List.mem_cons_of_mem _ hx)
    have he := h e List.mem_cons_self
    unfold SMap.insert
    split_ifs with hk hj hj
    · simp [SMap.get_cons, hj]
    · simp [SMap.get_cons, hj]
    · rw [SMap.get_cons, if_neg (by simpa [hj] using Ne.symm he), hm, if_pos hj]
    · rw [SMap.get_cons, hm, if_neg hj, SMap.get_cons]

variable [DecidableEq α]

/-- Reading after writing. -/
@[simp] theorem SMap.get_set (d : α) (m : SMap α) (k j : Nat) (v : α) :
    SMap.get d (SMap.set d m k v) j = if j = k then v else SMap.get d m j := by
  unfold SMap.set
  split_ifs with hv hj hj
  · rw [SMap.get_erase, if_pos hj, hv]
  · rw [SMap.get_erase, if_neg hj]
  · rw [SMap.get_insert _ _ _ _ _ (by simp [SMap.mem_erase]), if_pos hj]
  · rw [SMap.get_insert _ _ _ _ _ (by simp [SMap.mem_erase]), if_neg hj, SMap.get_erase, if_neg hj]

@[simp] theorem SMap.get_modify (d : α) (m : SMap α) (k j : Nat) (f : α → α) :
    SMap.get d (SMap.modify d m k f) j = if j = k then f (SMap.get d m k) else SMap.get d m j := by
  simp [SMap.modify]

/-! The canonical form. -/

omit [DecidableEq α] in
theorem SMap.sortedAbove_some {b : Nat} {m : SMap α} :
    SMap.sortedAbove (some b) m = true ↔ (∀ e ∈ m, b < e.1) ∧ m.Pairwise fun x y => x.1 < y.1 := by
  induction m generalizing b with
  | nil => simp [SMap.sortedAbove]
  | cons e m ih =>
    obtain ⟨k, v⟩ := e
    simp only [SMap.sortedAbove, Bool.and_eq_true, decide_eq_true_eq, ih, List.pairwise_cons,
      List.mem_cons, forall_eq_or_imp]
    constructor
    · rintro ⟨h1, h2, h3⟩
      exact ⟨⟨h1, fun x hx => lt_trans h1 (h2 x hx)⟩, h2, h3⟩
    · rintro ⟨⟨h1, -⟩, h2, h3⟩
      exact ⟨h1, h2, h3⟩

theorem SMap.wf_iff {d : α} {m : SMap α} :
    SMap.wf d m = true ↔ (m.Pairwise fun x y => x.1 < y.1) ∧ ∀ e ∈ m, e.2 ≠ d := by
  have : SMap.sortedAbove none m = true ↔ m.Pairwise fun x y => x.1 < y.1 := by
    cases m with
    | nil => simp [SMap.sortedAbove]
    | cons e m =>
      obtain ⟨k, v⟩ := e
      simp [SMap.sortedAbove, SMap.sortedAbove_some]
  simp [SMap.wf, this]

omit [DecidableEq α] in
theorem SMap.insert_mem {m : SMap α} {k : Nat} {v : α} {e : Nat × α} :
    e ∈ SMap.insert k v m ↔ e = (k, v) ∨ e ∈ m := by
  induction m with
  | nil => simp [SMap.insert]
  | cons x m ih =>
    unfold SMap.insert
    split_ifs
    · simp
    · simp [ih, or_left_comm]

omit [DecidableEq α] in
theorem SMap.insert_pairwise {m : SMap α} {k : Nat} {v : α} (hm : m.Pairwise fun x y => x.1 < y.1)
    (hk : ∀ e ∈ m, e.1 ≠ k) : (SMap.insert k v m).Pairwise fun x y => x.1 < y.1 := by
  induction m with
  | nil => simp [SMap.insert]
  | cons e m ih =>
    rw [List.pairwise_cons] at hm
    have he := hk e List.mem_cons_self
    unfold SMap.insert
    split_ifs with h
    · refine List.pairwise_cons.2 ⟨fun x hx => ?_, List.pairwise_cons.2 hm⟩
      rcases List.mem_cons.1 hx with rfl | hx
      · exact h
      · exact lt_trans h (hm.1 x hx)
    · refine List.pairwise_cons.2 ⟨fun x hx => ?_, ih hm.2 fun x hx => hk x (List.mem_cons_of_mem _ hx)⟩
      rcases SMap.insert_mem.1 hx with rfl | hx
      · simp only; omega
      · exact hm.1 x hx

theorem SMap.erase_wf {d : α} {m : SMap α} (h : SMap.wf d m = true) (k : Nat) :
    SMap.wf d (SMap.erase m k) = true := by
  rw [SMap.wf_iff] at h ⊢
  exact ⟨h.1.filter _, fun e he => h.2 e (SMap.mem_erase.1 he).1⟩

/-- Every write keeps the canonical form. -/
theorem SMap.set_wf {d : α} {m : SMap α} (h : SMap.wf d m = true) (k : Nat) (v : α) :
    SMap.wf d (SMap.set d m k v) = true := by
  unfold SMap.set
  split_ifs with hv
  · exact SMap.erase_wf h k
  · have he := SMap.wf_iff.1 (SMap.erase_wf h k)
    refine SMap.wf_iff.2 ⟨SMap.insert_pairwise he.1 (by simp [SMap.mem_erase]), fun e hm => ?_⟩
    rcases SMap.insert_mem.1 hm with rfl | hm
    · exact hv
    · exact he.2 e hm

theorem SMap.modify_wf {d : α} {m : SMap α} (h : SMap.wf d m = true) (k : Nat) (f : α → α) :
    SMap.wf d (SMap.modify d m k f) = true := SMap.set_wf h k _

omit [DecidableEq α] in
theorem SMap.get_below {d : α} {m : SMap α} {j : Nat} (h : ∀ e ∈ m, j < e.1) : SMap.get d m j = d := by
  induction m with
  | nil => rfl
  | cons e m ih =>
    have := h e List.mem_cons_self
    rw [SMap.get_cons, if_neg (by omega), ih fun x hx => h x (List.mem_cons_of_mem _ hx)]

/-- In the canonical form, maps that read alike are equal data. -/
theorem SMap.ext_of_get {d : α} {m n : SMap α} (hm : SMap.wf d m = true) (hn : SMap.wf d n = true)
    (h : ∀ k, SMap.get d m k = SMap.get d n k) : m = n := by
  rw [SMap.wf_iff] at hm hn
  induction m generalizing n with
  | nil =>
    cases n with
    | nil => rfl
    | cons e n =>
      have := h e.1
      rw [SMap.get_cons, if_pos rfl] at this
      exact absurd this.symm (hn.2 e List.mem_cons_self)
  | cons e m ih =>
    cases n with
    | nil =>
      have := h e.1
      rw [SMap.get_cons, if_pos rfl] at this
      exact absurd this (hm.2 e List.mem_cons_self)
    | cons x n =>
      have hm1 := List.pairwise_cons.1 hm.1
      have hn1 := List.pairwise_cons.1 hn.1
      have below {y z : Nat × α} {l : SMap α} (hl : ∀ w ∈ l, z.1 < w.1) (hy : y.1 < z.1) :
          SMap.get d (z :: l) y.1 = d :=
        SMap.get_below fun w hw => by
          rcases List.mem_cons.1 hw with rfl | hw
          · exact hy
          · exact lt_trans hy (hl w hw)
      have key : e.1 = x.1 := by
        rcases lt_trichotomy e.1 x.1 with hlt | heq | hgt
        · have := h e.1
          rw [below hn1.1 hlt, SMap.get_cons, if_pos rfl] at this
          exact absurd this (hm.2 e List.mem_cons_self)
        · exact heq
        · have := h x.1
          rw [below hm1.1 hgt, SMap.get_cons, if_pos rfl] at this
          exact absurd this.symm (hn.2 x List.mem_cons_self)
      have val : e.2 = x.2 := by
        have := h e.1
        rwa [SMap.get_cons, if_pos rfl, SMap.get_cons, if_pos key] at this
      have tail : m = n := by
        refine ih ⟨hm1.2, fun y hy => hm.2 y (List.mem_cons_of_mem _ hy)⟩
          ⟨hn1.2, fun y hy => hn.2 y (List.mem_cons_of_mem _ hy)⟩ fun k => ?_
        have := h k
        rw [SMap.get_cons, SMap.get_cons] at this
        by_cases hk : k = e.1
        · rw [SMap.get_below fun w hw => hk ▸ hm1.1 w hw,
            SMap.get_below fun w hw => (hk.trans key) ▸ hn1.1 w hw]
        · rwa [if_neg hk, if_neg (key ▸ hk)] at this
      rw [tail, Prod.ext key val]

end Sys2Proof
end

