-- ==== Sys2Proof/Laws/State.lean ====
section
/-! SUPPORT. One lemma per field of `State` and per update of it, and what an update of one part, core,
link, port, island or Loom reads as afterwards. -/

namespace Sys2Proof.Machine

@[simp] theorem State.tickFree_pending (s : State) : (s.tickFree).pending = s.pending := rfl
@[simp] theorem State.tickFree_board (s : State) : (s.tickFree).board = s.board := rfl
@[simp] theorem State.tickFree_mod (s : State) : (s.tickFree).mod = s.mod := rfl
@[simp] theorem State.tickFree_bu (s : State) : (s.tickFree).bu = s.bu := rfl
@[simp] theorem State.tickFree_cht (s : State) : (s.tickFree).cht = s.cht := rfl
@[simp] theorem State.tickFree_rst (s : State) : (s.tickFree).rst = s.rst := rfl
@[simp] theorem State.tickFree_pwr (s : State) : (s.tickFree).pwr = s.pwr := rfl
@[simp] theorem State.tickFree_clk (s : State) : (s.tickFree).clk = s.clk := rfl
@[simp] theorem State.tickFree_ul (s : State) : (s.tickFree).ul = s.ul := rfl
@[simp] theorem State.tickFree_i3c (s : State) : (s.tickFree).i3c = s.i3c := rfl
@[simp] theorem State.tickFree_prs (s : State) : (s.tickFree).prs = s.prs := rfl
@[simp] theorem State.tickFree_log (s : State) : (s.tickFree).log = s.log := rfl
@[simp] theorem State.tickFree_sec (s : State) : (s.tickFree).sec = s.sec := rfl
@[simp] theorem State.tickFree_mem (s : State) : (s.tickFree).mem = s.mem := rfl
@[simp] theorem State.tickFree_parts (s : State) : (s.tickFree).parts = s.parts := rfl
@[simp] theorem State.tickFree_cores (s : State) : (s.tickFree).cores = s.cores := rfl
@[simp] theorem State.tickFree_links (s : State) : (s.tickFree).links = s.links := rfl
@[simp] theorem State.tickFree_groups (s : State) : (s.tickFree).groups = s.groups := rfl
@[simp] theorem State.tickFree_hashes (s : State) : (s.tickFree).hashes = s.hashes := rfl
@[simp] theorem State.tickFree_looms (s : State) : (s.tickFree).looms = s.looms := rfl
@[simp] theorem State.tickFree_remote (s : State) : (s.tickFree).remote = s.remote := rfl
@[simp] theorem State.tickFree_heldIrqs (s : State) : (s.tickFree).heldIrqs = s.heldIrqs := rfl
@[simp] theorem State.tickFree_out (s : State) : (s.tickFree).out = s.out := rfl

@[simp] theorem State.waking_pending (s t : State) : (s.waking t).pending = s.pending := rfl
@[simp] theorem State.waking_free (s t : State) : (s.waking t).free = s.free := rfl
@[simp] theorem State.waking_board (s t : State) : (s.waking t).board = s.board := rfl
@[simp] theorem State.waking_mod (s t : State) : (s.waking t).mod = s.mod := rfl
@[simp] theorem State.waking_bu (s t : State) : (s.waking t).bu = s.bu := rfl
@[simp] theorem State.waking_cht (s t : State) : (s.waking t).cht = s.cht := rfl
@[simp] theorem State.waking_rst (s t : State) : (s.waking t).rst = s.rst := rfl
@[simp] theorem State.waking_pwr (s t : State) : (s.waking t).pwr = s.pwr := rfl
@[simp] theorem State.waking_ul (s t : State) : (s.waking t).ul = s.ul := rfl
@[simp] theorem State.waking_i3c (s t : State) : (s.waking t).i3c = s.i3c := rfl
@[simp] theorem State.waking_prs (s t : State) : (s.waking t).prs = s.prs := rfl
@[simp] theorem State.waking_log (s t : State) : (s.waking t).log = s.log := rfl
@[simp] theorem State.waking_sec (s t : State) : (s.waking t).sec = s.sec := rfl
@[simp] theorem State.waking_mem (s t : State) : (s.waking t).mem = s.mem := rfl
@[simp] theorem State.waking_parts (s t : State) : (s.waking t).parts = s.parts := rfl
@[simp] theorem State.waking_cores (s t : State) : (s.waking t).cores = s.cores := rfl
@[simp] theorem State.waking_links (s t : State) : (s.waking t).links = s.links := rfl
@[simp] theorem State.waking_groups (s t : State) : (s.waking t).groups = s.groups := rfl
@[simp] theorem State.waking_hashes (s t : State) : (s.waking t).hashes = s.hashes := rfl
@[simp] theorem State.waking_looms (s t : State) : (s.waking t).looms = s.looms := rfl
@[simp] theorem State.waking_remote (s t : State) : (s.waking t).remote = s.remote := rfl
@[simp] theorem State.waking_heldIrqs (s t : State) : (s.waking t).heldIrqs = s.heldIrqs := rfl
@[simp] theorem State.waking_out (s t : State) : (s.waking t).out = s.out := rfl
@[simp] theorem State.waking_clk (s t : State) : (s.waking t).clk = t.clk := rfl

@[simp] theorem State.updPart_pending (s : State) (p : Nat) (f : Part → Part) : (s.updPart p f).pending = s.pending := rfl
@[simp] theorem State.updPart_free (s : State) (p : Nat) (f : Part → Part) : (s.updPart p f).free = s.free := rfl
@[simp] theorem State.updPart_board (s : State) (p : Nat) (f : Part → Part) : (s.updPart p f).board = s.board := rfl
@[simp] theorem State.updPart_mod (s : State) (p : Nat) (f : Part → Part) : (s.updPart p f).mod = s.mod := rfl
@[simp] theorem State.updPart_bu (s : State) (p : Nat) (f : Part → Part) : (s.updPart p f).bu = s.bu := rfl
@[simp] theorem State.updPart_cht (s : State) (p : Nat) (f : Part → Part) : (s.updPart p f).cht = s.cht := rfl
@[simp] theorem State.updPart_rst (s : State) (p : Nat) (f : Part → Part) : (s.updPart p f).rst = s.rst := rfl
@[simp] theorem State.updPart_pwr (s : State) (p : Nat) (f : Part → Part) : (s.updPart p f).pwr = s.pwr := rfl
@[simp] theorem State.updPart_clk (s : State) (p : Nat) (f : Part → Part) : (s.updPart p f).clk = s.clk := rfl
@[simp] theorem State.updPart_ul (s : State) (p : Nat) (f : Part → Part) : (s.updPart p f).ul = s.ul := rfl
@[simp] theorem State.updPart_i3c (s : State) (p : Nat) (f : Part → Part) : (s.updPart p f).i3c = s.i3c := rfl
@[simp] theorem State.updPart_prs (s : State) (p : Nat) (f : Part → Part) : (s.updPart p f).prs = s.prs := rfl
@[simp] theorem State.updPart_log (s : State) (p : Nat) (f : Part → Part) : (s.updPart p f).log = s.log := rfl
@[simp] theorem State.updPart_sec (s : State) (p : Nat) (f : Part → Part) : (s.updPart p f).sec = s.sec := rfl
@[simp] theorem State.updPart_mem (s : State) (p : Nat) (f : Part → Part) : (s.updPart p f).mem = s.mem := rfl
@[simp] theorem State.updPart_cores (s : State) (p : Nat) (f : Part → Part) : (s.updPart p f).cores = s.cores := rfl
@[simp] theorem State.updPart_links (s : State) (p : Nat) (f : Part → Part) : (s.updPart p f).links = s.links := rfl
@[simp] theorem State.updPart_groups (s : State) (p : Nat) (f : Part → Part) : (s.updPart p f).groups = s.groups := rfl
@[simp] theorem State.updPart_hashes (s : State) (p : Nat) (f : Part → Part) : (s.updPart p f).hashes = s.hashes := rfl
@[simp] theorem State.updPart_looms (s : State) (p : Nat) (f : Part → Part) : (s.updPart p f).looms = s.looms := rfl
@[simp] theorem State.updPart_remote (s : State) (p : Nat) (f : Part → Part) : (s.updPart p f).remote = s.remote := rfl
@[simp] theorem State.updPart_heldIrqs (s : State) (p : Nat) (f : Part → Part) : (s.updPart p f).heldIrqs = s.heldIrqs := rfl
@[simp] theorem State.updPart_out (s : State) (p : Nat) (f : Part → Part) : (s.updPart p f).out = s.out := rfl

@[simp] theorem State.updCore_pending (s : State) (c : Nat) (f : Core → Core) : (s.updCore c f).pending = s.pending := rfl
@[simp] theorem State.updCore_free (s : State) (c : Nat) (f : Core → Core) : (s.updCore c f).free = s.free := rfl
@[simp] theorem State.updCore_board (s : State) (c : Nat) (f : Core → Core) : (s.updCore c f).board = s.board := rfl
@[simp] theorem State.updCore_mod (s : State) (c : Nat) (f : Core → Core) : (s.updCore c f).mod = s.mod := rfl
@[simp] theorem State.updCore_bu (s : State) (c : Nat) (f : Core → Core) : (s.updCore c f).bu = s.bu := rfl
@[simp] theorem State.updCore_cht (s : State) (c : Nat) (f : Core → Core) : (s.updCore c f).cht = s.cht := rfl
@[simp] theorem State.updCore_rst (s : State) (c : Nat) (f : Core → Core) : (s.updCore c f).rst = s.rst := rfl
@[simp] theorem State.updCore_pwr (s : State) (c : Nat) (f : Core → Core) : (s.updCore c f).pwr = s.pwr := rfl
@[simp] theorem State.updCore_clk (s : State) (c : Nat) (f : Core → Core) : (s.updCore c f).clk = s.clk := rfl
@[simp] theorem State.updCore_ul (s : State) (c : Nat) (f : Core → Core) : (s.updCore c f).ul = s.ul := rfl
@[simp] theorem State.updCore_i3c (s : State) (c : Nat) (f : Core → Core) : (s.updCore c f).i3c = s.i3c := rfl
@[simp] theorem State.updCore_prs (s : State) (c : Nat) (f : Core → Core) : (s.updCore c f).prs = s.prs := rfl
@[simp] theorem State.updCore_log (s : State) (c : Nat) (f : Core → Core) : (s.updCore c f).log = s.log := rfl
@[simp] theorem State.updCore_sec (s : State) (c : Nat) (f : Core → Core) : (s.updCore c f).sec = s.sec := rfl
@[simp] theorem State.updCore_mem (s : State) (c : Nat) (f : Core → Core) : (s.updCore c f).mem = s.mem := rfl
@[simp] theorem State.updCore_parts (s : State) (c : Nat) (f : Core → Core) : (s.updCore c f).parts = s.parts := rfl
@[simp] theorem State.updCore_links (s : State) (c : Nat) (f : Core → Core) : (s.updCore c f).links = s.links := rfl
@[simp] theorem State.updCore_groups (s : State) (c : Nat) (f : Core → Core) : (s.updCore c f).groups = s.groups := rfl
@[simp] theorem State.updCore_hashes (s : State) (c : Nat) (f : Core → Core) : (s.updCore c f).hashes = s.hashes := rfl
@[simp] theorem State.updCore_looms (s : State) (c : Nat) (f : Core → Core) : (s.updCore c f).looms = s.looms := rfl
@[simp] theorem State.updCore_remote (s : State) (c : Nat) (f : Core → Core) : (s.updCore c f).remote = s.remote := rfl
@[simp] theorem State.updCore_heldIrqs (s : State) (c : Nat) (f : Core → Core) : (s.updCore c f).heldIrqs = s.heldIrqs := rfl
@[simp] theorem State.updCore_out (s : State) (c : Nat) (f : Core → Core) : (s.updCore c f).out = s.out := rfl

@[simp] theorem State.updLink_pending (s : State) (l : Nat) (f : Link → Link) : (s.updLink l f).pending = s.pending := rfl
@[simp] theorem State.updLink_free (s : State) (l : Nat) (f : Link → Link) : (s.updLink l f).free = s.free := rfl
@[simp] theorem State.updLink_board (s : State) (l : Nat) (f : Link → Link) : (s.updLink l f).board = s.board := rfl
@[simp] theorem State.updLink_mod (s : State) (l : Nat) (f : Link → Link) : (s.updLink l f).mod = s.mod := rfl
@[simp] theorem State.updLink_bu (s : State) (l : Nat) (f : Link → Link) : (s.updLink l f).bu = s.bu := rfl
@[simp] theorem State.updLink_cht (s : State) (l : Nat) (f : Link → Link) : (s.updLink l f).cht = s.cht := rfl
@[simp] theorem State.updLink_rst (s : State) (l : Nat) (f : Link → Link) : (s.updLink l f).rst = s.rst := rfl
@[simp] theorem State.updLink_pwr (s : State) (l : Nat) (f : Link → Link) : (s.updLink l f).pwr = s.pwr := rfl
@[simp] theorem State.updLink_clk (s : State) (l : Nat) (f : Link → Link) : (s.updLink l f).clk = s.clk := rfl
@[simp] theorem State.updLink_ul (s : State) (l : Nat) (f : Link → Link) : (s.updLink l f).ul = s.ul := rfl
@[simp] theorem State.updLink_i3c (s : State) (l : Nat) (f : Link → Link) : (s.updLink l f).i3c = s.i3c := rfl
@[simp] theorem State.updLink_prs (s : State) (l : Nat) (f : Link → Link) : (s.updLink l f).prs = s.prs := rfl
@[simp] theorem State.updLink_log (s : State) (l : Nat) (f : Link → Link) : (s.updLink l f).log = s.log := rfl
@[simp] theorem State.updLink_sec (s : State) (l : Nat) (f : Link → Link) : (s.updLink l f).sec = s.sec := rfl
@[simp] theorem State.updLink_mem (s : State) (l : Nat) (f : Link → Link) : (s.updLink l f).mem = s.mem := rfl
@[simp] theorem State.updLink_parts (s : State) (l : Nat) (f : Link → Link) : (s.updLink l f).parts = s.parts := rfl
@[simp] theorem State.updLink_cores (s : State) (l : Nat) (f : Link → Link) : (s.updLink l f).cores = s.cores := rfl
@[simp] theorem State.updLink_groups (s : State) (l : Nat) (f : Link → Link) : (s.updLink l f).groups = s.groups := rfl
@[simp] theorem State.updLink_hashes (s : State) (l : Nat) (f : Link → Link) : (s.updLink l f).hashes = s.hashes := rfl
@[simp] theorem State.updLink_looms (s : State) (l : Nat) (f : Link → Link) : (s.updLink l f).looms = s.looms := rfl
@[simp] theorem State.updLink_remote (s : State) (l : Nat) (f : Link → Link) : (s.updLink l f).remote = s.remote := rfl
@[simp] theorem State.updLink_heldIrqs (s : State) (l : Nat) (f : Link → Link) : (s.updLink l f).heldIrqs = s.heldIrqs := rfl
@[simp] theorem State.updLink_out (s : State) (l : Nat) (f : Link → Link) : (s.updLink l f).out = s.out := rfl

@[simp] theorem State.updPort_pending (s : State) (u : Nat) (f : UlPort → UlPort) : (s.updPort u f).pending = s.pending := rfl
@[simp] theorem State.updPort_free (s : State) (u : Nat) (f : UlPort → UlPort) : (s.updPort u f).free = s.free := rfl
@[simp] theorem State.updPort_board (s : State) (u : Nat) (f : UlPort → UlPort) : (s.updPort u f).board = s.board := rfl
@[simp] theorem State.updPort_mod (s : State) (u : Nat) (f : UlPort → UlPort) : (s.updPort u f).mod = s.mod := rfl
@[simp] theorem State.updPort_bu (s : State) (u : Nat) (f : UlPort → UlPort) : (s.updPort u f).bu = s.bu := rfl
@[simp] theorem State.updPort_cht (s : State) (u : Nat) (f : UlPort → UlPort) : (s.updPort u f).cht = s.cht := rfl
@[simp] theorem State.updPort_rst (s : State) (u : Nat) (f : UlPort → UlPort) : (s.updPort u f).rst = s.rst := rfl
@[simp] theorem State.updPort_pwr (s : State) (u : Nat) (f : UlPort → UlPort) : (s.updPort u f).pwr = s.pwr := rfl
@[simp] theorem State.updPort_clk (s : State) (u : Nat) (f : UlPort → UlPort) : (s.updPort u f).clk = s.clk := rfl
@[simp] theorem State.updPort_i3c (s : State) (u : Nat) (f : UlPort → UlPort) : (s.updPort u f).i3c = s.i3c := rfl
@[simp] theorem State.updPort_prs (s : State) (u : Nat) (f : UlPort → UlPort) : (s.updPort u f).prs = s.prs := rfl
@[simp] theorem State.updPort_log (s : State) (u : Nat) (f : UlPort → UlPort) : (s.updPort u f).log = s.log := rfl
@[simp] theorem State.updPort_sec (s : State) (u : Nat) (f : UlPort → UlPort) : (s.updPort u f).sec = s.sec := rfl
@[simp] theorem State.updPort_mem (s : State) (u : Nat) (f : UlPort → UlPort) : (s.updPort u f).mem = s.mem := rfl
@[simp] theorem State.updPort_parts (s : State) (u : Nat) (f : UlPort → UlPort) : (s.updPort u f).parts = s.parts := rfl
@[simp] theorem State.updPort_cores (s : State) (u : Nat) (f : UlPort → UlPort) : (s.updPort u f).cores = s.cores := rfl
@[simp] theorem State.updPort_links (s : State) (u : Nat) (f : UlPort → UlPort) : (s.updPort u f).links = s.links := rfl
@[simp] theorem State.updPort_groups (s : State) (u : Nat) (f : UlPort → UlPort) : (s.updPort u f).groups = s.groups := rfl
@[simp] theorem State.updPort_hashes (s : State) (u : Nat) (f : UlPort → UlPort) : (s.updPort u f).hashes = s.hashes := rfl
@[simp] theorem State.updPort_looms (s : State) (u : Nat) (f : UlPort → UlPort) : (s.updPort u f).looms = s.looms := rfl
@[simp] theorem State.updPort_remote (s : State) (u : Nat) (f : UlPort → UlPort) : (s.updPort u f).remote = s.remote := rfl
@[simp] theorem State.updPort_heldIrqs (s : State) (u : Nat) (f : UlPort → UlPort) : (s.updPort u f).heldIrqs = s.heldIrqs := rfl
@[simp] theorem State.updPort_out (s : State) (u : Nat) (f : UlPort → UlPort) : (s.updPort u f).out = s.out := rfl

@[simp] theorem State.updBdp_pending (s : State) (u : Nat) (f : BdPort → BdPort) : (s.updBdp u f).pending = s.pending := rfl
@[simp] theorem State.updBdp_free (s : State) (u : Nat) (f : BdPort → BdPort) : (s.updBdp u f).free = s.free := rfl
@[simp] theorem State.updBdp_board (s : State) (u : Nat) (f : BdPort → BdPort) : (s.updBdp u f).board = s.board := rfl
@[simp] theorem State.updBdp_mod (s : State) (u : Nat) (f : BdPort → BdPort) : (s.updBdp u f).mod = s.mod := rfl
@[simp] theorem State.updBdp_bu (s : State) (u : Nat) (f : BdPort → BdPort) : (s.updBdp u f).bu = s.bu := rfl
@[simp] theorem State.updBdp_cht (s : State) (u : Nat) (f : BdPort → BdPort) : (s.updBdp u f).cht = s.cht := rfl
@[simp] theorem State.updBdp_rst (s : State) (u : Nat) (f : BdPort → BdPort) : (s.updBdp u f).rst = s.rst := rfl
@[simp] theorem State.updBdp_pwr (s : State) (u : Nat) (f : BdPort → BdPort) : (s.updBdp u f).pwr = s.pwr := rfl
@[simp] theorem State.updBdp_clk (s : State) (u : Nat) (f : BdPort → BdPort) : (s.updBdp u f).clk = s.clk := rfl
@[simp] theorem State.updBdp_ul (s : State) (u : Nat) (f : BdPort → BdPort) : (s.updBdp u f).ul = s.ul := rfl
@[simp] theorem State.updBdp_i3c (s : State) (u : Nat) (f : BdPort → BdPort) : (s.updBdp u f).i3c = s.i3c := rfl
@[simp] theorem State.updBdp_prs (s : State) (u : Nat) (f : BdPort → BdPort) : (s.updBdp u f).prs = s.prs := rfl
@[simp] theorem State.updBdp_log (s : State) (u : Nat) (f : BdPort → BdPort) : (s.updBdp u f).log = s.log := rfl
@[simp] theorem State.updBdp_sec (s : State) (u : Nat) (f : BdPort → BdPort) : (s.updBdp u f).sec = s.sec := rfl
@[simp] theorem State.updBdp_parts (s : State) (u : Nat) (f : BdPort → BdPort) : (s.updBdp u f).parts = s.parts := rfl
@[simp] theorem State.updBdp_cores (s : State) (u : Nat) (f : BdPort → BdPort) : (s.updBdp u f).cores = s.cores := rfl
@[simp] theorem State.updBdp_links (s : State) (u : Nat) (f : BdPort → BdPort) : (s.updBdp u f).links = s.links := rfl
@[simp] theorem State.updBdp_groups (s : State) (u : Nat) (f : BdPort → BdPort) : (s.updBdp u f).groups = s.groups := rfl
@[simp] theorem State.updBdp_hashes (s : State) (u : Nat) (f : BdPort → BdPort) : (s.updBdp u f).hashes = s.hashes := rfl
@[simp] theorem State.updBdp_looms (s : State) (u : Nat) (f : BdPort → BdPort) : (s.updBdp u f).looms = s.looms := rfl
@[simp] theorem State.updBdp_remote (s : State) (u : Nat) (f : BdPort → BdPort) : (s.updBdp u f).remote = s.remote := rfl
@[simp] theorem State.updBdp_heldIrqs (s : State) (u : Nat) (f : BdPort → BdPort) : (s.updBdp u f).heldIrqs = s.heldIrqs := rfl
@[simp] theorem State.updBdp_out (s : State) (u : Nat) (f : BdPort → BdPort) : (s.updBdp u f).out = s.out := rfl

@[simp] theorem State.updLpc_pending (s : State) (u : Nat) (f : LpCtrl → LpCtrl) : (s.updLpc u f).pending = s.pending := rfl
@[simp] theorem State.updLpc_free (s : State) (u : Nat) (f : LpCtrl → LpCtrl) : (s.updLpc u f).free = s.free := rfl
@[simp] theorem State.updLpc_board (s : State) (u : Nat) (f : LpCtrl → LpCtrl) : (s.updLpc u f).board = s.board := rfl
@[simp] theorem State.updLpc_mod (s : State) (u : Nat) (f : LpCtrl → LpCtrl) : (s.updLpc u f).mod = s.mod := rfl
@[simp] theorem State.updLpc_bu (s : State) (u : Nat) (f : LpCtrl → LpCtrl) : (s.updLpc u f).bu = s.bu := rfl
@[simp] theorem State.updLpc_cht (s : State) (u : Nat) (f : LpCtrl → LpCtrl) : (s.updLpc u f).cht = s.cht := rfl
@[simp] theorem State.updLpc_rst (s : State) (u : Nat) (f : LpCtrl → LpCtrl) : (s.updLpc u f).rst = s.rst := rfl
@[simp] theorem State.updLpc_pwr (s : State) (u : Nat) (f : LpCtrl → LpCtrl) : (s.updLpc u f).pwr = s.pwr := rfl
@[simp] theorem State.updLpc_clk (s : State) (u : Nat) (f : LpCtrl → LpCtrl) : (s.updLpc u f).clk = s.clk := rfl
@[simp] theorem State.updLpc_ul (s : State) (u : Nat) (f : LpCtrl → LpCtrl) : (s.updLpc u f).ul = s.ul := rfl
@[simp] theorem State.updLpc_i3c (s : State) (u : Nat) (f : LpCtrl → LpCtrl) : (s.updLpc u f).i3c = s.i3c := rfl
@[simp] theorem State.updLpc_prs (s : State) (u : Nat) (f : LpCtrl → LpCtrl) : (s.updLpc u f).prs = s.prs := rfl
@[simp] theorem State.updLpc_log (s : State) (u : Nat) (f : LpCtrl → LpCtrl) : (s.updLpc u f).log = s.log := rfl
@[simp] theorem State.updLpc_sec (s : State) (u : Nat) (f : LpCtrl → LpCtrl) : (s.updLpc u f).sec = s.sec := rfl
@[simp] theorem State.updLpc_parts (s : State) (u : Nat) (f : LpCtrl → LpCtrl) : (s.updLpc u f).parts = s.parts := rfl
@[simp] theorem State.updLpc_cores (s : State) (u : Nat) (f : LpCtrl → LpCtrl) : (s.updLpc u f).cores = s.cores := rfl
@[simp] theorem State.updLpc_links (s : State) (u : Nat) (f : LpCtrl → LpCtrl) : (s.updLpc u f).links = s.links := rfl
@[simp] theorem State.updLpc_groups (s : State) (u : Nat) (f : LpCtrl → LpCtrl) : (s.updLpc u f).groups = s.groups := rfl
@[simp] theorem State.updLpc_hashes (s : State) (u : Nat) (f : LpCtrl → LpCtrl) : (s.updLpc u f).hashes = s.hashes := rfl
@[simp] theorem State.updLpc_looms (s : State) (u : Nat) (f : LpCtrl → LpCtrl) : (s.updLpc u f).looms = s.looms := rfl
@[simp] theorem State.updLpc_remote (s : State) (u : Nat) (f : LpCtrl → LpCtrl) : (s.updLpc u f).remote = s.remote := rfl
@[simp] theorem State.updLpc_heldIrqs (s : State) (u : Nat) (f : LpCtrl → LpCtrl) : (s.updLpc u f).heldIrqs = s.heldIrqs := rfl
@[simp] theorem State.updLpc_out (s : State) (u : Nat) (f : LpCtrl → LpCtrl) : (s.updLpc u f).out = s.out := rfl

@[simp] theorem State.updIsland_pending (s : State) (n : Nat) (f : Island → Island) : (s.updIsland n f).pending = s.pending := rfl
@[simp] theorem State.updIsland_free (s : State) (n : Nat) (f : Island → Island) : (s.updIsland n f).free = s.free := rfl
@[simp] theorem State.updIsland_board (s : State) (n : Nat) (f : Island → Island) : (s.updIsland n f).board = s.board := rfl
@[simp] theorem State.updIsland_mod (s : State) (n : Nat) (f : Island → Island) : (s.updIsland n f).mod = s.mod := rfl
@[simp] theorem State.updIsland_bu (s : State) (n : Nat) (f : Island → Island) : (s.updIsland n f).bu = s.bu := rfl
@[simp] theorem State.updIsland_cht (s : State) (n : Nat) (f : Island → Island) : (s.updIsland n f).cht = s.cht := rfl
@[simp] theorem State.updIsland_rst (s : State) (n : Nat) (f : Island → Island) : (s.updIsland n f).rst = s.rst := rfl
@[simp] theorem State.updIsland_pwr (s : State) (n : Nat) (f : Island → Island) : (s.updIsland n f).pwr = s.pwr := rfl
@[simp] theorem State.updIsland_ul (s : State) (n : Nat) (f : Island → Island) : (s.updIsland n f).ul = s.ul := rfl
@[simp] theorem State.updIsland_i3c (s : State) (n : Nat) (f : Island → Island) : (s.updIsland n f).i3c = s.i3c := rfl
@[simp] theorem State.updIsland_prs (s : State) (n : Nat) (f : Island → Island) : (s.updIsland n f).prs = s.prs := rfl
@[simp] theorem State.updIsland_log (s : State) (n : Nat) (f : Island → Island) : (s.updIsland n f).log = s.log := rfl
@[simp] theorem State.updIsland_sec (s : State) (n : Nat) (f : Island → Island) : (s.updIsland n f).sec = s.sec := rfl
@[simp] theorem State.updIsland_mem (s : State) (n : Nat) (f : Island → Island) : (s.updIsland n f).mem = s.mem := rfl
@[simp] theorem State.updIsland_parts (s : State) (n : Nat) (f : Island → Island) : (s.updIsland n f).parts = s.parts := rfl
@[simp] theorem State.updIsland_cores (s : State) (n : Nat) (f : Island → Island) : (s.updIsland n f).cores = s.cores := rfl
@[simp] theorem State.updIsland_links (s : State) (n : Nat) (f : Island → Island) : (s.updIsland n f).links = s.links := rfl
@[simp] theorem State.updIsland_groups (s : State) (n : Nat) (f : Island → Island) : (s.updIsland n f).groups = s.groups := rfl
@[simp] theorem State.updIsland_hashes (s : State) (n : Nat) (f : Island → Island) : (s.updIsland n f).hashes = s.hashes := rfl
@[simp] theorem State.updIsland_looms (s : State) (n : Nat) (f : Island → Island) : (s.updIsland n f).looms = s.looms := rfl
@[simp] theorem State.updIsland_remote (s : State) (n : Nat) (f : Island → Island) : (s.updIsland n f).remote = s.remote := rfl
@[simp] theorem State.updIsland_heldIrqs (s : State) (n : Nat) (f : Island → Island) : (s.updIsland n f).heldIrqs = s.heldIrqs := rfl
@[simp] theorem State.updIsland_out (s : State) (n : Nat) (f : Island → Island) : (s.updIsland n f).out = s.out := rfl

@[simp] theorem State.updLoom_pending (s : State) (t : Nat) (f : Loom → Loom) : (s.updLoom t f).pending = s.pending := rfl
@[simp] theorem State.updLoom_free (s : State) (t : Nat) (f : Loom → Loom) : (s.updLoom t f).free = s.free := rfl
@[simp] theorem State.updLoom_board (s : State) (t : Nat) (f : Loom → Loom) : (s.updLoom t f).board = s.board := rfl
@[simp] theorem State.updLoom_mod (s : State) (t : Nat) (f : Loom → Loom) : (s.updLoom t f).mod = s.mod := rfl
@[simp] theorem State.updLoom_bu (s : State) (t : Nat) (f : Loom → Loom) : (s.updLoom t f).bu = s.bu := rfl
@[simp] theorem State.updLoom_cht (s : State) (t : Nat) (f : Loom → Loom) : (s.updLoom t f).cht = s.cht := rfl
@[simp] theorem State.updLoom_rst (s : State) (t : Nat) (f : Loom → Loom) : (s.updLoom t f).rst = s.rst := rfl
@[simp] theorem State.updLoom_pwr (s : State) (t : Nat) (f : Loom → Loom) : (s.updLoom t f).pwr = s.pwr := rfl
@[simp] theorem State.updLoom_clk (s : State) (t : Nat) (f : Loom → Loom) : (s.updLoom t f).clk = s.clk := rfl
@[simp] theorem State.updLoom_ul (s : State) (t : Nat) (f : Loom → Loom) : (s.updLoom t f).ul = s.ul := rfl
@[simp] theorem State.updLoom_i3c (s : State) (t : Nat) (f : Loom → Loom) : (s.updLoom t f).i3c = s.i3c := rfl
@[simp] theorem State.updLoom_prs (s : State) (t : Nat) (f : Loom → Loom) : (s.updLoom t f).prs = s.prs := rfl
@[simp] theorem State.updLoom_log (s : State) (t : Nat) (f : Loom → Loom) : (s.updLoom t f).log = s.log := rfl
@[simp] theorem State.updLoom_sec (s : State) (t : Nat) (f : Loom → Loom) : (s.updLoom t f).sec = s.sec := rfl
@[simp] theorem State.updLoom_mem (s : State) (t : Nat) (f : Loom → Loom) : (s.updLoom t f).mem = s.mem := rfl
@[simp] theorem State.updLoom_parts (s : State) (t : Nat) (f : Loom → Loom) : (s.updLoom t f).parts = s.parts := rfl
@[simp] theorem State.updLoom_cores (s : State) (t : Nat) (f : Loom → Loom) : (s.updLoom t f).cores = s.cores := rfl
@[simp] theorem State.updLoom_links (s : State) (t : Nat) (f : Loom → Loom) : (s.updLoom t f).links = s.links := rfl
@[simp] theorem State.updLoom_groups (s : State) (t : Nat) (f : Loom → Loom) : (s.updLoom t f).groups = s.groups := rfl
@[simp] theorem State.updLoom_hashes (s : State) (t : Nat) (f : Loom → Loom) : (s.updLoom t f).hashes = s.hashes := rfl
@[simp] theorem State.updLoom_remote (s : State) (t : Nat) (f : Loom → Loom) : (s.updLoom t f).remote = s.remote := rfl
@[simp] theorem State.updLoom_heldIrqs (s : State) (t : Nat) (f : Loom → Loom) : (s.updLoom t f).heldIrqs = s.heldIrqs := rfl
@[simp] theorem State.updLoom_out (s : State) (t : Nat) (f : Loom → Loom) : (s.updLoom t f).out = s.out := rfl

@[simp] theorem State.updUnit_pending (s : State) (u : Nat) (f : UnitEntry → UnitEntry) : (s.updUnit u f).pending = s.pending := rfl
@[simp] theorem State.updUnit_free (s : State) (u : Nat) (f : UnitEntry → UnitEntry) : (s.updUnit u f).free = s.free := rfl
@[simp] theorem State.updUnit_board (s : State) (u : Nat) (f : UnitEntry → UnitEntry) : (s.updUnit u f).board = s.board := rfl
@[simp] theorem State.updUnit_mod (s : State) (u : Nat) (f : UnitEntry → UnitEntry) : (s.updUnit u f).mod = s.mod := rfl
@[simp] theorem State.updUnit_bu (s : State) (u : Nat) (f : UnitEntry → UnitEntry) : (s.updUnit u f).bu = s.bu := rfl
@[simp] theorem State.updUnit_rst (s : State) (u : Nat) (f : UnitEntry → UnitEntry) : (s.updUnit u f).rst = s.rst := rfl
@[simp] theorem State.updUnit_pwr (s : State) (u : Nat) (f : UnitEntry → UnitEntry) : (s.updUnit u f).pwr = s.pwr := rfl
@[simp] theorem State.updUnit_clk (s : State) (u : Nat) (f : UnitEntry → UnitEntry) : (s.updUnit u f).clk = s.clk := rfl
@[simp] theorem State.updUnit_ul (s : State) (u : Nat) (f : UnitEntry → UnitEntry) : (s.updUnit u f).ul = s.ul := rfl
@[simp] theorem State.updUnit_i3c (s : State) (u : Nat) (f : UnitEntry → UnitEntry) : (s.updUnit u f).i3c = s.i3c := rfl
@[simp] theorem State.updUnit_prs (s : State) (u : Nat) (f : UnitEntry → UnitEntry) : (s.updUnit u f).prs = s.prs := rfl
@[simp] theorem State.updUnit_log (s : State) (u : Nat) (f : UnitEntry → UnitEntry) : (s.updUnit u f).log = s.log := rfl
@[simp] theorem State.updUnit_sec (s : State) (u : Nat) (f : UnitEntry → UnitEntry) : (s.updUnit u f).sec = s.sec := rfl
@[simp] theorem State.updUnit_mem (s : State) (u : Nat) (f : UnitEntry → UnitEntry) : (s.updUnit u f).mem = s.mem := rfl
@[simp] theorem State.updUnit_parts (s : State) (u : Nat) (f : UnitEntry → UnitEntry) : (s.updUnit u f).parts = s.parts := rfl
@[simp] theorem State.updUnit_cores (s : State) (u : Nat) (f : UnitEntry → UnitEntry) : (s.updUnit u f).cores = s.cores := rfl
@[simp] theorem State.updUnit_links (s : State) (u : Nat) (f : UnitEntry → UnitEntry) : (s.updUnit u f).links = s.links := rfl
@[simp] theorem State.updUnit_groups (s : State) (u : Nat) (f : UnitEntry → UnitEntry) : (s.updUnit u f).groups = s.groups := rfl
@[simp] theorem State.updUnit_hashes (s : State) (u : Nat) (f : UnitEntry → UnitEntry) : (s.updUnit u f).hashes = s.hashes := rfl
@[simp] theorem State.updUnit_looms (s : State) (u : Nat) (f : UnitEntry → UnitEntry) : (s.updUnit u f).looms = s.looms := rfl
@[simp] theorem State.updUnit_remote (s : State) (u : Nat) (f : UnitEntry → UnitEntry) : (s.updUnit u f).remote = s.remote := rfl
@[simp] theorem State.updUnit_heldIrqs (s : State) (u : Nat) (f : UnitEntry → UnitEntry) : (s.updUnit u f).heldIrqs = s.heldIrqs := rfl
@[simp] theorem State.updUnit_out (s : State) (u : Nat) (f : UnitEntry → UnitEntry) : (s.updUnit u f).out = s.out := rfl

@[simp] theorem State.emit_pending (s : State) (o : Out) : (s.emit o).pending = s.pending := rfl
@[simp] theorem State.emit_free (s : State) (o : Out) : (s.emit o).free = s.free := rfl
@[simp] theorem State.emit_board (s : State) (o : Out) : (s.emit o).board = s.board := rfl
@[simp] theorem State.emit_mod (s : State) (o : Out) : (s.emit o).mod = s.mod := rfl
@[simp] theorem State.emit_bu (s : State) (o : Out) : (s.emit o).bu = s.bu := rfl
@[simp] theorem State.emit_cht (s : State) (o : Out) : (s.emit o).cht = s.cht := rfl
@[simp] theorem State.emit_rst (s : State) (o : Out) : (s.emit o).rst = s.rst := rfl
@[simp] theorem State.emit_pwr (s : State) (o : Out) : (s.emit o).pwr = s.pwr := rfl
@[simp] theorem State.emit_clk (s : State) (o : Out) : (s.emit o).clk = s.clk := rfl
@[simp] theorem State.emit_ul (s : State) (o : Out) : (s.emit o).ul = s.ul := rfl
@[simp] theorem State.emit_i3c (s : State) (o : Out) : (s.emit o).i3c = s.i3c := rfl
@[simp] theorem State.emit_prs (s : State) (o : Out) : (s.emit o).prs = s.prs := rfl
@[simp] theorem State.emit_log (s : State) (o : Out) : (s.emit o).log = s.log := rfl
@[simp] theorem State.emit_sec (s : State) (o : Out) : (s.emit o).sec = s.sec := rfl
@[simp] theorem State.emit_mem (s : State) (o : Out) : (s.emit o).mem = s.mem := rfl
@[simp] theorem State.emit_parts (s : State) (o : Out) : (s.emit o).parts = s.parts := rfl
@[simp] theorem State.emit_cores (s : State) (o : Out) : (s.emit o).cores = s.cores := rfl
@[simp] theorem State.emit_links (s : State) (o : Out) : (s.emit o).links = s.links := rfl
@[simp] theorem State.emit_groups (s : State) (o : Out) : (s.emit o).groups = s.groups := rfl
@[simp] theorem State.emit_hashes (s : State) (o : Out) : (s.emit o).hashes = s.hashes := rfl
@[simp] theorem State.emit_looms (s : State) (o : Out) : (s.emit o).looms = s.looms := rfl
@[simp] theorem State.emit_remote (s : State) (o : Out) : (s.emit o).remote = s.remote := rfl
@[simp] theorem State.emit_heldIrqs (s : State) (o : Out) : (s.emit o).heldIrqs = s.heldIrqs := rfl

@[simp] theorem State.setI3c_pending (s : State) (f : I3cState → I3cState) : (s.setI3c f).pending = s.pending := rfl
@[simp] theorem State.setI3c_free (s : State) (f : I3cState → I3cState) : (s.setI3c f).free = s.free := rfl
@[simp] theorem State.setI3c_board (s : State) (f : I3cState → I3cState) : (s.setI3c f).board = s.board := rfl
@[simp] theorem State.setI3c_mod (s : State) (f : I3cState → I3cState) : (s.setI3c f).mod = s.mod := rfl
@[simp] theorem State.setI3c_bu (s : State) (f : I3cState → I3cState) : (s.setI3c f).bu = s.bu := rfl
@[simp] theorem State.setI3c_cht (s : State) (f : I3cState → I3cState) : (s.setI3c f).cht = s.cht := rfl
@[simp] theorem State.setI3c_rst (s : State) (f : I3cState → I3cState) : (s.setI3c f).rst = s.rst := rfl
@[simp] theorem State.setI3c_pwr (s : State) (f : I3cState → I3cState) : (s.setI3c f).pwr = s.pwr := rfl
@[simp] theorem State.setI3c_clk (s : State) (f : I3cState → I3cState) : (s.setI3c f).clk = s.clk := rfl
@[simp] theorem State.setI3c_ul (s : State) (f : I3cState → I3cState) : (s.setI3c f).ul = s.ul := rfl
@[simp] theorem State.setI3c_prs (s : State) (f : I3cState → I3cState) : (s.setI3c f).prs = s.prs := rfl
@[simp] theorem State.setI3c_log (s : State) (f : I3cState → I3cState) : (s.setI3c f).log = s.log := rfl
@[simp] theorem State.setI3c_sec (s : State) (f : I3cState → I3cState) : (s.setI3c f).sec = s.sec := rfl
@[simp] theorem State.setI3c_mem (s : State) (f : I3cState → I3cState) : (s.setI3c f).mem = s.mem := rfl
@[simp] theorem State.setI3c_parts (s : State) (f : I3cState → I3cState) : (s.setI3c f).parts = s.parts := rfl
@[simp] theorem State.setI3c_cores (s : State) (f : I3cState → I3cState) : (s.setI3c f).cores = s.cores := rfl
@[simp] theorem State.setI3c_links (s : State) (f : I3cState → I3cState) : (s.setI3c f).links = s.links := rfl
@[simp] theorem State.setI3c_groups (s : State) (f : I3cState → I3cState) : (s.setI3c f).groups = s.groups := rfl
@[simp] theorem State.setI3c_hashes (s : State) (f : I3cState → I3cState) : (s.setI3c f).hashes = s.hashes := rfl
@[simp] theorem State.setI3c_looms (s : State) (f : I3cState → I3cState) : (s.setI3c f).looms = s.looms := rfl
@[simp] theorem State.setI3c_remote (s : State) (f : I3cState → I3cState) : (s.setI3c f).remote = s.remote := rfl
@[simp] theorem State.setI3c_heldIrqs (s : State) (f : I3cState → I3cState) : (s.setI3c f).heldIrqs = s.heldIrqs := rfl
@[simp] theorem State.setI3c_out (s : State) (f : I3cState → I3cState) : (s.setI3c f).out = s.out := rfl

@[simp] theorem State.withQueue_free (s : State) (cs : List Instr) : (s.withQueue cs).free = s.free := rfl
@[simp] theorem State.withQueue_board (s : State) (cs : List Instr) : (s.withQueue cs).board = s.board := rfl
@[simp] theorem State.withQueue_mod (s : State) (cs : List Instr) : (s.withQueue cs).mod = s.mod := rfl
@[simp] theorem State.withQueue_bu (s : State) (cs : List Instr) : (s.withQueue cs).bu = s.bu := rfl
@[simp] theorem State.withQueue_cht (s : State) (cs : List Instr) : (s.withQueue cs).cht = s.cht := rfl
@[simp] theorem State.withQueue_rst (s : State) (cs : List Instr) : (s.withQueue cs).rst = s.rst := rfl
@[simp] theorem State.withQueue_pwr (s : State) (cs : List Instr) : (s.withQueue cs).pwr = s.pwr := rfl
@[simp] theorem State.withQueue_clk (s : State) (cs : List Instr) : (s.withQueue cs).clk = s.clk := rfl
@[simp] theorem State.withQueue_ul (s : State) (cs : List Instr) : (s.withQueue cs).ul = s.ul := rfl
@[simp] theorem State.withQueue_i3c (s : State) (cs : List Instr) : (s.withQueue cs).i3c = s.i3c := rfl
@[simp] theorem State.withQueue_prs (s : State) (cs : List Instr) : (s.withQueue cs).prs = s.prs := rfl
@[simp] theorem State.withQueue_log (s : State) (cs : List Instr) : (s.withQueue cs).log = s.log := rfl
@[simp] theorem State.withQueue_sec (s : State) (cs : List Instr) : (s.withQueue cs).sec = s.sec := rfl
@[simp] theorem State.withQueue_mem (s : State) (cs : List Instr) : (s.withQueue cs).mem = s.mem := rfl
@[simp] theorem State.withQueue_parts (s : State) (cs : List Instr) : (s.withQueue cs).parts = s.parts := rfl
@[simp] theorem State.withQueue_cores (s : State) (cs : List Instr) : (s.withQueue cs).cores = s.cores := rfl
@[simp] theorem State.withQueue_links (s : State) (cs : List Instr) : (s.withQueue cs).links = s.links := rfl
@[simp] theorem State.withQueue_groups (s : State) (cs : List Instr) : (s.withQueue cs).groups = s.groups := rfl
@[simp] theorem State.withQueue_hashes (s : State) (cs : List Instr) : (s.withQueue cs).hashes = s.hashes := rfl
@[simp] theorem State.withQueue_looms (s : State) (cs : List Instr) : (s.withQueue cs).looms = s.looms := rfl
@[simp] theorem State.withQueue_remote (s : State) (cs : List Instr) : (s.withQueue cs).remote = s.remote := rfl
@[simp] theorem State.withQueue_heldIrqs (s : State) (cs : List Instr) : (s.withQueue cs).heldIrqs = s.heldIrqs := rfl
@[simp] theorem State.withQueue_out (s : State) (cs : List Instr) : (s.withQueue cs).out = s.out := rfl

@[simp] theorem State.tickFree_free (s : State) : s.tickFree.free = s.free + 1 := rfl
@[simp] theorem State.emit_out (s : State) (o : Out) : (s.emit o).out = s.out ++ [o] := rfl
@[simp] theorem State.withQueue_pending (s : State) (cs : List Instr) : (s.withQueue cs).pending = cs := rfl

/-- Reading after an update (part). -/
@[simp] theorem State.updPart_part (s : State) (i j : Nat) (f : Part → Part) :
    (s.updPart i f).part j = if j = i then f (s.part i) else s.part j := by
  simp [State.updPart, State.part]

/-- Reading after an update (core). -/
@[simp] theorem State.updCore_core (s : State) (i j : Nat) (f : Core → Core) :
    (s.updCore i f).core j = if j = i then f (s.core i) else s.core j := by
  simp [State.updCore, State.core]

/-- Reading after an update (link). -/
@[simp] theorem State.updLink_link (s : State) (i j : Nat) (f : Link → Link) :
    (s.updLink i f).link j = if j = i then f (s.link i) else s.link j := by
  simp [State.updLink, State.link]

/-- Reading after an update (port). -/
@[simp] theorem State.updPort_port (s : State) (i j : Nat) (f : UlPort → UlPort) :
    (s.updPort i f).port j = if j = i then f (s.port i) else s.port j := by
  simp [State.updPort, State.port]

/-- Reading after an update (bdp). -/
@[simp] theorem State.updBdp_bdp (s : State) (i j : Nat) (f : BdPort → BdPort) :
    (s.updBdp i f).bdp j = if j = i then f (s.bdp i) else s.bdp j := by
  simp [State.updBdp, State.bdp]

/-- Reading after an update (lpc). -/
@[simp] theorem State.updLpc_lpc (s : State) (i j : Nat) (f : LpCtrl → LpCtrl) :
    (s.updLpc i f).lpc j = if j = i then f (s.lpc i) else s.lpc j := by
  simp [State.updLpc, State.lpc]

/-- Reading after an update (island). -/
@[simp] theorem State.updIsland_island (s : State) (i j : Nat) (f : Island → Island) :
    (s.updIsland i f).island j = if j = i then f (s.island i) else s.island j := by
  simp [State.updIsland, State.island]

/-- Reading after an update (loom). -/
@[simp] theorem State.updLoom_loom (s : State) (i j : Nat) (f : Loom → Loom) :
    (s.updLoom i f).loom j = if j = i then f (s.loom i) else s.loom j := by
  simp [State.updLoom, State.loom]

/-- Reading after an update (unit). -/
@[simp] theorem State.updUnit_unit (s : State) (i j : Nat) (f : UnitEntry → UnitEntry) :
    (s.updUnit i f).unit j = if j = i then f (s.unit i) else s.unit j := by
  simp [State.updUnit, State.unit]
@[simp] theorem State.tickFree_part (s : State) (j : Nat) : (s.tickFree).part j = s.part j := rfl
@[simp] theorem State.tickFree_core (s : State) (j : Nat) : (s.tickFree).core j = s.core j := rfl
@[simp] theorem State.tickFree_link (s : State) (j : Nat) : (s.tickFree).link j = s.link j := rfl
@[simp] theorem State.tickFree_port (s : State) (j : Nat) : (s.tickFree).port j = s.port j := rfl
@[simp] theorem State.tickFree_bdp (s : State) (j : Nat) : (s.tickFree).bdp j = s.bdp j := rfl
@[simp] theorem State.tickFree_lpc (s : State) (j : Nat) : (s.tickFree).lpc j = s.lpc j := rfl
@[simp] theorem State.tickFree_island (s : State) (j : Nat) : (s.tickFree).island j = s.island j := rfl
@[simp] theorem State.tickFree_loom (s : State) (j : Nat) : (s.tickFree).loom j = s.loom j := rfl
@[simp] theorem State.tickFree_unit (s : State) (j : Nat) : (s.tickFree).unit j = s.unit j := rfl
@[simp] theorem State.updPart_core (s : State) (p : Nat) (f : Part → Part) (j : Nat) : (s.updPart p f).core j = s.core j := rfl
@[simp] theorem State.updPart_link (s : State) (p : Nat) (f : Part → Part) (j : Nat) : (s.updPart p f).link j = s.link j := rfl
@[simp] theorem State.updPart_port (s : State) (p : Nat) (f : Part → Part) (j : Nat) : (s.updPart p f).port j = s.port j := rfl
@[simp] theorem State.updPart_bdp (s : State) (p : Nat) (f : Part → Part) (j : Nat) : (s.updPart p f).bdp j = s.bdp j := rfl
@[simp] theorem State.updPart_lpc (s : State) (p : Nat) (f : Part → Part) (j : Nat) : (s.updPart p f).lpc j = s.lpc j := rfl
@[simp] theorem State.updPart_island (s : State) (p : Nat) (f : Part → Part) (j : Nat) : (s.updPart p f).island j = s.island j := rfl
@[simp] theorem State.updPart_loom (s : State) (p : Nat) (f : Part → Part) (j : Nat) : (s.updPart p f).loom j = s.loom j := rfl
@[simp] theorem State.updPart_unit (s : State) (p : Nat) (f : Part → Part) (j : Nat) : (s.updPart p f).unit j = s.unit j := rfl
@[simp] theorem State.updCore_part (s : State) (c : Nat) (f : Core → Core) (j : Nat) : (s.updCore c f).part j = s.part j := rfl
@[simp] theorem State.updCore_link (s : State) (c : Nat) (f : Core → Core) (j : Nat) : (s.updCore c f).link j = s.link j := rfl
@[simp] theorem State.updCore_port (s : State) (c : Nat) (f : Core → Core) (j : Nat) : (s.updCore c f).port j = s.port j := rfl
@[simp] theorem State.updCore_bdp (s : State) (c : Nat) (f : Core → Core) (j : Nat) : (s.updCore c f).bdp j = s.bdp j := rfl
@[simp] theorem State.updCore_lpc (s : State) (c : Nat) (f : Core → Core) (j : Nat) : (s.updCore c f).lpc j = s.lpc j := rfl
@[simp] theorem State.updCore_island (s : State) (c : Nat) (f : Core → Core) (j : Nat) : (s.updCore c f).island j = s.island j := rfl
@[simp] theorem State.updCore_loom (s : State) (c : Nat) (f : Core → Core) (j : Nat) : (s.updCore c f).loom j = s.loom j := rfl
@[simp] theorem State.updCore_unit (s : State) (c : Nat) (f : Core → Core) (j : Nat) : (s.updCore c f).unit j = s.unit j := rfl
@[simp] theorem State.updLink_part (s : State) (l : Nat) (f : Link → Link) (j : Nat) : (s.updLink l f).part j = s.part j := rfl
@[simp] theorem State.updLink_core (s : State) (l : Nat) (f : Link → Link) (j : Nat) : (s.updLink l f).core j = s.core j := rfl
@[simp] theorem State.updLink_port (s : State) (l : Nat) (f : Link → Link) (j : Nat) : (s.updLink l f).port j = s.port j := rfl
@[simp] theorem State.updLink_bdp (s : State) (l : Nat) (f : Link → Link) (j : Nat) : (s.updLink l f).bdp j = s.bdp j := rfl
@[simp] theorem State.updLink_lpc (s : State) (l : Nat) (f : Link → Link) (j : Nat) : (s.updLink l f).lpc j = s.lpc j := rfl
@[simp] theorem State.updLink_island (s : State) (l : Nat) (f : Link → Link) (j : Nat) : (s.updLink l f).island j = s.island j := rfl
@[simp] theorem State.updLink_loom (s : State) (l : Nat) (f : Link → Link) (j : Nat) : (s.updLink l f).loom j = s.loom j := rfl
@[simp] theorem State.updLink_unit (s : State) (l : Nat) (f : Link → Link) (j : Nat) : (s.updLink l f).unit j = s.unit j := rfl
@[simp] theorem State.updPort_part (s : State) (u : Nat) (f : UlPort → UlPort) (j : Nat) : (s.updPort u f).part j = s.part j := rfl
@[simp] theorem State.updPort_core (s : State) (u : Nat) (f : UlPort → UlPort) (j : Nat) : (s.updPort u f).core j = s.core j := rfl
@[simp] theorem State.updPort_link (s : State) (u : Nat) (f : UlPort → UlPort) (j : Nat) : (s.updPort u f).link j = s.link j := rfl
@[simp] theorem State.updPort_bdp (s : State) (u : Nat) (f : UlPort → UlPort) (j : Nat) : (s.updPort u f).bdp j = s.bdp j := rfl
@[simp] theorem State.updPort_lpc (s : State) (u : Nat) (f : UlPort → UlPort) (j : Nat) : (s.updPort u f).lpc j = s.lpc j := rfl
@[simp] theorem State.updPort_island (s : State) (u : Nat) (f : UlPort → UlPort) (j : Nat) : (s.updPort u f).island j = s.island j := rfl
@[simp] theorem State.updPort_loom (s : State) (u : Nat) (f : UlPort → UlPort) (j : Nat) : (s.updPort u f).loom j = s.loom j := rfl
@[simp] theorem State.updPort_unit (s : State) (u : Nat) (f : UlPort → UlPort) (j : Nat) : (s.updPort u f).unit j = s.unit j := rfl
@[simp] theorem State.updBdp_part (s : State) (u : Nat) (f : BdPort → BdPort) (j : Nat) : (s.updBdp u f).part j = s.part j := rfl
@[simp] theorem State.updBdp_core (s : State) (u : Nat) (f : BdPort → BdPort) (j : Nat) : (s.updBdp u f).core j = s.core j := rfl
@[simp] theorem State.updBdp_link (s : State) (u : Nat) (f : BdPort → BdPort) (j : Nat) : (s.updBdp u f).link j = s.link j := rfl
@[simp] theorem State.updBdp_port (s : State) (u : Nat) (f : BdPort → BdPort) (j : Nat) : (s.updBdp u f).port j = s.port j := rfl
@[simp] theorem State.updBdp_lpc (s : State) (u : Nat) (f : BdPort → BdPort) (j : Nat) : (s.updBdp u f).lpc j = s.lpc j := rfl
@[simp] theorem State.updBdp_island (s : State) (u : Nat) (f : BdPort → BdPort) (j : Nat) : (s.updBdp u f).island j = s.island j := rfl
@[simp] theorem State.updBdp_loom (s : State) (u : Nat) (f : BdPort → BdPort) (j : Nat) : (s.updBdp u f).loom j = s.loom j := rfl
@[simp] theorem State.updBdp_unit (s : State) (u : Nat) (f : BdPort → BdPort) (j : Nat) : (s.updBdp u f).unit j = s.unit j := rfl
@[simp] theorem State.updLpc_part (s : State) (u : Nat) (f : LpCtrl → LpCtrl) (j : Nat) : (s.updLpc u f).part j = s.part j := rfl
@[simp] theorem State.updLpc_core (s : State) (u : Nat) (f : LpCtrl → LpCtrl) (j : Nat) : (s.updLpc u f).core j = s.core j := rfl
@[simp] theorem State.updLpc_link (s : State) (u : Nat) (f : LpCtrl → LpCtrl) (j : Nat) : (s.updLpc u f).link j = s.link j := rfl
@[simp] theorem State.updLpc_port (s : State) (u : Nat) (f : LpCtrl → LpCtrl) (j : Nat) : (s.updLpc u f).port j = s.port j := rfl
@[simp] theorem State.updLpc_bdp (s : State) (u : Nat) (f : LpCtrl → LpCtrl) (j : Nat) : (s.updLpc u f).bdp j = s.bdp j := rfl
@[simp] theorem State.updLpc_island (s : State) (u : Nat) (f : LpCtrl → LpCtrl) (j : Nat) : (s.updLpc u f).island j = s.island j := rfl
@[simp] theorem State.updLpc_loom (s : State) (u : Nat) (f : LpCtrl → LpCtrl) (j : Nat) : (s.updLpc u f).loom j = s.loom j := rfl
@[simp] theorem State.updLpc_unit (s : State) (u : Nat) (f : LpCtrl → LpCtrl) (j : Nat) : (s.updLpc u f).unit j = s.unit j := rfl
@[simp] theorem State.updIsland_part (s : State) (n : Nat) (f : Island → Island) (j : Nat) : (s.updIsland n f).part j = s.part j := rfl
@[simp] theorem State.updIsland_core (s : State) (n : Nat) (f : Island → Island) (j : Nat) : (s.updIsland n f).core j = s.core j := rfl
@[simp] theorem State.updIsland_link (s : State) (n : Nat) (f : Island → Island) (j : Nat) : (s.updIsland n f).link j = s.link j := rfl
@[simp] theorem State.updIsland_port (s : State) (n : Nat) (f : Island → Island) (j : Nat) : (s.updIsland n f).port j = s.port j := rfl
@[simp] theorem State.updIsland_bdp (s : State) (n : Nat) (f : Island → Island) (j : Nat) : (s.updIsland n f).bdp j = s.bdp j := rfl
@[simp] theorem State.updIsland_lpc (s : State) (n : Nat) (f : Island → Island) (j : Nat) : (s.updIsland n f).lpc j = s.lpc j := rfl
@[simp] theorem State.updIsland_loom (s : State) (n : Nat) (f : Island → Island) (j : Nat) : (s.updIsland n f).loom j = s.loom j := rfl
@[simp] theorem State.updIsland_unit (s : State) (n : Nat) (f : Island → Island) (j : Nat) : (s.updIsland n f).unit j = s.unit j := rfl
@[simp] theorem State.updLoom_part (s : State) (t : Nat) (f : Loom → Loom) (j : Nat) : (s.updLoom t f).part j = s.part j := rfl
@[simp] theorem State.updLoom_core (s : State) (t : Nat) (f : Loom → Loom) (j : Nat) : (s.updLoom t f).core j = s.core j := rfl
@[simp] theorem State.updLoom_link (s : State) (t : Nat) (f : Loom → Loom) (j : Nat) : (s.updLoom t f).link j = s.link j := rfl
@[simp] theorem State.updLoom_port (s : State) (t : Nat) (f : Loom → Loom) (j : Nat) : (s.updLoom t f).port j = s.port j := rfl
@[simp] theorem State.updLoom_bdp (s : State) (t : Nat) (f : Loom → Loom) (j : Nat) : (s.updLoom t f).bdp j = s.bdp j := rfl
@[simp] theorem State.updLoom_lpc (s : State) (t : Nat) (f : Loom → Loom) (j : Nat) : (s.updLoom t f).lpc j = s.lpc j := rfl
@[simp] theorem State.updLoom_island (s : State) (t : Nat) (f : Loom → Loom) (j : Nat) : (s.updLoom t f).island j = s.island j := rfl
@[simp] theorem State.updLoom_unit (s : State) (t : Nat) (f : Loom → Loom) (j : Nat) : (s.updLoom t f).unit j = s.unit j := rfl
@[simp] theorem State.updUnit_part (s : State) (u : Nat) (f : UnitEntry → UnitEntry) (j : Nat) : (s.updUnit u f).part j = s.part j := rfl
@[simp] theorem State.updUnit_core (s : State) (u : Nat) (f : UnitEntry → UnitEntry) (j : Nat) : (s.updUnit u f).core j = s.core j := rfl
@[simp] theorem State.updUnit_link (s : State) (u : Nat) (f : UnitEntry → UnitEntry) (j : Nat) : (s.updUnit u f).link j = s.link j := rfl
@[simp] theorem State.updUnit_port (s : State) (u : Nat) (f : UnitEntry → UnitEntry) (j : Nat) : (s.updUnit u f).port j = s.port j := rfl
@[simp] theorem State.updUnit_bdp (s : State) (u : Nat) (f : UnitEntry → UnitEntry) (j : Nat) : (s.updUnit u f).bdp j = s.bdp j := rfl
@[simp] theorem State.updUnit_lpc (s : State) (u : Nat) (f : UnitEntry → UnitEntry) (j : Nat) : (s.updUnit u f).lpc j = s.lpc j := rfl
@[simp] theorem State.updUnit_island (s : State) (u : Nat) (f : UnitEntry → UnitEntry) (j : Nat) : (s.updUnit u f).island j = s.island j := rfl
@[simp] theorem State.updUnit_loom (s : State) (u : Nat) (f : UnitEntry → UnitEntry) (j : Nat) : (s.updUnit u f).loom j = s.loom j := rfl
@[simp] theorem State.emit_part (s : State) (o : Out) (j : Nat) : (s.emit o).part j = s.part j := rfl
@[simp] theorem State.emit_core (s : State) (o : Out) (j : Nat) : (s.emit o).core j = s.core j := rfl
@[simp] theorem State.emit_link (s : State) (o : Out) (j : Nat) : (s.emit o).link j = s.link j := rfl
@[simp] theorem State.emit_port (s : State) (o : Out) (j : Nat) : (s.emit o).port j = s.port j := rfl
@[simp] theorem State.emit_bdp (s : State) (o : Out) (j : Nat) : (s.emit o).bdp j = s.bdp j := rfl
@[simp] theorem State.emit_lpc (s : State) (o : Out) (j : Nat) : (s.emit o).lpc j = s.lpc j := rfl
@[simp] theorem State.emit_island (s : State) (o : Out) (j : Nat) : (s.emit o).island j = s.island j := rfl
@[simp] theorem State.emit_loom (s : State) (o : Out) (j : Nat) : (s.emit o).loom j = s.loom j := rfl
@[simp] theorem State.emit_unit (s : State) (o : Out) (j : Nat) : (s.emit o).unit j = s.unit j := rfl
@[simp] theorem State.setI3c_part (s : State) (f : I3cState → I3cState) (j : Nat) : (s.setI3c f).part j = s.part j := rfl
@[simp] theorem State.setI3c_core (s : State) (f : I3cState → I3cState) (j : Nat) : (s.setI3c f).core j = s.core j := rfl
@[simp] theorem State.setI3c_link (s : State) (f : I3cState → I3cState) (j : Nat) : (s.setI3c f).link j = s.link j := rfl
@[simp] theorem State.setI3c_port (s : State) (f : I3cState → I3cState) (j : Nat) : (s.setI3c f).port j = s.port j := rfl
@[simp] theorem State.setI3c_bdp (s : State) (f : I3cState → I3cState) (j : Nat) : (s.setI3c f).bdp j = s.bdp j := rfl
@[simp] theorem State.setI3c_lpc (s : State) (f : I3cState → I3cState) (j : Nat) : (s.setI3c f).lpc j = s.lpc j := rfl
@[simp] theorem State.setI3c_island (s : State) (f : I3cState → I3cState) (j : Nat) : (s.setI3c f).island j = s.island j := rfl
@[simp] theorem State.setI3c_loom (s : State) (f : I3cState → I3cState) (j : Nat) : (s.setI3c f).loom j = s.loom j := rfl
@[simp] theorem State.setI3c_unit (s : State) (f : I3cState → I3cState) (j : Nat) : (s.setI3c f).unit j = s.unit j := rfl
@[simp] theorem State.withQueue_part (s : State) (cs : List Instr) (j : Nat) : (s.withQueue cs).part j = s.part j := rfl
@[simp] theorem State.withQueue_core (s : State) (cs : List Instr) (j : Nat) : (s.withQueue cs).core j = s.core j := rfl
@[simp] theorem State.withQueue_link (s : State) (cs : List Instr) (j : Nat) : (s.withQueue cs).link j = s.link j := rfl
@[simp] theorem State.withQueue_port (s : State) (cs : List Instr) (j : Nat) : (s.withQueue cs).port j = s.port j := rfl
@[simp] theorem State.withQueue_bdp (s : State) (cs : List Instr) (j : Nat) : (s.withQueue cs).bdp j = s.bdp j := rfl
@[simp] theorem State.withQueue_lpc (s : State) (cs : List Instr) (j : Nat) : (s.withQueue cs).lpc j = s.lpc j := rfl
@[simp] theorem State.withQueue_island (s : State) (cs : List Instr) (j : Nat) : (s.withQueue cs).island j = s.island j := rfl
@[simp] theorem State.withQueue_loom (s : State) (cs : List Instr) (j : Nat) : (s.withQueue cs).loom j = s.loom j := rfl
@[simp] theorem State.withQueue_unit (s : State) (cs : List Instr) (j : Nat) : (s.withQueue cs).unit j = s.unit j := rfl

end Sys2Proof.Machine
end

