-- ==== Sys2Proof/Laws/Core.lean ====
section
/-! SUPPORT. What the shared operations of the core do where an instruction has its own effect: one lemma
each for issue (R142), the sequencer's wait for its registers (R138) and a unit's queue (R137). -/

namespace Sys2Proof.Machine

/-- At its word an instruction's own meaning decides. -/
theorem State.issue_standsAt {s : State} {c : Nat} {w : Dword} {op : Nat} {mask : Dword}
    (h : s.standsAt c w op mask = true) (hop : listedOps.contains op = true) (f : State → IRes) :
    s.issue c w op mask f = match f s with
      | .go t => s.wentPast c t
      | .jump t n => t.updCore c (coreJump n)
      | .stall => s
      | .wait t => s.waking t
      | .fault t cause u a => t.coreFault c cause u a := by
  simp only [State.standsAt, Bool.and_eq_true, beq_iff_eq, decide_eq_true_eq] at h
  obtain ⟨⟨⟨⟨⟨⟨hk, hs⟩, ha⟩, hp⟩, hf⟩, ho⟩, hm⟩ := h
  have hn : (s.kernelOf c).isNone = false := by
    cases hx : s.kernelOf c <;> simp_all
  unfold State.issue
  rw [if_neg (by simp [hn, hs, ha]), if_neg (by omega), if_neg (fun k => k hf),
    if_neg (by rw [ho, hop]; simp), if_neg (by simp [ho]), if_neg (by simp [hm])]
  rfl

theorem State.seqOp_regsFree {s : State} {c : Nat} {rd wr : List Nat}
    (h : s.regsFree c rd wr = true) (f : State → IRes) : s.seqOp c rd wr f = f s := by
  unfold State.regsFree at h
  unfold State.seqOp
  rw [if_neg (by simpa using h)]

theorem State.senseWord_clean {s : State} {c k : Nat} (h : SMap.get 0 (s.core c).err k = 0) :
    s.senseWord c k = s := by
  simp [State.senseWord, h]

theorem senseRange_clean {s : State} {c : Nat} (ks : List Nat)
    (h : ∀ k ∈ ks, SMap.get 0 (s.core c).err k = 0) :
    ks.foldl (fun s k => s.senseWord c k) s = s := by
  induction ks with
  | nil => rfl
  | cons k ks ih =>
    rw [List.foldl_cons, State.senseWord_clean (h k List.mem_cons_self)]
    exact ih fun j hj => h j (List.mem_cons_of_mem _ hj)

/-- Clean ranges are read without an event. -/
theorem State.senseRanges_clean {s : State} {c : Nat} (rs : List (Nat × Nat))
    (h : ∀ r ∈ rs, ∀ k ∈ wordsOf r.1 r.2, SMap.get 0 (s.core c).err k = 0) :
    s.senseRanges c rs = s := by
  unfold State.senseRanges
  induction rs with
  | nil => rfl
  | cons r rs ih =>
    rw [List.foldl_cons, senseRange_clean _ (h r List.mem_cons_self)]
    exact ih fun q hq => h q (List.mem_cons_of_mem _ hq)

theorem poisonIn_clean {x : Core} (rs : List (Nat × Nat))
    (h : ∀ r ∈ rs, ∀ k ∈ wordsOf r.1 r.2, scrPoisoned x k = false) : poisonIn x rs = none := by
  simp only [poisonIn, Option.map_eq_none_iff, List.find?_eq_none, List.mem_flatMap]
  rintro k ⟨r, hr, hk⟩
  simp [h r hr k hk]

theorem State.unitFree_iff {s : State} {c unit : Nat} {rs : List (Nat × Nat)} :
    s.unitFree c unit rs = true ↔ (unitQueue (s.core c) unit).length < 16 ∧
      ∀ r ∈ rs, ∀ k ∈ wordsOf r.1 r.2,
        SMap.get 0 (s.core c).err k = 0 ∧ scrPoisoned (s.core c) k = false := by
  simp [State.unitFree]

/-- A unit with room whose reads are clean does what `f` does. -/
theorem State.unitOp_unitFree {s : State} {c unit : Nat} {e : UEntry}
    (h : s.unitFree c unit e.srd = true) (f : State → IRes) :
    s.unitOp c unit e f = match f s with
      | .go t => .go (t.updCore c (corePush unit e))
      | r => r := by
  obtain ⟨hq, hr⟩ := State.unitFree_iff.1 h
  have h1 := State.senseRanges_clean (s := s) (c := c) e.srd fun r hr' k hk => (hr r hr' k hk).1
  have h2 := poisonIn_clean (x := s.core c) e.srd fun r hr' k hk => (hr r hr' k hk).2
  unfold State.unitOp
  rw [if_neg (by omega), h1]
  dsimp only
  rw [h2] <;> rfl

/-- A DMA's clean source is read as the scratchpad stands. -/
theorem State.dmaSource_clean {s : State} {c a n : Nat}
    (h : s.unitFree c 3 [(a, n)] = true) (f : State → List Byte → IRes) :
    s.dmaSource c a n f = f s.tickFree ((List.range n).map fun i => s.scrView c 3 (a + i)) := by
  obtain ⟨-, hr⟩ := State.unitFree_iff.1 h
  unfold State.dmaSource
  rw [State.senseRanges_clean [(a, n)] fun r hr' k hk => (hr r hr' k hk).1]
  dsimp only
  rw [poisonIn_clean [(a, n)] fun r hr' k hk => (hr r hr' k hk).2]

end Sys2Proof.Machine
end

