-- ==== Sys2Proof/Laws/Events.lean ====
section
/-! SUPPORT. What an event changes: the Logbook, the persistent store through a new reservation of
sequence numbers, the counter of free values and what goes out. One lemma for each field that it leaves
alone. -/

namespace Sys2Proof.Machine

variable (s : State) (e : Event)

theorem State.recordCore_nextSeq : (s.recordCore e).log.nextSeq = s.log.nextSeq + 1 := by
  unfold State.recordCore
  dsimp only
  rw [apply_ite (fun t : State => t.log.nextSeq)]
  simp [State.emit]

/-- Every event takes a sequence number above the last one (R511). -/
theorem State.record_nextSeq : s.log.nextSeq < (s.record e).log.nextSeq := by
  unfold State.record
  rw [State.recordCore_nextSeq]
  split
  · simp only [State.reserveSeq]
    omega
  · omega

@[simp] theorem State.record_pending : (s.record e).pending = s.pending := by
  unfold State.record State.recordCore
  simp [apply_ite State.pending, State.emit, State.reserveSeq]

@[simp] theorem State.record_board : (s.record e).board = s.board := by
  unfold State.record State.recordCore
  simp [apply_ite State.board, State.emit, State.reserveSeq]

@[simp] theorem State.record_mod : (s.record e).mod = s.mod := by
  unfold State.record State.recordCore
  simp [apply_ite State.mod, State.emit, State.reserveSeq]

@[simp] theorem State.record_bu : (s.record e).bu = s.bu := by
  unfold State.record State.recordCore
  simp [apply_ite State.bu, State.emit, State.reserveSeq]

@[simp] theorem State.record_cht : (s.record e).cht = s.cht := by
  unfold State.record State.recordCore
  simp [apply_ite State.cht, State.emit, State.reserveSeq]

@[simp] theorem State.record_rst : (s.record e).rst = s.rst := by
  unfold State.record State.recordCore
  simp [apply_ite State.rst, State.emit, State.reserveSeq]

@[simp] theorem State.record_pwr : (s.record e).pwr = s.pwr := by
  unfold State.record State.recordCore
  simp [apply_ite State.pwr, State.emit, State.reserveSeq]

@[simp] theorem State.record_clk : (s.record e).clk = s.clk := by
  unfold State.record State.recordCore
  simp [apply_ite State.clk, State.emit, State.reserveSeq]

@[simp] theorem State.record_ul : (s.record e).ul = s.ul := by
  unfold State.record State.recordCore
  simp [apply_ite State.ul, State.emit, State.reserveSeq]

@[simp] theorem State.record_i3c : (s.record e).i3c = s.i3c := by
  unfold State.record State.recordCore
  simp [apply_ite State.i3c, State.emit, State.reserveSeq]

@[simp] theorem State.record_sec : (s.record e).sec = s.sec := by
  unfold State.record State.recordCore
  simp [apply_ite State.sec, State.emit, State.reserveSeq]

@[simp] theorem State.record_mem : (s.record e).mem = s.mem := by
  unfold State.record State.recordCore
  simp [apply_ite State.mem, State.emit, State.reserveSeq]

@[simp] theorem State.record_parts : (s.record e).parts = s.parts := by
  unfold State.record State.recordCore
  simp [apply_ite State.parts, State.emit, State.reserveSeq]

@[simp] theorem State.record_cores : (s.record e).cores = s.cores := by
  unfold State.record State.recordCore
  simp [apply_ite State.cores, State.emit, State.reserveSeq]

@[simp] theorem State.record_links : (s.record e).links = s.links := by
  unfold State.record State.recordCore
  simp [apply_ite State.links, State.emit, State.reserveSeq]

@[simp] theorem State.record_groups : (s.record e).groups = s.groups := by
  unfold State.record State.recordCore
  simp [apply_ite State.groups, State.emit, State.reserveSeq]

@[simp] theorem State.record_hashes : (s.record e).hashes = s.hashes := by
  unfold State.record State.recordCore
  simp [apply_ite State.hashes, State.emit, State.reserveSeq]

@[simp] theorem State.record_looms : (s.record e).looms = s.looms := by
  unfold State.record State.recordCore
  simp [apply_ite State.looms, State.emit, State.reserveSeq]

@[simp] theorem State.record_remote : (s.record e).remote = s.remote := by
  unfold State.record State.recordCore
  simp [apply_ite State.remote, State.emit, State.reserveSeq]

@[simp] theorem State.record_heldIrqs : (s.record e).heldIrqs = s.heldIrqs := by
  unfold State.record State.recordCore
  simp [apply_ite State.heldIrqs, State.emit, State.reserveSeq]

@[simp] theorem State.record_part (p) : (s.record e).part p = s.part p := by
  simp [State.part]

@[simp] theorem State.record_core (p) : (s.record e).core p = s.core p := by
  simp [State.core]

@[simp] theorem State.record_link (p) : (s.record e).link p = s.link p := by
  simp [State.link]

@[simp] theorem State.record_port (p) : (s.record e).port p = s.port p := by
  simp [State.port]

@[simp] theorem State.record_island (p) : (s.record e).island p = s.island p := by
  simp [State.island]

@[simp] theorem State.record_loom (p) : (s.record e).loom p = s.loom p := by
  simp [State.loom]

@[simp] theorem State.record_unit (p) : (s.record e).unit p = s.unit p := by
  simp [State.unit]

@[simp] theorem State.record_bdp (p) : (s.record e).bdp p = s.bdp p := by
  simp [State.bdp]

@[simp] theorem State.record_lpc (p) : (s.record e).lpc p = s.lpc p := by
  simp [State.lpc]

@[simp] theorem State.record_group (p) : (s.record e).group p = s.group p := by
  simp [State.group]

@[simp] theorem State.record_tier (p) : (s.record e).tier p = s.tier p := by
  simp [State.tier]

end Sys2Proof.Machine
end

