-- ==== Sys2Proof/Laws/Keep.lean ====
section
/-! SUPPORT. The relation `Kept` between the state before and the state after: its rules, and that the
operations below translation keep it. Every later lemma has the form "if `a` leads to `s` and keeps,
then it leads to `f s` and keeps", so that they chain. -/

namespace Sys2Proof

theorem TierMem.setByte_wf {m : TierMem} (h : m.wf = true) (a : Nat) (b : Byte) :
    (m.setByte a b).wf = true := SMap.set_wf h a b

theorem TierMem.updLine_wf {m : TierMem} (h : m.wf = true) (l : Nat) (f : LineInfo → LineInfo) :
    (m.updLine l f).wf = true := h

theorem TierMem.setBytes_wf {m : TierMem} (h : m.wf = true) (a : Nat) (bs : List Byte) :
    (m.setBytes a bs).wf = true := by
  suffices ∀ x : TierMem × Nat, x.1.wf = true →
      (bs.foldl (fun (x : TierMem × Nat) b => (x.1.setByte x.2 b, x.2 + 1)) x).1.wf = true from
    this (m, a) h
  induction bs with
  | nil => exact fun _ h => h
  | cons b bs ih => exact fun x hx => ih _ (TierMem.setByte_wf hx _ _)

/-- Reading a byte after writing a byte. -/
@[simp] theorem TierMem.byte_setByte (m : TierMem) (a j : Nat) (b : Byte) :
    (m.setByte a b).byte j = if j = a then b else m.byte j := by
  simp [TierMem.byte, TierMem.setByte]

@[simp] theorem TierMem.byte_updLine (m : TierMem) (l j : Nat) (f : LineInfo → LineInfo) :
    (m.updLine l f).byte j = m.byte j := rfl

/-- Reading a byte after writing a run: inside it the run's byte, outside it the old one. -/
theorem TierMem.byte_setBytes (m : TierMem) (a j : Nat) (bs : List Byte) :
    (m.setBytes a bs).byte j =
      if a ≤ j ∧ j < a + bs.length then bs.getD (j - a) 0 else m.byte j := by
  suffices ∀ (m : TierMem) a, ((bs.foldl (fun (x : TierMem × Nat) b =>
      (x.1.setByte x.2 b, x.2 + 1)) (m, a)).1).byte j =
      if a ≤ j ∧ j < a + bs.length then bs.getD (j - a) 0 else m.byte j from this m a
  induction bs with
  | nil =>
    intro m a
    rw [if_neg (by simp)]
    rfl
  | cons b bs ih =>
    intro m a
    rw [List.foldl_cons, ih, TierMem.byte_setByte]
    by_cases hj : j = a
    · subst hj
      rw [if_neg (by omega), if_pos rfl, if_pos (by simp)]
      simp
    · by_cases hi : a + 1 ≤ j ∧ j < a + 1 + bs.length
      · rw [if_pos hi, if_pos (by simp; omega)]
        obtain ⟨k, hk⟩ : ∃ k, j - a = k + 1 := ⟨j - a - 1, by omega⟩
        rw [hk, show j - (a + 1) = k by omega]
        simp
      · rw [if_neg hi, if_neg hj, if_neg (by simp; omega)]

theorem TierMem.zeroRange_wf {m : TierMem} (h : m.wf = true) (a n : Nat) :
    (m.zeroRange a n).wf = true := by
  have hm := SMap.wf_iff.1 h
  exact SMap.wf_iff.2 ⟨hm.1.filter _, fun e he => hm.2 e (List.mem_filter.1 he).1⟩

theorem MemState.updTier_wf {m : MemState} (h : m.wf = true) (t : Tier) {f : TierMem → TierMem}
    (hf : ∀ x : TierMem, x.wf = true → (f x).wf = true) : (m.updTier t f).wf = true := by
  simp only [MemState.wf, Bool.and_eq_true] at h ⊢
  cases t
  · exact ⟨⟨hf _ h.1.1, h.1.2⟩, h.2⟩
  · exact ⟨⟨h.1.1, hf _ h.1.2⟩, h.2⟩
  · exact ⟨h.1, hf _ h.2⟩

end Sys2Proof

namespace Sys2Proof.Machine

theorem Kept.refl (s : State) : Kept s s := ⟨rfl, rfl, Nat.le_refl _, List.prefix_refl _, id⟩

theorem Kept.trans {a s t : State} (h : Kept a s) (k : Kept s t) : Kept a t :=
  ⟨k.pending.trans h.pending, k.board.trans h.board, h.free.trans k.free, h.out.trans k.out,
    k.mem ∘ h.mem⟩

/-- A change of anything but the queue, the board, the free counter, the output and the memories. -/
theorem Kept.same {a s t : State} (h : Kept a s) (hp : t.pending = s.pending)
    (hb : t.board = s.board) (hf : s.free ≤ t.free) (ho : t.out = s.out)
    (hm : t.mem.wf = s.mem.wf) : Kept a t :=
  h.trans ⟨hp, hb, hf, ho ▸ List.prefix_refl _, fun w => hm.trans w⟩

/-- What a step's answer keeps. -/
def AnsKept (a : State) : Ans → Prop
  | .next t => Kept a t
  | _ => True

/-- What an instruction's result keeps. -/
def IResKept (a : State) : IRes → Prop
  | .go t => Kept a t
  | .jump t _ => Kept a t
  | .stall => True
  | .wait _ => True
  | .fault t _ _ _ => Kept a t

variable {a s : State}

theorem State.mk_kept (h : Kept a s) {n : Nat} (hn : s.free ≤ n)
    (mod : ModRegs) (bu : BuState) (cht : ChtState) (rst : RstState) (pwr : PwrState) (clk : ClkState)
    (ul : SMap UlPort) (i3c : I3cState) (prs : PrsState) (log : LogState) (sec : SecState)
    (parts : SMap Part) (cores : SMap Core) (links : SMap Link) (groups : SMap Group)
    (hashes : SMap (List (Nat × Dword))) (looms : SMap Loom) (remote : SMap (BitVec 64))
    (held : List (Nat × Nat)) :
    Kept a (State.mk s.pending n s.board mod bu cht rst pwr clk ul i3c prs log sec s.mem parts cores
      links groups hashes looms remote held s.out) :=
  h.same rfl rfl hn rfl rfl

theorem foldl_kept {β : Type} {f : State → β → State} (xs : List β)
    (hf : ∀ s x, Kept a s → Kept a (f s x)) (h : Kept a s) : Kept a (xs.foldl f s) := by
  induction xs generalizing s with
  | nil => exact h
  | cons x xs ih => exact ih (hf _ _ h)

theorem foldl_kept_fst {β γ : Type} {f : State × γ → β → State × γ} (xs : List β) {x : State × γ}
    (hf : ∀ x y, Kept a x.1 → Kept a (f x y).1) (h : Kept a x.1) : Kept a (xs.foldl f x).1 := by
  induction xs generalizing x with
  | nil => exact h
  | cons y ys ih => exact ih (hf _ _ h)

theorem State.tickFree_kept (h : Kept a s) : Kept a s.tickFree :=
  h.same rfl rfl (Nat.le_succ _) rfl rfl
theorem State.emit_kept (h : Kept a s) (o : Out) : Kept a (s.emit o) :=
  h.trans ⟨rfl, rfl, Nat.le_refl _, List.prefix_append _ _, id⟩
theorem State.waking_kept (h : Kept a s) (t) : Kept a (s.waking t) :=
  h.same rfl rfl (Nat.le_refl _) rfl rfl
theorem State.updPart_kept (h : Kept a s) (p f) : Kept a (s.updPart p f) :=
  h.same rfl rfl (Nat.le_refl _) rfl rfl
theorem State.updCore_kept (h : Kept a s) (p f) : Kept a (s.updCore p f) :=
  h.same rfl rfl (Nat.le_refl _) rfl rfl
theorem State.updLink_kept (h : Kept a s) (p f) : Kept a (s.updLink p f) :=
  h.same rfl rfl (Nat.le_refl _) rfl rfl
theorem State.updPort_kept (h : Kept a s) (p f) : Kept a (s.updPort p f) :=
  h.same rfl rfl (Nat.le_refl _) rfl rfl
theorem State.updBdp_kept (h : Kept a s) (p f) : Kept a (s.updBdp p f) :=
  h.same rfl rfl (Nat.le_refl _) rfl rfl
theorem State.updLpc_kept (h : Kept a s) (p f) : Kept a (s.updLpc p f) :=
  h.same rfl rfl (Nat.le_refl _) rfl rfl
theorem State.updIsland_kept (h : Kept a s) (p f) : Kept a (s.updIsland p f) :=
  h.same rfl rfl (Nat.le_refl _) rfl rfl
theorem State.updLoom_kept (h : Kept a s) (p f) : Kept a (s.updLoom p f) :=
  h.same rfl rfl (Nat.le_refl _) rfl rfl
theorem State.updUnit_kept (h : Kept a s) (p f) : Kept a (s.updUnit p f) :=
  h.same rfl rfl (Nat.le_refl _) rfl rfl

/-! Operations on memory. -/

theorem State.updTier_kept (h : Kept a s) (t : Tier) {f : TierMem → TierMem}
    (hf : ∀ x : TierMem, x.wf = true → (f x).wf = true) : Kept a (s.updTier t f) :=
  h.trans ⟨rfl, rfl, Nat.le_refl _, List.prefix_refl _, fun w => MemState.updTier_wf w t hf⟩

/-- A change of the marks of a line, or of any other field beside the bytes. -/
theorem State.updTier_bytes_kept (h : Kept a s) (t : Tier) {f : TierMem → TierMem}
    (hf : ∀ x : TierMem, (f x).bytes = x.bytes) : Kept a (s.updTier t f) :=
  State.updTier_kept h t fun x hx => by rw [TierMem.wf, hf]; exact hx

theorem State.withdraw_kept (h : Kept a s) (t g n) : Kept a (s.withdraw t g n) :=
  State.updTier_bytes_kept h t fun _ => rfl

theorem State.rawWriteLine_kept (h : Kept a s) (t key k bs) : Kept a (s.rawWriteLine t key k bs) := by
  unfold State.rawWriteLine
  dsimp only
  split_ifs
  · exact h
  · exact State.updTier_kept h t fun x hx => TierMem.setBytes_wf (TierMem.updLine_wf hx _ _) _ _
  · exact State.updTier_kept h t fun x hx => TierMem.setBytes_wf hx _ _
  · exact State.tickFree_kept (State.updTier_kept h t fun x hx =>
      TierMem.setBytes_wf (TierMem.setBytes_wf (TierMem.updLine_wf hx _ _) _ _) _ _)

theorem State.rawWrite_kept (h : Kept a s) (t key k bs) : Kept a (s.rawWrite t key k bs) :=
  foldl_kept_fst _ (fun _ _ hx => State.rawWriteLine_kept hx _ _ _ _) h

theorem State.markPoison_kept (h : Kept a s) (t l k) : Kept a (s.markPoison t l k) :=
  State.updTier_bytes_kept h t fun _ => rfl

theorem State.wr64_kept (h : Kept a s) (k v) : Kept a (s.wr64 k v) :=
  State.updTier_kept h .bd fun _ hx => TierMem.setBytes_wf hx _ _

end Sys2Proof.Machine
end

