-- ==== Sys2Proof/Laws/KeepOps.lean ====
section
/-! SUPPORT. What `Kept` says of the shared operations over memory, registers, events, partitions, queues and groups. -/

namespace Sys2Proof.Machine

set_option maxRecDepth 4000
set_option Elab.async false

variable {a s : State}

theorem State.loomWrote_kept (x1) (x2) (h : Kept a s) :
    Kept a (State.loomWrote s x1 x2) := by
  grind [State.loomWrote, State.updLoom_kept]

theorem State.updQueue_kept (x1) (x2) (x3) (h : Kept a s) :
    Kept a (State.updQueue s x1 x2 x3) := by
  grind [State.updQueue, State.updPart_kept]

theorem State.recordCore_kept (x1) (h : Kept a s) :
    Kept a (State.recordCore s x1) := by
  grind [State.recordCore, State.emit_kept, State.mk_kept]

theorem State.reserveSeq_kept (h : Kept a s) :
    Kept a (State.reserveSeq s) := by
  grind [State.reserveSeq, State.mk_kept]

theorem State.record_kept (x1) (h : Kept a s) :
    Kept a (State.record s x1) := by
  grind [State.record, State.recordCore_kept, State.reserveSeq_kept]

theorem State.event_kept (x1) (x2) (h : Kept a s) :
    Kept a (State.event s x1 x2) := by
  grind [State.event, State.record_kept]

theorem State.eventA_kept (x1) (x2) (x3) (x4) (h : Kept a s) :
    Kept a (State.eventA s x1 x2 x3 x4) := by
  grind [State.eventA, State.record_kept]

theorem State.eventP_kept (x1) (x2) (x3) (h : Kept a s) :
    Kept a (State.eventP s x1 x2 x3) := by
  grind [State.eventP, State.record_kept]

theorem State.eventPA_kept (x1) (x2) (x3) (x4) (x5) (h : Kept a s) :
    Kept a (State.eventPA s x1 x2 x3 x4 x5) := by
  grind [State.eventPA, State.record_kept]

theorem State.wearEvents_kept (x1) (x2) (h : Kept a s) :
    Kept a (State.wearEvents s x1 x2) := by
  grind [State.wearEvents, State.event_kept, State.mk_kept]

theorem State.prsOwn_kept (x1) (x2) (h : Kept a s) :
    Kept a (State.prsOwn s x1 x2) := by
  grind [State.prsOwn, State.wearEvents_kept, State.mk_kept]

theorem State.queueWake_kept (x1) (h : Kept a s) :
    Kept a (State.queueWake s x1) := by
  grind [State.queueWake, State.mk_kept]

theorem State.noteMapFull_kept (h : Kept a s) :
    Kept a (State.noteMapFull s) := by
  unfold State.noteMapFull
  grind [State.event_kept, State.mk_kept]

theorem State.repairRec_kept (x1) (x2) (x3) (x4) (h : Kept a s) :
    Kept a (State.repairRec s x1 x2 x3 x4) := by
  unfold State.repairRec
  dsimp only
  grind [State.prsOwn_kept, State.event_kept, State.mk_kept, State.noteMapFull_kept]

theorem State.lineEvent_kept (x1) (x2) (x3) (x4) (x5) (h : Kept a s) :
    Kept a (State.lineEvent s x1 x2 x3 x4 x5) := by
  unfold State.lineEvent
  dsimp only
  grind [State.eventA_kept, State.eventPA_kept]

theorem State.poisonEvent_kept (x1) (x2) (x3) (h : Kept a s) :
    Kept a (State.poisonEvent s x1 x2 x3) := by
  grind [State.poisonEvent, State.lineEvent_kept]

theorem State.granuleEvent_kept (x1) (x2) (x3) (h : Kept a s) :
    Kept a (State.granuleEvent s x1 x2 x3) := by
  grind [State.granuleEvent, State.lineEvent_kept]

theorem State.countCorr_kept (x1) (x2) (h : Kept a s) :
    Kept a (State.countCorr s x1 x2) := by
  unfold State.countCorr
  grind [State.updBdp_kept, State.updLpc_kept]

theorem State.countUncorr_kept (x1) (x2) (h : Kept a s) :
    Kept a (State.countUncorr s x1 x2) := by
  unfold State.countUncorr
  grind [State.updBdp_kept, State.updLpc_kept]

theorem State.garble_kept (x1) (x2) (h : Kept a s) :
    Kept a (State.garble s x1 x2) :=
  State.tickFree_kept (State.updTier_kept h _ fun _ hx => TierMem.setBytes_wf hx _ _)

theorem State.settleLine_kept (x1) (x2) (x3) (h : Kept a s) :
    Kept a (State.settleLine s x1 x2 x3) := by
  have h1 := State.updTier_bytes_kept h x1 (f := fun m => m.updLine x2 fun i => { i with err := 0 })
    fun _ => rfl
  grind [State.settleLine, State.garble_kept]

theorem State.poisonLine_kept (x1) (x2) (x3) (h : Kept a s) :
    Kept a (State.poisonLine s x1 x2 x3) :=
  State.countUncorr_kept _ _ (State.poisonEvent_kept _ _ _ (State.updTier_bytes_kept h _ fun _ => rfl))

theorem State.moveLine_kept (x1) (x2) (h : Kept a s) :
    Kept a (State.moveLine s x1 x2) := by
  grind [State.moveLine, State.poisonLine_kept, State.settleLine_kept, State.countCorr_kept]

theorem State.moveRow_kept (x1) (x2) (h : Kept a s) :
    Kept a (State.moveRow s x1 x2) := by
  grind [State.moveRow, State.moveLine_kept, foldl_kept]

theorem State.retireBd_kept (x1) (x2) (h : Kept a s) :
    Kept a (State.retireBd s x1 x2) := by
  grind [State.retireBd, State.granuleEvent_kept, State.updBdp_kept, State.withdraw_kept, State.moveRow_kept,
    State.repairRec_kept, State.event_kept]

theorem State.retireLp_kept (x1) (x2) (h : Kept a s) :
    Kept a (State.retireLp s x1 x2) := by
  grind [State.retireLp, State.granuleEvent_kept, State.withdraw_kept, State.moveRow_kept, State.updLpc_kept,
    State.repairRec_kept, State.event_kept]

theorem State.retireRow_kept (x1) (x2) (x3) (h : Kept a s) :
    Kept a (State.retireRow s x1 x2 x3) := by
  unfold State.retireRow
  grind [State.retireBd_kept, State.retireLp_kept]

theorem State.corrected_kept (x1) (x2) (x3) (h : Kept a s) :
    Kept a (State.corrected s x1 x2 x3) := by
  unfold State.corrected
  dsimp only
  grind [State.updBdp_kept, State.retireBd_kept, State.settleLine_kept, State.retireLp_kept, State.updLpc_kept,
    State.countCorr_kept]

theorem State.uncorrectable_kept (x1) (x2) (x3) (h : Kept a s) :
    Kept a (State.uncorrectable s x1 x2 x3) := by
  grind [State.uncorrectable, State.poisonLine_kept, State.retireRow_kept]

theorem State.senseLine_kept (x1) (x2) (x3) (h : Kept a s) :
    Kept a (State.senseLine s x1 x2 x3).1 := by
  grind [State.senseLine, State.settleLine_kept, State.corrected_kept, State.uncorrectable_kept]

theorem State.cacheLeaf_kept (x1) (x2) (x3) (x4) (h : Kept a s) :
    Kept a (State.cacheLeaf s x1 x2 x3 x4) := by
  grind [State.cacheLeaf, State.updPart_kept]

theorem State.invalidate_kept (x1) (x2) (x3) (h : Kept a s) :
    Kept a (State.invalidate s x1 x2 x3) := by
  grind [State.invalidate, State.updPart_kept]

theorem State.setLeaf_kept (x1) (x2) (x3) (x4) (x5) (x6) (h : Kept a s) :
    Kept a (State.setLeaf s x1 x2 x3 x4 x5 x6) := by
  grind [State.setLeaf, State.invalidate_kept, State.wr64_kept, foldl_kept]

theorem State.senseLines_kept (x1) (x2) (x3) (h : Kept a s) :
    Kept a (State.senseLines s x1 x2 x3).1 :=
  foldl_kept_fst _ (fun _ _ hx => State.senseLine_kept _ _ _ hx) h

theorem State.senseTables_kept (x1) (x2) (x3) (h : Kept a s) :
    Kept a (State.senseTables s x1 x2 x3).1 := by
  grind [State.senseTables, State.senseLines_kept]

theorem State.senseLeaf_kept (x1) (x2) (x3) (h : Kept a s) :
    Kept a (State.senseLeaf s x1 x2 x3).1 := by
  grind [State.senseLeaf, State.senseTables_kept]

theorem State.xpiece_kept (x1) (x2) (x3) (x4) (h : Kept a s) :
    Kept a (State.xpiece s x1 x2 x3 x4).1 := by
  grind [State.xpiece, State.cacheLeaf_kept, State.eventP_kept, State.senseLines_kept, State.queueWake_kept,
    State.poisonEvent_kept, State.senseLeaf_kept]

theorem xreadGo_kept (x1) (x2) (x3) (x4) (h : Kept a s) :
    Kept a (xreadGo x1 x2 s x3 x4).1 := by
  fun_induction xreadGo <;> grind [State.xpiece_kept, State.tickFree_kept]

theorem State.xreadBase_kept (x1) (x2) (x3) (h : Kept a s) :
    Kept a (State.xreadBase s x1 x2 x3).1 := by
  grind [State.xreadBase, xreadGo_kept]

theorem State.lit_kept (h : Kept a s) :
    Kept a (State.lit s) := by
  grind [State.lit, State.mk_kept]

theorem State.xreadLit_kept (x1) (x2) (x3) (h : Kept a s) :
    Kept a (State.xreadLit s x1 x2 x3).1 := by
  grind [State.xreadLit, State.xreadBase_kept, State.lit_kept, State.mk_kept]

theorem xwriteGo_kept (x1) (x2) (x3) (x4) (x5) (h : Kept a s) :
    Kept a (xwriteGo x1 x2 x3 s x4 x5).1 := by
  fun_induction xwriteGo <;> grind [State.xpiece_kept, State.tickFree_kept, State.rawWriteLine_kept]

theorem State.xwriteBase_kept (x1) (x2) (x3) (x4) (h : Kept a s) :
    Kept a (State.xwriteBase s x1 x2 x3 x4).1 := by
  grind [State.xwriteBase, xwriteGo_kept]

theorem xcheckGo_kept (x1) (x2) (x3) (x4) (x5) (h : Kept a s) :
    Kept a (xcheckGo x1 x2 x3 s x4 x5).1 := by
  fun_induction xcheckGo <;> grind [State.xpiece_kept, State.tickFree_kept]

theorem State.xcheckBase_kept (x1) (x2) (x3) (x4) (h : Kept a s) :
    Kept a (State.xcheckBase s x1 x2 x3 x4).1 := by
  grind [State.xcheckBase, xcheckGo_kept]

theorem State.scramble_kept (x1) (x2) (x3) (h : Kept a s) :
    Kept a (State.scramble s x1 x2 x3) := by
  grind [State.scramble, State.tickFree_kept, State.rawWriteLine_kept, foldl_kept]

theorem State.kvTable_kept (x1) (x2) (x3) (h : Kept a s) :
    Kept a (State.kvTable s x1 x2 x3).1 := by
  fun_induction State.kvTable <;> grind [State.wr64_kept, State.rawWrite_kept, State.tickFree_kept, State.updPart_kept]

theorem State.kvSlots_kept (x1) (x2) (x3) (x4) (h : Kept a s) :
    Kept a (State.kvSlots s x1 x2 x3 x4) := by
  grind [State.kvSlots, State.wr64_kept, foldl_kept]

theorem State.kvMap_kept (x1) (x2) (x3) (h : Kept a s) :
    Kept a (State.kvMap s x1 x2 x3) := by
  grind [State.kvMap, State.updPart_kept, State.kvSlots_kept, State.kvTable_kept]

theorem State.kvUnmap_kept (x1) (x2) (h : Kept a s) :
    Kept a (State.kvUnmap s x1 x2) := by
  grind [State.kvUnmap, State.updPart_kept, State.kvSlots_kept]

theorem State.kvSync_kept (x1) (h : Kept a s) :
    Kept a (State.kvSync s x1) := by
  grind [State.kvSync, State.kvUnmap_kept, State.kvMap_kept, foldl_kept]

theorem State.kvClear_kept (x1) (h : Kept a s) :
    Kept a (State.kvClear s x1) := by
  grind [State.kvClear, State.wr64_kept, State.updPart_kept, foldl_kept]

theorem State.kvRebuild_kept (x1) (h : Kept a s) :
    Kept a (State.kvRebuild s x1) := by
  grind [State.kvRebuild, State.invalidate_kept, State.kvClear_kept, State.kvSync_kept]

theorem State.dirEntry_kept (x1) (x2) (h : Kept a s) :
    Kept a (State.dirEntry s x1 x2) := by
  grind [State.dirEntry, State.scramble_kept]

theorem State.dirSync_kept (x1) (x2) (h : Kept a s) :
    Kept a (State.dirSync s x1 x2) := by
  grind [State.dirSync, State.dirEntry_kept, foldl_kept]

theorem State.updGen_kept (x1) (x2) (h : Kept a s) :
    Kept a (State.updGen s x1 x2) := by
  grind [State.updGen, State.dirSync_kept, State.invalidate_kept, State.updPart_kept, State.kvSync_kept]

theorem State.genWeights_kept (x1) (h : Kept a s) :
    Kept a (State.genWeights s x1) := by
  grind [State.genWeights, State.updGen_kept]

theorem State.sendHeld_kept (x1) (h : Kept a s) :
    Kept a (State.sendHeld s x1) := by
  grind [State.sendHeld, State.updLink_kept, State.emit_kept, foldl_kept]

theorem State.sendFlit_kept (x1) (x2) (h : Kept a s) :
    Kept a (State.sendFlit s x1 x2) := by
  grind [State.sendFlit, State.sendHeld_kept, State.updLink_kept]

theorem State.post_kept (x1) (x2) (x3) (x4) (x5) (x6) (h : Kept a s) :
    Kept a (State.post s x1 x2 x3 x4 x5 x6) := by
  grind [State.post, State.sendFlit_kept, State.emit_kept, State.event_kept, foldl_kept]

theorem State.changeLeaf_kept (x1) (x2) (x3) (h : Kept a s) :
    Kept a (State.changeLeaf s x1 x2 x3) := by
  grind [State.changeLeaf, State.setLeaf_kept]

theorem State.updSet_kept (x1) (x2) (x3) (h : Kept a s) :
    Kept a (State.updSet s x1 x2 x3) := by
  grind [State.updSet, State.updPart_kept]

theorem State.repairChunk_kept (x1) (x2) (x3) (x4) (h : Kept a s) :
    Kept a (State.repairChunk s x1 x2 x3 x4) := by
  have hl := fun (s : State) x1 x2 x3 x4 x5 x6 (h : Kept a s) =>
    State.loomWrote_kept x5 x6 (State.rawWriteLine_kept (s := s) x1 x2 x3 x4 (h := h))
  unfold State.repairChunk
  dsimp only
  split
  · refine foldl_kept _ (fun s pc h => ?_) h
    split
    · split
      · exact hl _ _ _ _ _ _ _ h
      · exact h
    · exact h
  · refine foldl_kept _ (fun s g h => ?_) (foldl_kept _ (fun s pc h => ?_) h)
    · split
      · exact State.updSet_kept _ _ _ (State.changeLeaf_kept _ _ _ h)
      · exact h
    · split
      · split
        · exact hl _ _ _ _ _ _ _ h
        · exact h
      · exact h

theorem State.endRecovery_kept (x1) (x2) (x3) (h : Kept a s) :
    Kept a (State.endRecovery s x1 x2 x3) := by
  grind [State.endRecovery, State.updSet_kept]

theorem State.loseSet_kept (x1) (x2) (x3) (h : Kept a s) :
    Kept a (State.loseSet s x1 x2 x3) := by
  grind [State.loseSet, State.updSet_kept, State.eventP_kept, State.genWeights_kept]

theorem State.offerChunk_kept (x1) (x2) (x3) (x4) (x5) (h : Kept a s) :
    Kept a (State.offerChunk s x1 x2 x3 x4 x5).1 := by
  grind [State.offerChunk, State.updSet_kept, State.endRecovery_kept, State.repairChunk_kept]

theorem State.askReplica_kept (x1) (x2) (x3) (x4) (h : Kept a s) :
    Kept a (State.askReplica s x1 x2 x3 x4).1 := by
  grind [State.askReplica, State.post_kept]

theorem State.replaceRecovery_kept (x1) (x2) (x3) (x4) (h : Kept a s) :
    Kept a (State.replaceRecovery s x1 x2 x3 x4) := by
  grind [State.replaceRecovery, State.updSet_kept]

theorem State.tryHost_kept (x1) (x2) (x3) (x4) (h : Kept a s) :
    Kept a (State.tryHost s x1 x2 x3 x4).1 := by
  grind [State.tryHost, State.replaceRecovery_kept, State.offerChunk_kept, State.xreadLit_kept]

theorem State.recoverFrom_kept (x1) (x2) (x3) (x4) (x5) (h : Kept a s) :
    Kept a (State.recoverFrom s x1 x2 x3 x4 x5).1 := by
  grind [State.recoverFrom, State.replaceRecovery_kept, State.askReplica_kept, State.tryHost_kept]

theorem tryEnd_kept (x1) (x2) (x3) (x4) (x5) (x6) (h6 : Kept a x6.1) :
    Kept a (tryEnd x1 x2 x3 x4 x5 x6).1 := by
  unfold tryEnd
  split
  · exact State.offerChunk_kept _ _ _ _ _ h6
  · exact h6

theorem tryCopy_kept (x1) (x2) (x3) (x4) (x5) (x6) (x7) (x8) (h7 : Kept a x7.1) :
    Kept a (tryCopy x1 x2 x3 x4 x5 x6 x7 x8).1 := by
  grind [tryCopy, tryEnd_kept, State.xreadLit_kept]

theorem State.tryLocal_kept (x1) (x2) (x3) (x4) (h : Kept a s) :
    Kept a (State.tryLocal s x1 x2 x3 x4).1 := by
  unfold State.tryLocal
  extract_lets e unit n x
  have hx : Kept a x.1 := foldl_kept_fst _ (fun x j hx => tryCopy_kept _ _ _ _ _ _ _ _ hx) h
  clear_value x
  split
  · exact hx
  · split
    · exact hx
    · exact State.offerChunk_kept _ _ _ _ _ hx

theorem State.tableCrc_kept (x1) (x2) (x3) (x4) (h : Kept a s) :
    Kept a (State.tableCrc s x1 x2 x3 x4).1 := by
  grind [State.tableCrc, State.xreadLit_kept]

theorem State.startRecovery_kept (x1) (x2) (x3) (x4) (x5) (x6) (h : Kept a s) :
    Kept a (State.startRecovery s x1 x2 x3 x4 x5 x6).1 := by
  unfold State.startRecovery
  extract_lets r s1 s2 s3 t
  have h1 : Kept a s1 := State.changeLeaf_kept _ _ _ h
  have h2 : Kept a s2 := State.updSet_kept _ _ _ h1
  have h3 : Kept a s3 := State.eventP_kept _ _ _ h2
  have ht : Kept a t.1 := State.tableCrc_kept _ _ _ _ h3
  clear_value t
  grind [State.loseSet_kept, State.tryLocal_kept, State.recoverFrom_kept]

theorem foundGo_kept (x1) (x2) (h : Kept a s) :
    Kept a (foundGo x1 s x2) := by
  induction x1 generalizing s x2 with
  | zero => exact h
  | succ n ih =>
    unfold foundGo
    extract_lets x
    have hx : Kept a x.1 := foldl_kept_fst _ (fun x y hx =>
      State.startRecovery_kept _ _ _ _ _ _ hx) h
    clear_value x
    grind

theorem State.found_kept (x1) (h : Kept a s) :
    Kept a (State.found s x1) := by
  grind [State.found, foundGo_kept]

theorem State.xread_kept (x1) (x2) (x3) (h : Kept a s) :
    Kept a (State.xread s x1 x2 x3).1 := by
  grind [State.xread, State.xreadBase_kept, State.found_kept]

theorem State.xwrite_kept (x1) (x2) (x3) (h : Kept a s) :
    Kept a (State.xwrite s x1 x2 x3).1 := by
  grind [State.xwrite, State.xwriteBase_kept, State.found_kept]

theorem State.xupdate_kept (x1) (x2) (x3) (h : Kept a s) :
    Kept a (State.xupdate s x1 x2 x3).1 := by
  grind [State.xupdate, State.xwriteBase_kept, State.found_kept]

theorem State.xcheck_kept (x1) (x2) (x3) (x4) (h : Kept a s) :
    Kept a (State.xcheck s x1 x2 x3 x4).1 := by
  grind [State.xcheck, State.found_kept, State.xcheckBase_kept]

theorem litRetry_kept {α : Type} (x y : State × XR α) (hx : Kept a x.1) (hy : Kept a y.1) :
    Kept a (litRetry x y).1 := by
  unfold litRetry
  split
  · exact hy.same rfl rfl (Nat.le_refl _) rfl rfl
  · exact hx

theorem State.xreadNow_kept (x1) (x2) (x3) (h : Kept a s) :
    Kept a (State.xreadNow s x1 x2 x3).1 := by
  grind [State.xreadNow, State.lit_kept, State.xread_kept, litRetry_kept]

theorem State.xwriteNow_kept (x1) (x2) (x3) (h : Kept a s) :
    Kept a (State.xwriteNow s x1 x2 x3).1 := by
  grind [State.xwriteNow, State.lit_kept, litRetry_kept, State.xwrite_kept]

theorem State.peek_kept (x1) (x2) (x3) (h : Kept a s) :
    Kept a (State.peek s x1 x2 x3).1 := by
  grind [State.peek, State.xreadNow_kept]

theorem touchGo_kept (x1) (x2) (x3) (x4) (x5) (x6) (h : Kept a s) :
    Kept a (touchGo x1 x2 x3 x4 x5 s x6).1 := by
  fun_induction touchGo <;> grind [State.senseTables_kept]

theorem State.touchTables_kept (x1) (x2) (x3) (x4) (h : Kept a s) :
    Kept a (State.touchTables s x1 x2 x3 x4) := by
  grind [State.touchTables, touchGo_kept, State.found_kept]

theorem State.evcSet_kept (x1) (x2) (x3) (h : Kept a s) :
    Kept a (State.evcSet s x1 x2 x3) := by
  grind [State.evcSet, State.updPart_kept]

theorem State.evcAdd_kept (x1) (x2) (x3) (h : Kept a s) :
    Kept a (State.evcAdd s x1 x2 x3) := by
  grind [State.evcAdd, State.eventP_kept, State.evcSet_kept]

theorem State.irq_kept (x1) (x2) (h : Kept a s) :
    Kept a (State.irq s x1 x2) := by
  grind [State.irq, State.emit_kept, State.mk_kept]

theorem State.updCmd_kept (x1) (x2) (x3) (h : Kept a s) :
    Kept a (State.updCmd s x1 x2 x3) := by
  grind [State.updCmd, State.updPart_kept]

theorem State.dropCmd_kept (x1) (x2) (h : Kept a s) :
    Kept a (State.dropCmd s x1 x2) := by
  grind [State.dropCmd, State.updPart_kept]

theorem State.applyWrite_kept (x1) (x2) (h : Kept a s) :
    Kept a (State.applyWrite s x1 x2) := by
  grind [State.applyWrite, State.senseLines_kept, State.found_kept, State.rawWrite_kept]

theorem State.applyStaged_kept (x1) (x2) (h : Kept a s) :
    Kept a (State.applyStaged s x1 x2) := by
  grind [State.applyStaged, State.evcAdd_kept, State.applyWrite_kept, foldl_kept]

theorem State.junkRange_kept (x1) (x2) (x3) (h : Kept a s) :
    Kept a (State.junkRange s x1 x2 x3) := by
  grind [State.junkRange, State.rawWrite_kept, State.tickFree_kept]

theorem State.junkAtm_kept (x1) (x2) (h : Kept a s) :
    Kept a (State.junkAtm s x1 x2) := by
  grind [State.junkAtm, State.junkRange_kept]

theorem State.loomsAct_kept (x1) (x2) (h : Kept a s) :
    Kept a (State.loomsAct s x1 x2) := by
  grind [State.loomsAct, State.updLoom_kept, foldl_kept]

theorem State.loomsTake_kept (x1) (x2) (x3) (h : Kept a s) :
    Kept a (State.loomsTake s x1 x2 x3) := by
  grind [State.loomsTake, State.updCmd_kept]

theorem State.freeCores_kept (x1) (x2) (h : Kept a s) :
    Kept a (State.freeCores s x1 x2) := by
  grind [State.freeCores, State.updCore_kept, foldl_kept]

theorem State.finish_kept (x1) (x2) (x3) (h : Kept a s) :
    Kept a (State.finish s x1 x2 x3) := by
  grind [State.finish, State.updCmd_kept, State.junkAtm_kept, State.freeCores_kept, State.loomsAct_kept,
    State.applyStaged_kept]

theorem State.returnFetched_kept (x1) (x2) (h : Kept a s) :
    Kept a (State.returnFetched s x1 x2) := by
  grind [State.returnFetched, State.updQueue_kept, State.updPart_kept]

theorem State.stopQueue_kept (x1) (x2) (x3) (h : Kept a s) :
    Kept a (State.stopQueue s x1 x2 x3) := by
  grind [State.stopQueue, State.returnFetched_kept, State.updQueue_kept]

theorem State.updStep_kept (x1) (x2) (h : Kept a s) :
    Kept a (State.updStep s x1 x2) := by
  grind [State.updStep, State.updPart_kept]

theorem State.genSkip_kept (x1) (h : Kept a s) :
    Kept a (State.genSkip s x1) := by
  grind [State.genSkip, State.updStep_kept, State.updQueue_kept, State.updPart_kept]

theorem tplGo_kept (x1) (x2) (h : Kept a s) :
    Kept a (tplGo x1 x2 s) := by
  fun_induction tplGo <;> grind [State.waking_kept, State.updStep_kept, State.genSkip_kept, State.updQueue_kept,
    State.xread_kept, State.xwrite_kept]

theorem State.genAfter_kept (x1) (x2) (h : Kept a s) :
    Kept a (State.genAfter s x1 x2) := by
  grind [State.genAfter, tplGo_kept, State.genSkip_kept]

theorem State.afterRecord_kept (x1) (x2) (x3) (h : Kept a s) :
    Kept a (State.afterRecord s x1 x2 x3) := by
  grind [State.afterRecord, State.irq_kept, State.dropCmd_kept, State.evcAdd_kept, State.updQueue_kept,
    State.updPart_kept]

theorem State.writeRecord_kept (x1) (x2) (x3) (h : Kept a s) :
    Kept a (State.writeRecord s x1 x2 x3).1 := by
  grind [State.writeRecord, State.xwrite_kept]

theorem State.holdRecord_kept (x1) (x2) (h : Kept a s) :
    Kept a (State.holdRecord s x1 x2) := by
  grind [State.holdRecord, State.stopQueue_kept, State.updCmd_kept]

theorem State.applyRest_kept (x1) (x2) (h : Kept a s) :
    Kept a (State.applyRest s x1 x2) := by
  grind [State.applyRest, State.updCmd_kept, State.applyStaged_kept]

theorem State.completeCmd_kept (x1) (x2) (x3) (h : Kept a s) :
    Kept a (State.completeCmd s x1 x2 x3) := by
  grind [State.completeCmd, State.stopQueue_kept, State.writeRecord_kept, State.waking_kept, State.genAfter_kept,
    State.holdRecord_kept, State.afterRecord_kept, State.applyRest_kept]

theorem flushGo_kept (x1) (x2) (h : Kept a s) :
    ∀ t, flushGo x1 x2 s = .on t ∨ flushGo x1 x2 s = .wait t → Kept a t := by
  fun_induction flushGo <;> grind [State.stopQueue_kept, State.writeRecord_kept, State.afterRecord_kept,
    State.updPart_kept, State.waking_kept]

theorem State.flushHeld_kept (x1) (x2) (h : Kept a s) :
    Kept a (State.flushHeld s x1 x2) := by
  grind [State.flushHeld, State.genAfter_kept, flushGo_kept]

theorem State.takeDescriptor_kept (x1) (x2) (x3) (x4) (h : Kept a s) :
    Kept a (State.takeDescriptor s x1 x2 x3 x4) := by
  grind [State.takeDescriptor, State.updQueue_kept, State.updPart_kept]

theorem State.readSlot_kept (x1) (x2) (h : Kept a s) :
    Kept a (State.readSlot s x1 x2).1 := by
  grind [State.readSlot, State.stopQueue_kept, State.xread_kept]

theorem State.takeTurn_kept (x1) (x2) (h : Kept a s) :
    Kept a (State.takeTurn s x1 x2) := by
  grind [State.takeTurn, State.updPart_kept]

theorem State.freeRange_kept (x1) (x2) (h : Kept a s) :
    Kept a (State.freeRange s x1 x2) := by
  grind [State.freeRange, State.updCore_kept, State.tickFree_kept, foldl_kept]

theorem State.updGroup_kept (x1) (x2) (h : Kept a s) :
    Kept a (State.updGroup s x1 x2) := by
  grind [State.updGroup, State.mk_kept]

theorem State.sendTo_kept (x1) (x2) (x3) (x4) (x5) (h : Kept a s) :
    Kept a (State.sendTo s x1 x2 x3 x4 x5) := by
  grind [State.sendTo, State.post_kept]

theorem State.sendOthers_kept (x1) (x2) (x3) (x4) (h : Kept a s) :
    Kept a (State.sendOthers s x1 x2 x3 x4) := by
  grind [State.sendOthers, State.sendTo_kept, foldl_kept]

theorem State.scrambleDst_kept (x1) (x2) (h : Kept a s) :
    Kept a (State.scrambleDst s x1 x2) := by
  grind [State.scrambleDst, State.freeRange_kept, State.scramble_kept, foldl_kept]

theorem State.emptySet_kept (x1) (x2) (h : Kept a s) :
    Kept a (State.emptySet s x1 x2) := by
  grind [State.emptySet, State.updSet_kept]

theorem State.endGroup_kept (x1) (x2) (x3) (x4) (x5) (x6) (x7) (x8) (h : Kept a s) :
    Kept a (State.endGroup s x1 x2 x3 x4 x5 x6 x7 x8) := by
  grind [State.endGroup, State.sendOthers_kept, State.scrambleDst_kept, State.finish_kept, State.tickFree_kept,
    State.emptySet_kept]

theorem State.missGroup_kept (x1) (x2) (x3) (x4) (x5) (h : Kept a s) :
    Kept a (State.missGroup s x1 x2 x3 x4 x5) := by
  grind [State.missGroup, State.endGroup_kept]

theorem State.breakGroup_kept (x1) (x2) (x3) (h : Kept a s) :
    Kept a (State.breakGroup s x1 x2 x3) := by
  grind [State.breakGroup, State.updGroup_kept, State.eventP_kept, State.endGroup_kept, foldl_kept]

theorem State.breakLost_kept (h : Kept a s) :
    Kept a (State.breakLost s) := by
  grind [State.breakLost, State.breakGroup_kept, foldl_kept]

theorem execLeave_kept (x1) (x2) (h : Kept a s) :
    AnsKept a (execLeave x1 x2 s) := by
  grind [execLeave, AnsKept, State.breakGroup_kept]

theorem State.leaveGroups_kept (x1) (h : Kept a s) :
    Kept a (State.leaveGroups s x1) := by
  grind [State.leaveGroups, State.sendOthers_kept, State.mk_kept, foldl_kept]

theorem State.endForm_kept (x1) (x2) (x3) (x4) (x5) (h : Kept a s) :
    Kept a (State.endForm s x1 x2 x3 x4 x5) := by
  grind [State.endForm, State.finish_kept, State.mk_kept]

theorem State.forgetEpochs_kept (x1) (x2) (x3) (h : Kept a s) :
    Kept a (State.forgetEpochs s x1 x2 x3) := by
  grind [State.forgetEpochs, State.updPart_kept]

theorem State.formDone_kept (x1) (x2) (x3) (h : Kept a s) :
    Kept a (State.formDone s x1 x2 x3) := by
  grind [State.formDone, State.updGroup_kept, State.finish_kept, State.forgetEpochs_kept]

theorem State.formTake_kept (x1) (x2) (x3) (x4) (h : Kept a s) :
    Kept a (State.formTake s x1 x2 x3 x4) := by
  grind [State.formTake, State.updCmd_kept, State.endForm_kept, State.formDone_kept]

theorem formEarly_kept (x1) (x2) (x3) (x4) (h : Kept a s) :
    Kept a (formEarly x1 x2 x3 s x4).1 := by
  fun_induction formEarly <;> grind [State.formTake_kept]

theorem State.formStart_kept (x1) (x2) (x3) (h : Kept a s) :
    Kept a (State.formStart s x1 x2 x3) := by
  grind [State.formStart, State.post_kept, State.updCmd_kept, State.formDone_kept, formEarly_kept, State.mk_kept,
    foldl_kept]

theorem State.startForm_kept (x1) (x2) (x3) (h : Kept a s) :
    Kept a (State.startForm s x1 x2 x3) := by
  grind [State.startForm, State.updGroup_kept, State.waking_kept, State.formStart_kept, State.finish_kept,
    State.xread_kept, State.breakGroup_kept]

theorem State.onNew_kept (x1) (x2) (x3) (x4) (x5) (h : Kept a s) (h5 : ∀ y0, Kept a (x5 y0)) :
    AnsKept a (State.onNew s x1 x2 x3 x4 x5) := by
  grind [State.onNew, AnsKept]

theorem execForm_kept (x1) (x2) (x3) (h : Kept a s) :
    AnsKept a (execForm x1 x2 x3 s) := by
  grind [execForm, AnsKept, State.onNew_kept, State.startForm_kept]

theorem execReform_kept (x1) (x2) (x3) (h : Kept a s) :
    AnsKept a (execReform x1 x2 x3 s) := by
  grind [execReform, AnsKept, State.onNew_kept, State.startForm_kept]

theorem execDissolve_kept (x1) (x2) (x3) (h : Kept a s) :
    AnsKept a (execDissolve x1 x2 x3 s) := by
  grind [execDissolve, AnsKept, State.onNew_kept, State.finish_kept, State.forgetEpochs_kept, State.breakGroup_kept,
    State.mk_kept]

theorem execListHash_kept (x1) (x2) (x3) (h : Kept a s) :
    AnsKept a (execListHash x1 x2 x3 s) := by
  grind [execListHash, AnsKept, State.formTake_kept, State.mk_kept]

theorem execGroupFormTimeout_kept (x1) (x2) (x3) (h : Kept a s) :
    AnsKept a (execGroupFormTimeout x1 x2 x3 s) := by
  grind [execGroupFormTimeout, AnsKept, State.endForm_kept]

end Sys2Proof.Machine
end

