-- ==== Sys2Proof/Laws/KeepCmds.lean ====
section
/-! SUPPORT. What `Kept` says of the operations of the core groups, the descriptors, migration and the serving engine. -/

namespace Sys2Proof.Machine

set_option maxRecDepth 4000
set_option Elab.async false

variable {a s : State}

theorem State.setD_kept (x1) (x2) (x3) (h : Kept a s) :
    Kept a (State.setD s x1 x2 x3) := by
  grind [State.setD, State.updCore_kept]

theorem State.senseWord_kept (x1) (x2) (h : Kept a s) :
    Kept a (State.senseWord s x1 x2) := by
  grind [State.senseWord, State.updCore_kept, State.event_kept]

theorem State.senseRanges_kept (x1) (x2) (h : Kept a s) :
    Kept a (State.senseRanges s x1 x2) := by
  grind [State.senseRanges, State.senseWord_kept, foldl_kept]

theorem State.freeReg_kept (x1) (x2) (h : Kept a s) :
    Kept a (State.freeReg s x1 x2) := by
  grind [State.freeReg, State.updCore_kept, State.tickFree_kept]

theorem State.freeDma_kept (x1) (x2) (h : Kept a s) :
    Kept a (State.freeDma s x1 x2) := by
  grind [State.freeDma, State.freeRange_kept, State.scramble_kept, State.tickFree_kept, State.updPart_kept]

theorem State.taint_kept (x1) (x2) (h : Kept a s) :
    Kept a (State.taint s x1 x2) := by
  grind [State.taint, State.updCore_kept, State.freeRange_kept, State.freeReg_kept, State.tickFree_kept,
    State.freeDma_kept, foldl_kept]

theorem State.scrStore_kept (x1) (x2) (x3) (x4) (h : Kept a s) :
    Kept a (State.scrStore s x1 x2 x3 x4) := by
  grind [State.scrStore, State.taint_kept, State.updCore_kept, State.tickFree_kept, State.senseWord_kept, foldl_kept]

theorem State.updKernel_kept (x1) (x2) (x3) (h : Kept a s) :
    Kept a (State.updKernel s x1 x2 x3) := by
  grind [State.updKernel, State.updCmd_kept]

theorem State.feedsLost_kept (x1) (x2) (h : Kept a s) :
    Kept a (State.feedsLost s x1 x2) := by
  grind [State.feedsLost, State.endGroup_kept, foldl_kept]

theorem State.openIncs_kept (x1) (x2) (x3) (h : Kept a s) :
    Kept a (State.openIncs s x1 x2 x3) := by
  grind [State.openIncs, State.evcAdd_kept, State.tickFree_kept, foldl_kept]

theorem State.endKernel_kept (x1) (x2) (x3) (x4) (h : Kept a s) :
    Kept a (State.endKernel s x1 x2 x3 x4) := by
  grind [State.endKernel, State.feedsLost_kept, State.updCore_kept, State.scramble_kept, State.openIncs_kept,
    State.finish_kept, State.tickFree_kept, foldl_kept]

theorem State.coreFaultAt_kept (x1) (x2) (x3) (x4) (x5) (h : Kept a s) :
    Kept a (State.coreFaultAt s x1 x2 x3 x4 x5) := by
  grind [State.coreFaultAt, State.eventP_kept, State.updCore_kept, State.updKernel_kept, State.event_kept]

theorem State.coreFault_kept (x1) (x2) (x3) (x4) (h : Kept a s) :
    Kept a (State.coreFault s x1 x2 x3 x4) := by
  grind [State.coreFault, State.coreFaultAt_kept]

theorem State.settle_kept (x1) (x2) (h : Kept a s) :
    Kept a (State.settle s x1 x2) := by
  grind [State.settle, State.endKernel_kept]

theorem State.issue_kept (x1) (x2) (x3) (x4) (x5) (h : Kept a s) (h5 : ∀ y0, Kept a y0 → IResKept a (x5 y0)) :
    Kept a (State.issue s x1 x2 x3 x4 x5) := by
  grind [State.issue, IResKept, State.waking_kept, State.updCore_kept, State.coreFault_kept]

theorem State.seqOp_kept (x1) (x2) (x3) (x4) (h : Kept a s) (h4 : ∀ y0, Kept a y0 → IResKept a (x4 y0)) :
    IResKept a (State.seqOp s x1 x2 x3 x4) := by
  grind [State.seqOp, IResKept]

theorem State.unitOp_kept (x1) (x2) (x3) (x4) (h : Kept a s) (h4 : ∀ y0, Kept a y0 → IResKept a (x4 y0)) :
    IResKept a (State.unitOp s x1 x2 x3 x4) := by
  grind [State.unitOp, IResKept, State.senseRanges_kept, State.updCore_kept]

theorem setReg_kept (x1) (x2) (x3) (x4) (h : Kept a s) :
    IResKept a (setReg x1 x2 x3 x4 s) := by
  grind [setReg, IResKept, State.seqOp_kept, State.setD_kept]

theorem execCoreNop_kept (x1) (x2) (h : Kept a s) :
    AnsKept a (execCoreNop x1 x2 s) := by
  grind [execCoreNop, AnsKept, IResKept, State.issue_kept]

theorem State.tryCommit_kept (x1) (x2) (x3) (h : Kept a s) :
    Kept a (State.tryCommit s x1 x2 x3) := by
  grind [State.tryCommit, State.endKernel_kept]

theorem execCoreEnd_kept (x1) (x2) (h : Kept a s) :
    AnsKept a (execCoreEnd x1 x2 s) := by
  unfold execCoreEnd
  dsimp only
  grind [AnsKept, IResKept, State.issue_kept, State.updCore_kept, State.tryCommit_kept, State.updKernel_kept]

theorem State.branchTo_kept (x1) (x2) (h : Kept a s) :
    IResKept a (State.branchTo s x1 x2) := by
  grind [State.branchTo, IResKept]

theorem execJmp_kept (x1) (x2) (h : Kept a s) :
    AnsKept a (execJmp x1 x2 s) := by
  grind [execJmp, AnsKept, IResKept, State.issue_kept, State.branchTo_kept]

theorem execBr_kept (x1) (x2) (h : Kept a s) :
    AnsKept a (execBr x1 x2 s) := by
  grind [execBr, AnsKept, IResKept, State.seqOp_kept, State.issue_kept, State.branchTo_kept]

theorem execLoop_kept (x1) (x2) (h : Kept a s) :
    AnsKept a (execLoop x1 x2 s) := by
  grind [execLoop, AnsKept, IResKept, State.seqOp_kept, State.issue_kept, State.updCore_kept]

theorem execLi_kept (x1) (x2) (h : Kept a s) :
    AnsKept a (execLi x1 x2 s) := by
  grind [execLi, AnsKept, IResKept, setReg_kept, State.issue_kept]

theorem execLih_kept (x1) (x2) (h : Kept a s) :
    AnsKept a (execLih x1 x2 s) := by
  grind [execLih, AnsKept, IResKept, setReg_kept, State.issue_kept]

theorem execAlu_kept (x1) (x2) (h : Kept a s) :
    AnsKept a (execAlu x1 x2 s) := by
  grind [execAlu, AnsKept, IResKept, setReg_kept, State.issue_kept]

theorem execAlui_kept (x1) (x2) (h : Kept a s) :
    AnsKept a (execAlui x1 x2 s) := by
  grind [execAlui, AnsKept, IResKept, setReg_kept, State.issue_kept]

theorem State.countCycles_kept (x1) (h : Kept a s) :
    Kept a (State.countCycles s x1) := by
  grind [State.countCycles, State.updCore_kept, State.tickFree_kept]

theorem execSys_kept (x1) (x2) (h : Kept a s) :
    AnsKept a (execSys x1 x2 s) := by
  grind [execSys, AnsKept, IResKept, State.countCycles_kept, setReg_kept, State.issue_kept]

theorem execArg_kept (x1) (x2) (h : Kept a s) :
    AnsKept a (execArg x1 x2 s) := by
  grind [execArg, AnsKept, IResKept, setReg_kept, State.issue_kept]

theorem execCoreFence_kept (x1) (x2) (h : Kept a s) :
    AnsKept a (execCoreFence x1 x2 s) := by
  grind [execCoreFence, AnsKept, IResKept, State.issue_kept]

theorem execKbar_kept (x1) (x2) (h : Kept a s) :
    AnsKept a (execKbar x1 x2 s) := by
  grind [execKbar, AnsKept, IResKept, State.issue_kept, State.updCore_kept, State.updKernel_kept, foldl_kept]

theorem execEvinc_kept (x1) (x2) (h : Kept a s) :
    AnsKept a (execEvinc x1 x2 s) := by
  grind [execEvinc, AnsKept, IResKept, State.updCmd_kept, State.issue_kept, State.evcAdd_kept]

theorem execEvwait_kept (x1) (x2) (h : Kept a s) :
    AnsKept a (execEvwait x1 x2 s) := by
  grind [execEvwait, AnsKept, IResKept, State.seqOp_kept, State.issue_kept]

theorem execCrpost_kept (x1) (x2) (h : Kept a s) :
    AnsKept a (execCrpost x1 x2 s) := by
  refine State.issue_kept _ _ _ _ _ h fun s hs => ?_
  split
  · exact trivial
  · refine State.seqOp_kept _ _ _ _ hs fun s hs => ?_
    grind [IResKept, State.updCore_kept]

theorem execCrwait_kept (x1) (x2) (h : Kept a s) :
    AnsKept a (execCrwait x1 x2 s) := by
  grind [execCrwait, AnsKept, IResKept, State.issue_kept, State.updCore_kept]

theorem execInstructionComplete_kept (x1) (x2) (h : Kept a s) :
    AnsKept a (execInstructionComplete x1 x2 s) := by
  grind [execInstructionComplete, AnsKept, State.updCore_kept]

theorem execDmaComplete_kept (x1) (h : Kept a s) :
    AnsKept a (execDmaComplete x1 s) := by
  grind [execDmaComplete, AnsKept, State.updCore_kept]

theorem State.dmaOp_kept (x1) (x2) (x3) (x4) (h : Kept a s) (h4 : ∀ y0 y1 y2 y3, Kept a y0 → IResKept a (x4 y0 y1 y2 y3)) :
    IResKept a (State.dmaOp s x1 x2 x3 x4) := by
  grind [State.dmaOp, IResKept, State.seqOp_kept]

theorem execDmain_kept (x1) (x2) (h : Kept a s) :
    AnsKept a (execDmain x1 x2 s) := by
  refine State.issue_kept _ _ _ _ _ h fun s hs => ?_
  split
  · exact trivial
  · refine State.dmaOp_kept _ _ _ _ hs fun s m b n hs => ?_
    grind [IResKept, State.updCore_kept, State.xread_kept, State.scrStore_kept]

theorem State.dmaSource_kept (x1) (x2) (x3) (x4) (h : Kept a s) (h4 : ∀ y0 y1, Kept a y0 → IResKept a (x4 y0 y1)) :
    IResKept a (State.dmaSource s x1 x2 x3 x4) := by
  grind [State.dmaSource, IResKept, State.senseRanges_kept, State.tickFree_kept]

theorem State.stageWrite_kept (x1) (x2) (x3) (x4) (x5) (h : Kept a s) :
    Kept a (State.stageWrite s x1 x2 x3 x4 x5).1 := by
  grind [State.stageWrite, State.updCmd_kept, State.junkAtm_kept, State.xcheck_kept, foldl_kept]

theorem execDmaout_kept (x1) (x2) (h : Kept a s) :
    AnsKept a (execDmaout x1 x2 s) := by
  refine State.issue_kept _ _ _ _ _ h fun s hs => ?_
  split
  · exact trivial
  · refine State.dmaOp_kept _ _ _ _ hs fun s m b n hs => ?_
    extract_lets va src
    split
    · exact hs
    · refine State.dmaSource_kept _ _ _ _ hs fun s bs hs => ?_
      grind [IResKept, State.updCore_kept, State.stageWrite_kept, State.xwrite_kept, State.updKernel_kept,
        State.endKernel_kept]

theorem execDmapeer_kept (x1) (x2) (h : Kept a s) :
    AnsKept a (execDmapeer x1 x2 s) := by
  refine State.issue_kept _ _ _ _ _ h fun s hs => ?_
  split
  · exact trivial
  · refine State.dmaOp_kept _ _ _ _ hs fun s m b n hs => ?_
    extract_lets src dst rank
    split
    · exact hs
    · split
      · exact hs
      · split
        · exact hs
        · split
          · exact hs
          · refine State.dmaSource_kept _ _ _ _ hs fun s bs hs => ?_
            exact State.updCore_kept (State.scrStore_kept _ _ _ _ hs) _ _

theorem execDmawait_kept (x1) (x2) (h : Kept a s) :
    AnsKept a (execDmawait x1 x2 s) := by
  grind [execDmawait, AnsKept, IResKept, State.issue_kept]

theorem execTld_kept (x1) (x2) (h : Kept a s) :
    AnsKept a (execTld x1 x2 s) := by
  grind [execTld, AnsKept, IResKept, State.issue_kept, State.unitOp_kept, State.updCore_kept, State.tickFree_kept]

theorem execTst_kept (x1) (x2) (h : Kept a s) :
    AnsKept a (execTst x1 x2 s) := by
  grind [execTst, AnsKept, IResKept, State.issue_kept, State.unitOp_kept, State.scrStore_kept]

theorem atWord_kept (x1) (x2) (x3) (h : Kept a s) (h3 : ∀ y0, IResKept a (x3 y0)) :
    IResKept a (atWord s x1 x2 x3) := by
  grind [atWord, IResKept]

theorem execSld_kept (x1) (x2) (h : Kept a s) :
    AnsKept a (execSld x1 x2 s) := by
  grind [execSld, AnsKept, IResKept, atWord_kept, State.issue_kept, State.unitOp_kept, State.setD_kept,
    State.tickFree_kept]

theorem execSst_kept (x1) (x2) (h : Kept a s) :
    AnsKept a (execSst x1 x2 s) := by
  grind [execSst, AnsKept, IResKept, atWord_kept, State.issue_kept, State.unitOp_kept, State.scrStore_kept]

theorem execDescriptorFetch_kept (x1) (x2) (h : Kept a s) :
    AnsKept a (execDescriptorFetch x1 x2 s) := by
  grind [execDescriptorFetch, AnsKept, State.readSlot_kept, State.waking_kept, State.takeDescriptor_kept]

theorem State.flushFirst_kept (x1) (x2) (h : Kept a s) :
    Kept a (State.flushFirst s x1 x2) := by
  grind [State.flushFirst, State.flushHeld_kept]

theorem execCommandComplete_kept (x1) (x2) (x3) (h : Kept a s) :
    AnsKept a (execCommandComplete x1 x2 x3 s) := by
  grind [execCommandComplete, AnsKept, State.settle_kept, State.completeCmd_kept, State.flushFirst_kept]

theorem State.onCmd_kept (x1) (x2) (x3) (x4) (x5) (h : Kept a s) (h5 : ∀ y0, Kept a (x5 y0)) :
    AnsKept a (State.onCmd s x1 x2 x3 x4 x5) := by
  grind [State.onCmd, AnsKept]

theorem State.cmdWrite_kept (x1) (x2) (x3) (x4) (x5) (h : Kept a s) :
    Kept a (State.cmdWrite s x1 x2 x3 x4 x5).1 := by
  grind [State.cmdWrite, State.stageWrite_kept, State.xwrite_kept]

theorem moveGo_kept (x1) (x2) (x3) (x4) (x5) (h : Kept a s) (h4 : ∀ y0 y1 y2, Kept a y0 → Kept a (x4 y0 y1 y2).1) :
    Kept a (moveGo x1 x2 x3 x4 x5 s).1 := by
  fun_induction moveGo <;> grind [State.cmdWrite_kept]

theorem State.endMove_kept (x1) (x2) (x3) (x4) (x5) (h : Kept a s) (h5 : Kept a x5.1) :
    Kept a (State.endMove s x1 x2 x3 x4 x5) := by
  unfold State.endMove
  dsimp only
  grind [State.waking_kept, State.scramble_kept, State.finish_kept]

theorem State.runCopy_kept (x1) (x2) (h : Kept a s) :
    Kept a (State.runCopy s x1 x2) := by
  grind [State.runCopy, State.tickFree_kept, moveGo_kept, State.xread_kept, State.endMove_kept]

theorem execCopy_kept (x1) (x2) (x3) (h : Kept a s) :
    AnsKept a (execCopy x1 x2 x3 s) := by
  grind [execCopy, AnsKept, State.runCopy_kept, State.onCmd_kept]

theorem State.runFill_kept (x1) (x2) (x3) (h : Kept a s) :
    Kept a (State.runFill s x1 x2 x3) := by
  grind [State.runFill, moveGo_kept, State.endMove_kept]

theorem execFill_kept (x1) (x2) (x3) (h : Kept a s) :
    AnsKept a (execFill x1 x2 x3 s) := by
  grind [execFill, AnsKept, State.runFill_kept, State.onCmd_kept]

theorem execScrub_kept (x1) (x2) (x3) (h : Kept a s) :
    AnsKept a (execScrub x1 x2 x3 s) := by
  grind [execScrub, AnsKept, State.runFill_kept, State.onCmd_kept]

theorem execFence_kept (x1) (x2) (x3) (h : Kept a s) :
    AnsKept a (execFence x1 x2 x3 s) := by
  grind [execFence, AnsKept, State.finish_kept, State.onCmd_kept]

theorem execSignalAdd_kept (x1) (x2) (x3) (h : Kept a s) :
    AnsKept a (execSignalAdd x1 x2 x3 s) := by
  grind [execSignalAdd, AnsKept, State.finish_kept, State.onCmd_kept, State.evcAdd_kept]

theorem execSignalSet_kept (x1) (x2) (x3) (h : Kept a s) :
    AnsKept a (execSignalSet x1 x2 x3 s) := by
  grind [execSignalSet, AnsKept, State.finish_kept, State.evcSet_kept, State.onCmd_kept]

theorem execWait_kept (x1) (x2) (x3) (h : Kept a s) :
    AnsKept a (execWait x1 x2 x3 s) := by
  grind [execWait, AnsKept, State.finish_kept, State.onCmd_kept]

theorem execMark_kept (x1) (x2) (x3) (h : Kept a s) :
    AnsKept a (execMark x1 x2 x3 s) := by
  grind [execMark, AnsKept, State.record_kept, State.finish_kept, State.onCmd_kept]

theorem execNop_kept (x1) (x2) (x3) (h : Kept a s) :
    AnsKept a (execNop x1 x2 x3 s) := by
  grind [execNop, AnsKept, State.finish_kept, State.onCmd_kept]

theorem State.readImage_kept (x1) (x2) (h : Kept a s) :
    Kept a (State.readImage s x1 x2).1 := by
  grind [State.readImage, State.xread_kept]

theorem State.startKernel_kept (x1) (x2) (h : Kept a s) :
    Kept a (State.startKernel s x1 x2) := by
  grind [State.startKernel, State.updCmd_kept, State.waking_kept, State.queueWake_kept, State.updCore_kept,
    State.finish_kept, State.readImage_kept, foldl_kept]

theorem execKernel_kept (x1) (x2) (x3) (h : Kept a s) :
    AnsKept a (execKernel x1 x2 x3 s) := by
  grind [execKernel, AnsKept, State.startKernel_kept, State.onCmd_kept]

theorem State.copyLine_kept (x1) (x2) (x3) (x4) (h : Kept a s) :
    Kept a (State.copyLine s x1 x2 x3 x4).1 := by
  grind [State.copyLine, State.markPoison_kept, State.poisonEvent_kept, State.senseLine_kept, State.rawWriteLine_kept]

theorem State.copyPage_kept (x1) (x2) (x3) (x4) (x5) (h : Kept a s) :
    Kept a (State.copyPage s x1 x2 x3 x4 x5).1 := by
  grind [State.copyPage, State.found_kept, State.tickFree_kept, State.copyLine_kept, foldl_kept, foldl_kept_fst]

theorem State.unmark_kept (x1) (x2) (x3) (h : Kept a s) :
    Kept a (State.unmark s x1 x2 x3) := by
  grind [State.unmark, State.invalidate_kept, State.wr64_kept, State.eventP_kept, foldl_kept]

theorem State.markMig_kept (x1) (x2) (h : Kept a s) :
    ∀ t y, (State.markMig s x1 x2) = some (t, y) → Kept a t := by
  grind [State.markMig, State.setLeaf_kept]

theorem State.endMigrate_kept (x1) (x2) (x3) (h : Kept a s) :
    Kept a (State.endMigrate s x1 x2 x3) := by
  grind [State.endMigrate, State.finish_kept]

theorem State.migrateNext_kept (x1) (x2) (x3) (x4) (h : Kept a s) :
    Kept a (State.migrateNext s x1 x2 x3 x4) := by
  unfold State.migrateNext
  dsimp only
  grind [State.updCmd_kept, State.markMig_kept, State.finish_kept]

theorem State.startMigrate_kept (x1) (x2) (h : Kept a s) :
    Kept a (State.startMigrate s x1 x2) := by
  unfold State.startMigrate
  dsimp only
  grind [State.migrateNext_kept, State.finish_kept, State.touchTables_kept, State.xcheck_kept]

theorem execMigrate_kept (x1) (x2) (x3) (h : Kept a s) :
    AnsKept a (execMigrate x1 x2 x3 s) := by
  grind [execMigrate, AnsKept, State.startMigrate_kept, State.onCmd_kept]

theorem State.migratePage_kept (x1) (x2) (x3) (x4) (x5) (x6) (h : Kept a s) :
    Kept a (State.migratePage s x1 x2 x3 x4 x5 x6) := by
  grind [State.migratePage, State.migrateNext_kept, State.queueWake_kept, State.unmark_kept, State.finish_kept,
    State.setLeaf_kept, foundGo_kept, State.copyPage_kept]

theorem execMigrationCopyDone_kept (x1) (x2) (x3) (h : Kept a s) :
    AnsKept a (execMigrationCopyDone x1 x2 x3 s) := by
  grind [execMigrationCopyDone, AnsKept, State.migrateNext_kept, State.onCmd_kept, State.migratePage_kept]

theorem State.returnPage_kept (x1) (x2) (h : Kept a s) :
    Kept a (State.returnPage s x1 x2) := by
  grind [State.returnPage, State.changeLeaf_kept]

theorem State.abortMigrate_kept (x1) (x2) (x3) (h : Kept a s) :
    Kept a (State.abortMigrate s x1 x2 x3) := by
  grind [State.abortMigrate, State.returnPage_kept, State.finish_kept]

theorem execInvalidationDone_kept (x1) (h : Kept a s) :
    AnsKept a (execInvalidationDone x1 s) := by
  grind [execInvalidationDone, AnsKept, State.updPart_kept]

theorem State.pilotOn_kept (x1) (h : Kept a s) :
    Kept a (State.pilotOn s x1) := by
  grind [State.pilotOn, State.updPart_kept, State.touchTables_kept, State.peek_kept]

theorem State.routeWord_kept (x1) (x2) (x3) (x4) (h : Kept a s) :
    Kept a (State.routeWord s x1 x2 x3 x4) := by
  grind [State.routeWord, State.xwriteNow_kept]

theorem State.routeMod_kept (x1) (x2) (x3) (x4) (h : Kept a s) :
    Kept a (State.routeMod s x1 x2 x3 x4) := by
  grind [State.routeMod, State.routeWord_kept, State.peek_kept]

theorem State.routeFlag_kept (x1) (x2) (x3) (h : Kept a s) :
    Kept a (State.routeFlag s x1 x2 x3) := by
  grind [State.routeFlag, State.routeMod_kept]

theorem State.pilotLate_kept (x1) (x2) (h : Kept a s) :
    Kept a (State.pilotLate s x1 x2) := by
  grind [State.pilotLate, State.record_kept, State.tickFree_kept, State.routeMod_kept, State.updPart_kept]

theorem State.pilotDeadlines_kept (x1) (h : Kept a s) :
    Kept a (State.pilotDeadlines s x1) := by
  grind [State.pilotDeadlines, State.updPart_kept]

theorem State.endRun_kept (x1) (x2) (h : Kept a s) :
    Kept a (State.endRun s x1 x2) := by
  grind [State.endRun, State.pilotLate_kept, State.updPart_kept]

theorem State.runLeaf_kept (x1) (x2) (h : Kept a s) :
    Kept a (State.runLeaf s x1 x2) := by
  unfold State.runLeaf
  repeat' split
  all_goals grind [State.markMig_kept, State.endRun_kept, State.updPart_kept]

theorem State.startStage_kept (x1) (x2) (x3) (x4) (h : Kept a s) :
    Kept a (State.startStage s x1 x2 x3 x4) := by
  grind [State.startStage, State.pilotDeadlines_kept, State.routeFlag_kept, State.runLeaf_kept, State.updPart_kept,
    State.touchTables_kept]

theorem State.releaseLeaf_kept (x1) (x2) (h : Kept a s) :
    Kept a (State.releaseLeaf s x1 x2) := by
  grind [State.releaseLeaf, State.setLeaf_kept, State.updPart_kept]

theorem State.returnRun_kept (x1) (x2) (h : Kept a s) :
    Kept a (State.returnRun s x1 x2) := by
  grind [State.returnRun, State.returnPage_kept]

theorem State.startRelease_kept (x1) (x2) (h : Kept a s) :
    Kept a (State.startRelease s x1 x2) := by
  grind [State.startRelease, State.releaseLeaf_kept, State.pilotLate_kept, State.updPart_kept, State.returnRun_kept,
    foldl_kept]

theorem State.runAll_kept (x1) (h : Kept a s) :
    Kept a (State.runAll s x1) := by
  grind [State.runAll, State.runLeaf_kept, foldl_kept]

theorem execPilotOccurrence_kept (x1) (h : Kept a s) :
    AnsKept a (execPilotOccurrence x1 s) := by
  grind [execPilotOccurrence, AnsKept, State.pilotDeadlines_kept, State.startRelease_kept, State.startStage_kept,
    State.runAll_kept, State.updPart_kept]

theorem State.homeRecord_kept (x1) (h : Kept a s) :
    Kept a (State.homeRecord s x1) := by
  unfold State.homeRecord
  dsimp only
  repeat' split
  all_goals grind [State.rawWrite_kept, State.tickFree_kept]

theorem State.stageDone_kept (x1) (x2) (h : Kept a s) :
    Kept a (State.stageDone s x1 x2) := by
  unfold State.stageDone
  extract_lets s0
  have h0 : Kept a s0 := State.pilotDeadlines_kept _ h
  clear_value s0
  split
  · exact h0
  · split
    · exact State.runLeaf_kept _ _ h0
    · extract_lets e fr b x s2
      split
      · exact h0
      · split
        · exact State.queueWake_kept _ h0
        · have h1 : Kept a x.1 := State.copyPage_kept _ _ _ _ _ h0
          clear_value x
          refine State.runAll_kept _ (foundGo_kept _ _ ?_)
          simp only [s2]
          split
          · exact State.updPart_kept (State.homeRecord_kept _ (State.setLeaf_kept _ _ _ _ _ _ h1)) _ _
          · exact State.updPart_kept (State.unmark_kept _ _ _ h1) _ _

theorem execPilotStageDone_kept (x1) (x2) (h : Kept a s) :
    AnsKept a (execPilotStageDone x1 x2 s) := by
  grind [execPilotStageDone, AnsKept, State.stageDone_kept]

theorem State.pilotOff_kept (x1) (h : Kept a s) :
    Kept a (State.pilotOff s x1) := by
  grind [State.pilotOff, State.pilotDeadlines_kept, State.releaseLeaf_kept, State.pilotLate_kept, State.updPart_kept,
    State.returnRun_kept, foldl_kept]

theorem State.strike_kept (x1) (h : Kept a s) :
    Kept a (State.strike s x1) := by
  unfold State.strike
  split
  · exact State.updTier_bytes_kept h _ fun _ => rfl
  · exact State.updCore_kept h _ _

theorem State.scrubLine_kept (x1) (x2) (x3) (x4) (h : Kept a s) :
    Kept a (State.scrubLine s x1 x2 x3 x4) := by
  have h1 : ∀ t, Kept a (if x3 = 0 then s
      else s.updTier t fun m => m.updLine x2 fun i => { i with err := x3 }) := fun t => by
    split
    · exact h
    · exact State.updTier_bytes_kept h _ fun _ => rfl
  unfold State.scrubLine
  extract_lets t s1 r s2
  have h2 : Kept a s2 := State.found_kept _ (State.senseLine_kept _ _ _ (h1 t))
  clear_value s2
  grind [State.updBdp_kept, State.updLpc_kept]

theorem execPatrolScrub_kept (x1) (x2) (x3) (x4) (x5) (h : Kept a s) :
    AnsKept a (execPatrolScrub x1 x2 x3 x4 x5 s) := by
  grind [execPatrolScrub, AnsKept, State.strike_kept, State.scrubLine_kept, foldl_kept]

theorem evtGo_kept (x1) (x2) (h : Kept a s) :
    Kept a (evtGo x1 x2 s) := by
  fun_induction evtGo <;> grind [State.waking_kept, State.updPart_kept, State.xwrite_kept]

theorem State.genEvents_kept (x1) (h : Kept a s) :
    Kept a (State.genEvents s x1) := by
  grind [State.genEvents, evtGo_kept]

theorem State.moveFrame_kept (x1) (x2) (x3) (x4) (x5) (x6) (h : Kept a s) :
    Kept a (State.moveFrame s x1 x2 x3 x4 x5 x6) := by
  grind [State.moveFrame, State.tickFree_kept, State.updGen_kept, State.copyPage_kept]

theorem State.moveWindow_kept (x1) (x2) (x3) (h : Kept a s) :
    Kept a (State.moveWindow s x1 x2 x3) := by
  grind [State.moveWindow, State.moveFrame_kept, foldl_kept]

theorem reclaimGo_kept (x1) (x2) (x3) (x4) (h : Kept a s) :
    Kept a (reclaimGo x1 x2 x3 x4 s) := by
  fun_induction reclaimGo <;> grind [State.moveWindow_kept, State.updGen_kept]

theorem State.reclaim_kept (x1) (x2) (x3) (h : Kept a s) :
    Kept a (State.reclaim s x1 x2 x3).1 := by
  grind [State.reclaim, reclaimGo_kept, State.updGen_kept]

theorem State.genTouch_kept (x1) (x2) (h : Kept a s) :
    Kept a (State.genTouch s x1 x2) := by
  grind [State.genTouch, State.touchTables_kept]

theorem State.genOn_kept (x1) (h : Kept a s) :
    Kept a (State.genOn s x1) := by
  unfold State.genOn
  dsimp only
  repeat' split
  all_goals grind [State.genTouch_kept, State.scramble_kept, State.kvClear_kept, State.updPart_kept,
    State.touchTables_kept, State.updGen_kept, State.peek_kept]

theorem State.genEnd_kept (x1) (h : Kept a s) :
    Kept a (State.genEnd s x1) := by
  grind [State.genEnd, State.kvClear_kept, State.updGen_kept, State.genEvents_kept, foldl_kept]

theorem State.genOff_kept (x1) (h : Kept a s) :
    Kept a (State.genOff s x1) := by
  grind [State.genOff, State.genEnd_kept, State.updPart_kept]

theorem State.genParkOn_kept (x1) (h : Kept a s) :
    Kept a (State.genParkOn s x1) := by
  grind [State.genParkOn, State.updPart_kept]

theorem State.genRekey_kept (x1) (h : Kept a s) :
    Kept a (State.genRekey s x1) := by
  grind [State.genRekey, State.updPart_kept, State.updGen_kept]

theorem State.genParkOff_kept (x1) (h : Kept a s) :
    Kept a (State.genParkOff s x1) := by
  grind [State.genParkOff, State.genRekey_kept, State.updPart_kept]

theorem State.genDoorbell_kept (x1) (x2) (x3) (h : Kept a s) :
    Kept a (State.genDoorbell s x1 x2 x3) := by
  grind [State.genDoorbell, State.eventP_kept, State.updPart_kept]

theorem State.nextEntry_kept (x1) (h : Kept a s) :
    ∀ t y, (State.nextEntry s x1) = .on (t, y) → Kept a t := by
  grind [State.nextEntry, State.tickFree_kept, State.xread_kept]

theorem State.onEntry_kept (x1) (x2) (x3) (x4) (h : Kept a s) (h4 : ∀ y0 y1, Kept a y0 → Kept a (x4 y0 y1)) :
    AnsKept a (State.onEntry s x1 x2 x3 x4) := by
  grind [State.onEntry, AnsKept, State.waking_kept, State.nextEntry_kept, State.updPart_kept, State.genEvents_kept]

theorem State.admitOne_kept (x1) (x2) (x3) (h : Kept a s) :
    Kept a (State.admitOne s x1 x2 x3) := by
  grind [State.admitOne, State.xwriteNow_kept, State.updGen_kept]

theorem State.reject_kept (x1) (x2) (x3) (x4) (h : Kept a s) :
    Kept a (State.reject s x1 x2 x3 x4) := by
  grind [State.reject, State.updGen_kept]

theorem State.admitFan_kept (x1) (x2) (x3) (x4) (x5) (h : Kept a s) :
    Kept a (State.admitFan s x1 x2 x3 x4 x5) := by
  unfold State.admitFan
  dsimp only
  grind [State.updGen_kept, State.admitOne_kept, foldl_kept]

theorem State.submit_kept (x1) (x2) (h : Kept a s) :
    Kept a (State.submit s x1 x2) := by
  unfold State.submit
  extract_lets g d fan P score ids
  split
  · exact State.reject_kept _ _ _ _ h
  · have hx := State.xread_kept (s.helmReq x1) (bVa x2 16) (4 * P) h
    split <;> rename_i heq <;> rw [heq] at hx
    · exact State.reject_kept _ _ _ _ hx
    · exact State.waking_kept h _
    · extract_lets prompt ws look s2 pinned r s3
      split
      · exact State.reject_kept _ _ _ _ hx
      · split
        · exact State.reject_kept _ _ _ _ hx
        · have h2 : Kept a s2 := by
            simp only [s2]
            split
            · exact State.eventP_kept _ _ _ hx
            · exact hx
          have hr : Kept a r.1 := State.reclaim_kept _ _ _ (State.updGen_kept _ _ h2)
          split
          · exact State.reject_kept _ _ _ _ h2
          · exact State.tickFree_kept (State.admitFan_kept _ _ _ _ _ (State.updGen_kept _ _ hr))

theorem execSubmit_kept (x1) (h : Kept a s) :
    AnsKept a (execSubmit x1 s) := by
  grind [execSubmit, AnsKept, State.waking_kept, State.submit_kept, State.nextEntry_kept, State.onEntry_kept,
    State.xread_kept]

theorem execCancel_kept (x1) (h : Kept a s) :
    AnsKept a (execCancel x1 s) := by
  grind [execCancel, AnsKept, State.onEntry_kept, State.updGen_kept]

theorem execPause_kept (x1) (h : Kept a s) :
    AnsKept a (execPause x1 s) := by
  grind [execPause, AnsKept, State.onEntry_kept, State.updGen_kept]

theorem execResume_kept (x1) (h : Kept a s) :
    AnsKept a (execResume x1 s) := by
  grind [execResume, AnsKept, State.onEntry_kept, State.updGen_kept]

theorem execPauseTimeout_kept (x1) (x2) (h : Kept a s) :
    AnsKept a (execPauseTimeout x1 x2 s) := by
  grind [execPauseTimeout, AnsKept, State.moveWindow_kept, State.updGen_kept]

theorem State.copyShared_kept (x1) (x2) (x3) (h : Kept a s) :
    Kept a (State.copyShared s x1 x2 x3) := by
  grind [State.copyShared, State.tickFree_kept, State.updGen_kept, State.copyPage_kept, foldl_kept]

theorem State.givePages_kept (x1) (x2) (h : Kept a s) :
    Kept a (State.givePages s x1 x2) := by
  unfold State.givePages
  dsimp only
  grind [State.tickFree_kept, State.copyShared_kept, State.updGen_kept, foldl_kept]

theorem State.prepare_kept (x1) (x2) (h : Kept a s) :
    Kept a (State.prepare s x1 x2) := by
  grind [State.prepare, State.reclaim_kept, State.givePages_kept, State.updGen_kept, foldl_kept]

theorem State.rejoin_kept (x1) (x2) (h : Kept a s) :
    Kept a (State.rejoin s x1 x2) := by
  grind [State.rejoin, State.moveWindow_kept, State.updGen_kept, foldl_kept]

theorem State.planStep_kept (x1) (x2) (h : Kept a s) :
    Kept a (State.planStep s x1 x2).1 := by
  grind [State.planStep, State.rejoin_kept, State.prepare_kept, State.updGen_kept]

theorem State.launch_kept (x1) (x2) (h : Kept a s) :
    ∀ t, (State.launch s x1 x2) = .on t → Kept a t := by
  grind [State.launch, tplGo_kept, State.updStep_kept, State.genSkip_kept, State.updPart_kept, State.xwrite_kept]

theorem execGenStepStart_kept (x1) (x2) (h : Kept a s) :
    AnsKept a (execGenStepStart x1 x2 s) := by
  have hp := State.planStep_kept x1.val x2 h
  have hg := State.genEvents_kept x1.val hp
  unfold execGenStepStart
  extract_lets x
  show Kept a _
  split_ifs
  · exact h
  · exact hg
  · exact State.updPart_kept h _ _
  · split
    · exact State.waking_kept h _
    · exact State.tickFree_kept (State.launch_kept _ _ hg _ ‹_›)

theorem State.genEvtHead_kept (x1) (x2) (h : Kept a s) :
    Kept a (State.genEvtHead s x1 x2) := by
  grind [State.genEvtHead, State.planStep_kept, State.updPart_kept, State.genEvents_kept]

theorem areasGo_kept (x1) (x2) (h : Kept a s) :
    Kept a (areasGo x1 x2 s).1 := by
  fun_induction areasGo <;> grind [State.xread_kept]

theorem State.outputs_kept (x1) (x2) (h : Kept a s) :
    Kept a (State.outputs s x1 x2).1 := by
  grind [State.outputs, areasGo_kept]

theorem rolloutGo_kept (x1) (x2) (x3) (x4) (h : Kept a s) :
    ∀ t, (rolloutGo x1 x2 x3 x4 s) = .on t → Kept a t := by
  fun_induction rolloutGo <;> grind [State.xwrite_kept]

theorem State.commitReq_kept (x1) (x2) (x3) (x4) (h : Kept a s) :
    ∀ t, (State.commitReq s x1 x2 x3 x4) = .on t → Kept a t := by
  unfold State.commitReq
  dsimp only
  grind [State.record_kept, State.tickFree_kept, rolloutGo_kept, State.updGen_kept]

theorem commitGo_kept (x1) (x2) (x3) (h : Kept a s) :
    ∀ t, (commitGo x1 x2 x3 s) = .on t → Kept a t := by
  fun_induction commitGo <;> grind [State.commitReq_kept]

theorem State.stepEnd_kept (x1) (h : Kept a s) :
    Kept a (State.stepEnd s x1) := by
  grind [State.stepEnd, State.genEnd_kept, State.genWeights_kept, State.updPart_kept, State.updGen_kept,
    State.genEvents_kept, foldl_kept]

theorem State.discard_kept (x1) (x2) (x3) (x4) (h : Kept a s) :
    Kept a (State.discard s x1 x2 x3 x4) := by
  grind [State.discard, State.eventP_kept, State.updPart_kept, State.updGen_kept, foldl_kept]

theorem execGenStepCommit_kept (x1) (h : Kept a s) :
    AnsKept a (execGenStepCommit x1 s) := by
  unfold execGenStepCommit
  extract_lets g
  show Kept a _
  split
  · exact h
  · split_ifs
    · exact h
    · exact State.stepEnd_kept _ h
    · split
      · exact State.stepEnd_kept _ (State.discard_kept _ _ _ _ h)
      · rename_i st _ _ _ _ _
        have ho := State.outputs_kept x1.val st h
        split <;> rename_i heq <;> rw [heq] at ho
        · exact State.waking_kept h _
        · exact State.stepEnd_kept _ (State.discard_kept _ _ _ _ ho)
        · split
          · exact State.waking_kept h _
          · rename_i hc
            exact State.stepEnd_kept _ (State.updPart_kept (commitGo_kept _ _ _ ho _ hc) _ _)

end Sys2Proof.Machine
end

