-- ==== Sys2Proof/Laws/KeepUnits.lean ====
section
/-! SUPPORT. What `Kept` says of the instructions of the cores, ATTEND and LOOM_MOVE. -/

namespace Sys2Proof.Machine

set_option maxRecDepth 4000
set_option Elab.async false

variable {a s : State}

theorem execStbind_kept (x1) (x2) (h : Kept a s) :
    AnsKept a (execStbind x1 x2 s) := by
  grind [execStbind, AnsKept, IResKept, State.issue_kept, State.unitOp_kept, State.updCore_kept]

theorem execStacc_kept (x1) (x2) (h : Kept a s) :
    AnsKept a (execStacc x1 x2 s) := by
  grind [execStacc, AnsKept, IResKept, State.issue_kept, State.unitOp_kept, State.updCore_kept]

theorem execStemit_kept (x1) (x2) (h : Kept a s) :
    AnsKept a (execStemit x1 x2 s) := by
  grind [execStemit, AnsKept, IResKept, State.issue_kept, State.unitOp_kept, State.updCore_kept]

theorem execStlp_kept (x1) (x2) (h : Kept a s) :
    AnsKept a (execStlp x1 x2 s) := by
  grind [execStlp, AnsKept, IResKept, State.issue_kept, State.unitOp_kept, State.updCore_kept]

theorem execAfdset_kept (x1) (x2) (h : Kept a s) :
    AnsKept a (execAfdset x1 x2 s) := by
  grind [execAfdset, AnsKept, IResKept, State.seqOp_kept, State.issue_kept, State.updCore_kept]

theorem execAmm_kept (x1) (x2) (h : Kept a s) :
    AnsKept a (execAmm x1 x2 s) := by
  unfold execAmm
  dsimp only
  grind [AnsKept, IResKept, State.issue_kept, State.unitOp_kept, State.updCore_kept, State.tickFree_kept]

theorem execAdrain_kept (x1) (x2) (h : Kept a s) :
    AnsKept a (execAdrain x1 x2 s) := by
  grind [execAdrain, AnsKept, IResKept, State.issue_kept, State.unitOp_kept, State.updCore_kept, State.tickFree_kept]

theorem State.vecOp_kept (x1) (x2) (x3) (x4) (x5) (h : Kept a s) :
    IResKept a (State.vecOp s x1 x2 x3 x4 x5) := by
  grind [State.vecOp, IResKept, State.unitOp_kept, State.updCore_kept]

theorem execVadd_kept (x1) (x2) (h : Kept a s) :
    AnsKept a (execVadd x1 x2 s) := by
  grind [execVadd, AnsKept, IResKept, State.issue_kept, State.vecOp_kept]

theorem execVsub_kept (x1) (x2) (h : Kept a s) :
    AnsKept a (execVsub x1 x2 s) := by
  grind [execVsub, AnsKept, IResKept, State.issue_kept, State.vecOp_kept]

theorem execVmul_kept (x1) (x2) (h : Kept a s) :
    AnsKept a (execVmul x1 x2 s) := by
  grind [execVmul, AnsKept, IResKept, State.issue_kept, State.vecOp_kept]

theorem execVfma_kept (x1) (x2) (h : Kept a s) :
    AnsKept a (execVfma x1 x2 s) := by
  grind [execVfma, AnsKept, IResKept, State.issue_kept, State.vecOp_kept]

theorem execVmin_kept (x1) (x2) (h : Kept a s) :
    AnsKept a (execVmin x1 x2 s) := by
  grind [execVmin, AnsKept, IResKept, State.issue_kept, State.vecOp_kept]

theorem execVmax_kept (x1) (x2) (h : Kept a s) :
    AnsKept a (execVmax x1 x2 s) := by
  grind [execVmax, AnsKept, IResKept, State.issue_kept, State.vecOp_kept]

theorem execVcmp_kept (x1) (x2) (h : Kept a s) :
    AnsKept a (execVcmp x1 x2 s) := by
  grind [execVcmp, AnsKept, IResKept, State.issue_kept, State.vecOp_kept]

theorem execVsel_kept (x1) (x2) (h : Kept a s) :
    AnsKept a (execVsel x1 x2 s) := by
  grind [execVsel, AnsKept, IResKept, State.issue_kept, State.vecOp_kept]

theorem execVmov_kept (x1) (x2) (h : Kept a s) :
    AnsKept a (execVmov x1 x2 s) := by
  grind [execVmov, AnsKept, IResKept, State.issue_kept, State.vecOp_kept]

theorem State.vecFun_kept (x1) (x2) (x3) (h : Kept a s) :
    IResKept a (State.vecFun s x1 x2 x3) := by
  grind [State.vecFun, IResKept, State.vecOp_kept]

theorem execVexp2_kept (x1) (x2) (h : Kept a s) :
    AnsKept a (execVexp2 x1 x2 s) := by
  grind [execVexp2, AnsKept, IResKept, State.vecFun_kept, State.issue_kept]

theorem execVlog2_kept (x1) (x2) (h : Kept a s) :
    AnsKept a (execVlog2 x1 x2 s) := by
  grind [execVlog2, AnsKept, IResKept, State.vecFun_kept, State.issue_kept]

theorem execVrsqrt_kept (x1) (x2) (h : Kept a s) :
    AnsKept a (execVrsqrt x1 x2 s) := by
  grind [execVrsqrt, AnsKept, IResKept, State.vecFun_kept, State.issue_kept]

theorem execVrcp_kept (x1) (x2) (h : Kept a s) :
    AnsKept a (execVrcp x1 x2 s) := by
  grind [execVrcp, AnsKept, IResKept, State.vecFun_kept, State.issue_kept]

theorem execVtanh_kept (x1) (x2) (h : Kept a s) :
    AnsKept a (execVtanh x1 x2 s) := by
  grind [execVtanh, AnsKept, IResKept, State.vecFun_kept, State.issue_kept]

theorem execVsig_kept (x1) (x2) (h : Kept a s) :
    AnsKept a (execVsig x1 x2 s) := by
  grind [execVsig, AnsKept, IResKept, State.vecFun_kept, State.issue_kept]

theorem execVgelu_kept (x1) (x2) (h : Kept a s) :
    AnsKept a (execVgelu x1 x2 s) := by
  grind [execVgelu, AnsKept, IResKept, State.vecFun_kept, State.issue_kept]

theorem State.redOp_kept (x1) (x2) (x3) (h : Kept a s) :
    IResKept a (State.redOp s x1 x2 x3) := by
  grind [State.redOp, IResKept, State.unitOp_kept, State.updCore_kept]

theorem execRsum_kept (x1) (x2) (h : Kept a s) :
    AnsKept a (execRsum x1 x2 s) := by
  grind [execRsum, AnsKept, IResKept, State.issue_kept, State.redOp_kept]

theorem execRmax_kept (x1) (x2) (h : Kept a s) :
    AnsKept a (execRmax x1 x2 s) := by
  grind [execRmax, AnsKept, IResKept, State.issue_kept, State.redOp_kept]

theorem execRmin_kept (x1) (x2) (h : Kept a s) :
    AnsKept a (execRmin x1 x2 s) := by
  grind [execRmin, AnsKept, IResKept, State.issue_kept, State.redOp_kept]

theorem State.bcastOp_kept (x1) (x2) (x3) (h : Kept a s) :
    IResKept a (State.bcastOp s x1 x2 x3) := by
  grind [State.bcastOp, IResKept, State.unitOp_kept, State.updCore_kept]

theorem execBadd_kept (x1) (x2) (h : Kept a s) :
    AnsKept a (execBadd x1 x2 s) := by
  grind [execBadd, AnsKept, IResKept, State.issue_kept, State.bcastOp_kept]

theorem execBsub_kept (x1) (x2) (h : Kept a s) :
    AnsKept a (execBsub x1 x2 s) := by
  grind [execBsub, AnsKept, IResKept, State.issue_kept, State.bcastOp_kept]

theorem execBmul_kept (x1) (x2) (h : Kept a s) :
    AnsKept a (execBmul x1 x2 s) := by
  grind [execBmul, AnsKept, IResKept, State.issue_kept, State.bcastOp_kept]

theorem execBmax_kept (x1) (x2) (h : Kept a s) :
    AnsKept a (execBmax x1 x2 s) := by
  grind [execBmax, AnsKept, IResKept, State.issue_kept, State.bcastOp_kept]

theorem execBmin_kept (x1) (x2) (h : Kept a s) :
    AnsKept a (execBmin x1 x2 s) := by
  grind [execBmin, AnsKept, IResKept, State.issue_kept, State.bcastOp_kept]

theorem execVld_kept (x1) (x2) (h : Kept a s) :
    AnsKept a (execVld x1 x2 s) := by
  grind [execVld, AnsKept, IResKept, State.issue_kept, State.unitOp_kept, State.updCore_kept, State.tickFree_kept]

theorem execVst_kept (x1) (x2) (h : Kept a s) :
    AnsKept a (execVst x1 x2 s) := by
  grind [execVst, AnsKept, IResKept, State.issue_kept, State.unitOp_kept, State.scrStore_kept]

theorem execVvop_kept (x1) (x2) (h : Kept a s) :
    AnsKept a (execVvop x1 x2 s) := by
  grind [execVvop, AnsKept, IResKept, State.issue_kept, State.unitOp_kept, State.updCore_kept]

theorem execVext_kept (x1) (x2) (h : Kept a s) :
    AnsKept a (execVext x1 x2 s) := by
  grind [execVext, AnsKept, IResKept, State.issue_kept, State.unitOp_kept, State.updCore_kept]

theorem execVins_kept (x1) (x2) (h : Kept a s) :
    AnsKept a (execVins x1 x2 s) := by
  grind [execVins, AnsKept, IResKept, State.issue_kept, State.unitOp_kept, State.updCore_kept]

theorem execCvst_kept (x1) (x2) (h : Kept a s) :
    AnsKept a (execCvst x1 x2 s) := by
  grind [execCvst, AnsKept, IResKept, State.issue_kept, State.unitOp_kept, State.updCore_kept, State.scrStore_kept]

theorem execCvld_kept (x1) (x2) (h : Kept a s) :
    AnsKept a (execCvld x1 x2 s) := by
  grind [execCvld, AnsKept, IResKept, State.issue_kept, State.unitOp_kept, State.updCore_kept, State.tickFree_kept]

theorem execCvt_kept (x1) (x2) (h : Kept a s) :
    AnsKept a (execCvt x1 x2 s) := by
  grind [execCvt, AnsKept, IResKept, State.issue_kept, State.unitOp_kept, State.updCore_kept]

theorem execCvctx_kept (x1) (x2) (h : Kept a s) :
    AnsKept a (execCvctx x1 x2 s) := by
  grind [execCvctx, AnsKept, IResKept, State.issue_kept, State.unitOp_kept, State.updCore_kept]

theorem State.readBatch_kept (x1) (x2) (h : Kept a s) :
    Kept a (State.readBatch s x1 x2).1 := by
  grind [State.readBatch, State.xread_kept]

theorem State.endRows_kept (x1) (x2) (x3) (x4) (h : Kept a s) (h4 : Kept a x4.1) :
    Kept a (State.endRows s x1 x2 x3 x4) := by
  unfold State.endRows
  dsimp only
  grind [State.waking_kept, State.scramble_kept, State.finish_kept, foldl_kept]

theorem State.ownRead_kept (x1) (x2) (x3) (x4) (h : Kept a s) :
    Kept a (State.ownRead s x1 x2 x3 x4).1 := by
  grind [State.ownRead, State.xread_kept]

theorem State.attendProfile_kept (x1) (x2) (h : Kept a s) :
    Kept a (State.attendProfile s x1 x2).1 := by
  grind [State.attendProfile, State.xread_kept]

theorem appendGo_kept (x1) (x2) (x3) (x4) (x5) (h : Kept a s) :
    Kept a (appendGo x1 x2 x3 x4 x5 s).1 := by
  fun_induction appendGo <;> grind [State.cmdWrite_kept, State.xread_kept]

theorem cacheGo_kept (x1) (x2) (x3) (x4) (h : Kept a s) :
    Kept a (cacheGo x1 x2 x3 x4 s).1 := by
  fun_induction cacheGo <;> grind [State.ownRead_kept]

theorem State.attendHead_kept (x1) (x2) (x3) (x4) (x5) (x6) (x7) (h : Kept a s) :
    Kept a (State.attendHead s x1 x2 x3 x4 x5 x6 x7).1 := by
  unfold State.attendHead
  dsimp only
  repeat' split
  all_goals grind [State.tickFree_kept, State.cmdWrite_kept, State.xread_kept, cacheGo_kept]

theorem attendGo_kept (x1) (x2) (x3) (x4) (x5) (h : Kept a s) :
    Kept a (attendGo x1 x2 x3 x4 x5 s).1 := by
  fun_induction attendGo <;> grind [State.attendHead_kept]

theorem State.runAttend_kept (x1) (x2) (h : Kept a s) :
    Kept a (State.runAttend s x1 x2) := by
  unfold State.runAttend
  dsimp only
  repeat' split
  all_goals grind [State.endRows_kept, appendGo_kept, State.readBatch_kept, State.attendProfile_kept, attendGo_kept]

theorem execAttend_kept (x1) (x2) (x3) (h : Kept a s) :
    AnsKept a (execAttend x1 x2 x3 s) := by
  grind [execAttend, AnsKept, State.runAttend_kept, State.onCmd_kept]

theorem sampleGo_kept (x1) (x2) (x3) (x4) (h : Kept a s) :
    Kept a (sampleGo x1 x2 x3 x4 s).1 := by
  fun_induction sampleGo <;> grind [State.cmdWrite_kept, State.xread_kept]

theorem State.runSample_kept (x1) (x2) (h : Kept a s) :
    Kept a (State.runSample s x1 x2) := by
  grind [State.runSample, sampleGo_kept, State.endRows_kept, State.readBatch_kept, State.tickFree_kept]

theorem execSample_kept (x1) (x2) (x3) (h : Kept a s) :
    AnsKept a (execSample x1 x2 x3 s) := by
  grind [execSample, AnsKept, State.runSample_kept, State.onCmd_kept]

theorem verdictGo_kept (x1) (x2) (x3) (h : Kept a s) :
    Kept a (verdictGo x1 x2 x3 s).1 := by
  fun_induction verdictGo <;> grind [State.cmdWrite_kept]

theorem tokensGo_kept (x1) (x2) (x3) (h : Kept a s) :
    Kept a (tokensGo x1 x2 x3 s).1 := by
  fun_induction tokensGo <;> grind [State.xread_kept]

theorem State.runVerify_kept (x1) (x2) (h : Kept a s) :
    Kept a (State.runVerify s x1 x2) := by
  unfold State.runVerify
  repeat' split
  all_goals grind [State.endRows_kept, verdictGo_kept, State.readBatch_kept, tokensGo_kept]

theorem execVerifyHeads_kept (x1) (x2) (x3) (h : Kept a s) :
    AnsKept a (execVerifyHeads x1 x2 x3 s) := by
  grind [execVerifyHeads, AnsKept, State.runVerify_kept, State.onCmd_kept]

theorem State.loomWrite_kept (x1) (x2) (x3) (h : Kept a s) :
    Kept a (State.loomWrite s x1 x2 x3).1 := by
  grind [State.loomWrite, State.loomWrote_kept, State.xwrite_kept, foldl_kept]

theorem loomWrites_kept (x1) (x2) (h : Kept a s) :
    Kept a (loomWrites x1 x2 s).1 := by
  fun_induction loomWrites <;> grind [State.loomWrite_kept]

theorem State.bitsOf_kept (x1) (x2) (x3) (x4) (x5) (h : Kept a s) :
    Kept a (State.bitsOf s x1 x2 x3 x4 x5).1 := by
  grind [State.bitsOf, State.xread_kept]

theorem State.layoutElem_kept (x1) (x2) (x3) (x4) (h : Kept a s) :
    Kept a (State.layoutElem s x1 x2 x3 x4).1 := by
  grind [State.layoutElem, State.xread_kept, State.bitsOf_kept]

theorem unitGo_kept (x1) (x2) (x3) (x4) (x5) (h : Kept a s) :
    Kept a (unitGo x1 x2 x3 x4 s x5).1 := by
  fun_induction unitGo <;> grind [State.layoutElem_kept]

theorem State.readUnit_kept (x1) (x2) (x3) (x4) (h : Kept a s) :
    Kept a (State.readUnit s x1 x2 x3 x4).1 := by
  grind [State.readUnit, unitGo_kept]

theorem State.askUnit_kept (x1) (x2) (x3) (x4) (x5) (h : Kept a s) :
    Kept a (State.askUnit s x1 x2 x3 x4 x5) := by
  grind [State.askUnit, State.sendTo_kept]

theorem ownGo_kept (x1) (x2) (x3) (x4) (x5) (x6) (x7) (h : Kept a s) :
    Kept a (ownGo x1 x2 x3 x4 x5 x6 s x7).1 := by
  fun_induction ownGo <;> grind [State.waking_kept, State.readUnit_kept, State.askUnit_kept, foldl_kept]

theorem loomRead_kept (x1) (x2) (x3) (x4) (h : Kept a s) :
    Kept a (loomRead x1 x2 x3 s x4).1 := by
  fun_induction loomRead <;> grind [ownGo_kept]

theorem serveGo_kept (x1) (x2) (x3) (x4) (x5) (h : Kept a s) :
    Kept a (serveGo x1 x2 x3 s x4 x5).1 := by
  fun_induction serveGo <;> grind [State.waking_kept, State.readUnit_kept, State.askUnit_kept]

theorem State.sendElems_kept (x1) (x2) (h : Kept a s) :
    Kept a (State.sendElems s x1 x2) := by
  grind [State.sendElems, State.sendTo_kept]

theorem State.loomDone_kept (x1) (x2) (x3) (x4) (h : Kept a s) :
    Kept a (State.loomDone s x1 x2 x3 x4) := by
  grind [State.loomDone, State.updCmd_kept, State.finish_kept]

theorem State.loomWriteAll_kept (x1) (x2) (x3) (h : Kept a s) :
    Kept a (State.loomWriteAll s x1 x2 x3) := by
  grind [State.loomWriteAll, State.waking_kept, loomWrites_kept, State.sendOthers_kept, State.loomDone_kept,
    State.missGroup_kept]

theorem State.loomStep_kept (x1) (x2) (h : Kept a s) :
    Kept a (State.loomStep s x1 x2) := by
  unfold State.loomStep
  repeat' split
  all_goals grind [State.updCmd_kept, serveGo_kept, State.sendElems_kept, loomRead_kept, State.endGroup_kept,
    State.missGroup_kept, State.loomsAct_kept, State.loomWriteAll_kept, foldl_kept]

theorem rangeGo_kept (x1) (x2) (x3) (h : Kept a s) :
    Kept a (rangeGo x1 x2 x3 s).1 := by
  fun_induction rangeGo <;> grind [State.eventP_kept, State.found_kept, State.senseLeaf_kept]

theorem State.rangeCheck_kept (x1) (x2) (x3) (h : Kept a s) :
    Kept a (State.rangeCheck s x1 x2 x3).1 := by
  grind [State.rangeCheck, rangeGo_kept]

theorem State.loomOpen_kept (x1) (x2) (h : Kept a s) :
    Kept a (State.loomOpen s x1 x2).1 := by
  unfold State.loomOpen
  dsimp only
  repeat' split
  all_goals grind [State.xread_kept, State.rangeCheck_kept]

theorem State.startLoom_kept (x1) (x2) (h : Kept a s) :
    Kept a (State.startLoom s x1 x2) := by
  grind [State.startLoom, State.updCmd_kept, State.waking_kept, State.finish_kept, State.loomsTake_kept,
    State.loomOpen_kept, State.loomStep_kept]

theorem execLoomMove_kept (x1) (x2) (x3) (h : Kept a s) :
    AnsKept a (execLoomMove x1 x2 x3 s) := by
  grind [execLoomMove, AnsKept, State.startLoom_kept]

theorem State.loomRetry_kept (x1) (h : Kept a s) :
    Kept a (State.loomRetry s x1) := by
  grind [State.loomRetry, State.loomStep_kept, foldl_kept]

end Sys2Proof.Machine
end

