-- ==== Sys2Proof/Laws/KeepLinks.lean ====
section
/-! SUPPORT. What `Kept` says of LOAD, the collectives, the links, UPDATE, ABORT and the resets. -/

namespace Sys2Proof.Machine

set_option maxRecDepth 4000
set_option Elab.async false

variable {a s : State}

theorem State.readManifest_kept (x1) (x2) (x3) (h : Kept a s) :
    Kept a (State.readManifest s x1 x2 x3).1 := by
  unfold State.readManifest
  dsimp only
  repeat' split
  all_goals grind [State.touchTables_kept, State.xread_kept]

theorem State.failWeight_kept (x1) (x2) (x3) (x4) (x5) (h : Kept a s) :
    Kept a (State.failWeight s x1 x2 x3 x4 x5) := by
  grind [State.failWeight, State.finish_kept, State.tickFree_kept]

theorem State.startLoad_kept (x1) (x2) (h : Kept a s) :
    Kept a (State.startLoad s x1 x2) := by
  grind [State.startLoad, State.updCmd_kept, State.waking_kept, State.updSet_kept, State.readManifest_kept,
    State.finish_kept, State.loomsTake_kept, State.failWeight_kept]

theorem execLoad_kept (x1) (x2) (x3) (h : Kept a s) :
    AnsKept a (execLoad x1 x2 x3 s) := by
  grind [execLoad, AnsKept, State.onNew_kept, State.startLoad_kept]

theorem State.updLoad_kept (x1) (x2) (x3) (h : Kept a s) :
    Kept a (State.updLoad s x1 x2 x3) := by
  grind [State.updLoad, State.updCmd_kept]

theorem State.loadSettle_kept (x1) (x2) (h : Kept a s) :
    Kept a (State.loadSettle s x1 x2) := by
  grind [State.loadSettle, State.updSet_kept, State.endGroup_kept, State.finish_kept]

theorem State.loadReport_kept (x1) (x2) (x3) (x4) (x5) (h : Kept a s) :
    Kept a (State.loadReport s x1 x2 x3 x4 x5) := by
  grind [State.loadReport, State.sendOthers_kept, State.loadSettle_kept, State.updLoad_kept]

theorem State.loadFailOwn_kept (x1) (x2) (x3) (x4) (x5) (h : Kept a s) :
    Kept a (State.loadFailOwn s x1 x2 x3 x4 x5) := by
  grind [State.loadFailOwn, State.updLoad_kept, State.loadReport_kept]

theorem State.loadTake_kept (x1) (x2) (x3) (x4) (x5) (x6) (h : Kept a s) :
    ∀ t, (State.loadTake s x1 x2 x3 x4 x5 x6) = .on t → Kept a t := by
  unfold State.loadTake
  repeat' split
  all_goals grind [State.sendTo_kept, loomWrites_kept, State.updLoad_kept, State.loadFailOwn_kept, State.xwrite_kept]

theorem loadDigests_kept (x1) (x2) (x3) (h : Kept a s) :
    Kept a (loadDigests x1 x2 x3 s) := by
  fun_induction loadDigests <;> grind [State.waking_kept, State.updLoad_kept, State.loadFailOwn_kept, State.xread_kept]

theorem State.loadCheck_kept (x1) (x2) (h : Kept a s) :
    Kept a (State.loadCheck s x1 x2) := by
  grind [State.loadCheck, State.loadReport_kept, loadDigests_kept]

theorem State.headChunk_kept (x1) (x2) (x3) (x4) (h : Kept a s) :
    Kept a (State.headChunk s x1 x2 x3 x4).1 := by
  grind [State.headChunk, State.xread_kept]

theorem headGo_kept (x1) (x2) (x3) (h : Kept a s) :
    Kept a (headGo x1 x2 x3 s) := by
  induction x3 generalizing s with
  | nil =>
    unfold headGo
    split
    · exact h
    · extract_lets s1
      refine State.loadCheck_kept _ _ (State.updLoad_kept _ _ _ ?_)
      simp only [s1]
      split_ifs
      · exact State.sendTo_kept _ _ _ _ _ h
      · exact h
  | cons x xs ih =>
    unfold headGo
    split
    · exact h
    · rename_i l _
      split_ifs
      · exact h
      · have hc := State.headChunk_kept x1 l x.1 x.2 h
        split <;> rename_i heq <;> rw [heq] at hc
        · exact State.waking_kept h _
        · exact State.loadFailOwn_kept _ _ _ _ _ hc
        · split
          · exact State.waking_kept h _
          · exact ih (State.updLoad_kept _ _ _ (State.loadTake_kept _ _ _ _ _ _ hc _ ‹_›))

theorem State.onLoad_kept (x1) (x2) (x3) (x4) (h : Kept a s) (h4 : ∀ y0 y1, Kept a (x4 y0 y1)) :
    AnsKept a (State.onLoad s x1 x2 x3 x4) := by
  grind [State.onLoad, AnsKept]

theorem State.takeLoadChunk_kept (x1) (x2) (x3) (x4) (x5) (x6) (h : Kept a s) :
    Kept a (State.takeLoadChunk s x1 x2 x3 x4 x5 x6) := by
  have ha := State.loomsAct_kept x1 (s.cmdNow x1 x2) h
  have hl := State.loadTake_kept x1 x2 x3 x4 x5 x6 ha
  unfold State.takeLoadChunk
  split
  · exact h
  · split
    · exact h
    · extract_lets me keep
      split_ifs
      · exact h
      · exact State.updLoad_kept _ _ _ h
      · split
        · exact State.updLoad_kept _ _ _ (State.waking_kept h _)
        · exact State.loadCheck_kept _ _ (hl _ ‹_›)
      · exact State.sendTo_kept _ _ _ _ _ (State.updLoad_kept _ _ _ h)
      · exact State.updLoad_kept _ _ _ h

theorem State.takeLoadEnd_kept (x1) (x2) (h : Kept a s) :
    Kept a (State.takeLoadEnd s x1 x2) := by
  grind [State.takeLoadEnd, State.sendTo_kept, State.updLoad_kept, State.loadCheck_kept]

theorem State.loadInbox_kept (x1) (x2) (h : Kept a s) :
    Kept a (State.loadInbox s x1 x2) := by
  grind [State.loadInbox, State.updLoad_kept, State.takeLoadChunk_kept, foldl_kept]

theorem State.loadStep_kept (x1) (x2) (h : Kept a s) :
    Kept a (State.loadStep s x1 x2) := by
  grind [State.loadStep, State.loomsAct_kept, headGo_kept, State.loadInbox_kept]

theorem State.loadBegin_kept (x1) (x2) (h : Kept a s) :
    Kept a (State.loadBegin s x1 x2) := by
  grind [State.loadBegin, State.updLoad_kept, State.loadStep_kept, State.takeLoadChunk_kept, State.takeLoadEnd_kept,
    foldl_kept]

theorem State.loadEarly_kept (x1) (x2) (x3) (x4) (h : Kept a s) :
    Kept a (State.loadEarly s x1 x2 x3 x4) := by
  grind [State.loadEarly, State.updLoad_kept]

theorem execLoadChunk_kept (x1) (x2) (x3) (x4) (x5) (x6) (x7) (h : Kept a s) :
    AnsKept a (execLoadChunk x1 x2 x3 x4 x5 x6 x7 s) := by
  grind [execLoadChunk, AnsKept, State.loadEarly_kept, State.onLoad_kept, State.takeLoadChunk_kept]

theorem execLoadEnd_kept (x1) (x2) (x3) (h : Kept a s) :
    AnsKept a (execLoadEnd x1 x2 x3 s) := by
  grind [execLoadEnd, AnsKept, State.loadEarly_kept, State.onLoad_kept, State.takeLoadEnd_kept]

theorem execLoadRerequest_kept (x1) (x2) (x3) (x4) (x5) (h : Kept a s) :
    AnsKept a (execLoadRerequest x1 x2 x3 x4 x5 s) := by
  grind [execLoadRerequest, AnsKept, State.sendTo_kept, State.waking_kept, State.onLoad_kept, State.xread_kept,
    State.headChunk_kept]

theorem execLoadDeadline_kept (x1) (x2) (x3) (h : Kept a s) :
    AnsKept a (execLoadDeadline x1 x2 x3 s) := by
  grind [execLoadDeadline, AnsKept, State.updLoad_kept, State.loadCheck_kept, State.onLoad_kept, State.loadFailOwn_kept]

theorem execLoadFail_kept (x1) (x2) (x3) (x4) (x5) (x6) (h : Kept a s) :
    AnsKept a (execLoadFail x1 x2 x3 x4 x5 x6 s) := by
  grind [execLoadFail, AnsKept, State.loadSettle_kept, State.updLoad_kept, State.loadReport_kept, State.onLoad_kept]

theorem execLoadSuccess_kept (x1) (x2) (x3) (x4) (h : Kept a s) :
    AnsKept a (execLoadSuccess x1 x2 x3 x4 s) := by
  grind [execLoadSuccess, AnsKept, State.loadSettle_kept, State.updLoad_kept, State.onLoad_kept]

theorem State.finishOpen_kept (x1) (x2) (x3) (x4) (x5) (h : Kept a s) :
    Kept a (State.finishOpen s x1 x2 x3 x4 x5) := by
  grind [State.finishOpen, State.finish_kept, State.tickFree_kept]

theorem adoptGo_kept (x1) (x2) (x3) (x4) (x5) (h : Kept a s) :
    Kept a (adoptGo x1 x2 x3 x4 x5 s).1 := by
  induction x4 generalizing s x5 with
  | nil => exact h
  | cons j js ih =>
    unfold adoptGo
    extract_lets va
    have hx := State.xread_kept ⟨x1, s.loomFor x1 va⟩ va (chunkLen x2 x3) h
    split <;> rename_i heq <;> rw [heq] at hx
    · exact hx
    · exact hx
    · split_ifs
      · exact ih _ hx
      · exact hx

theorem adoptAll_kept (x1) (x2) (x3) (x4) (x5) (h : Kept a s) :
    ∀ t, (adoptAll x1 x2 x3 x4 x5 s) = .on t → Kept a t := by
  fun_induction adoptAll <;> grind [State.finishOpen_kept, State.updSet_kept, State.loomWrite_kept,
    State.finish_kept, adoptGo_kept, State.emptySet_kept]

theorem State.startAdopt_kept (x1) (x2) (h : Kept a s) :
    Kept a (State.startAdopt s x1 x2) := by
  unfold State.startAdopt
  extract_lets w
  split_ifs
  · exact State.failWeight_kept _ _ _ _ _ h
  · have hm := State.readManifest_kept x1 x2 false h
    split <;> rename_i heq <;> rw [heq] at hm
    · exact State.waking_kept h _
    · exact State.finish_kept _ _ _ hm
    · exact State.failWeight_kept _ _ _ _ _ hm
    · extract_lets s1 order s2
      split
      · exact h
      · have h2 : Kept a s2 := State.loomsTake_kept _ _ _ (State.updSet_kept _ _ _ hm)
        split
        · exact adoptAll_kept _ _ _ _ _ (State.loomsAct_kept _ _ h2) _ ‹_›
        · exact State.waking_kept h _

theorem execAdopt_kept (x1) (x2) (x3) (h : Kept a s) :
    AnsKept a (execAdopt x1 x2 x3 s) := by
  grind [execAdopt, AnsKept, State.onNew_kept, State.startAdopt_kept]

theorem execRetire_kept (x1) (x2) (x3) (h : Kept a s) :
    AnsKept a (execRetire x1 x2 x3 s) := by
  grind [execRetire, AnsKept, State.finishOpen_kept, State.updSet_kept, State.onNew_kept, State.emptySet_kept,
    State.failWeight_kept]

theorem State.srcBits_kept (x1) (x2) (x3) (x4) (h : Kept a s) :
    Kept a (State.srcBits s x1 x2 x3 x4).1 := by
  grind [State.srcBits, State.xread_kept]

theorem elocGo_kept (x1) (x2) (x3) (x4) (x5) (h : Kept a s) :
    Kept a (elocGo x1 x2 x3 x4 s x5).1 := by
  fun_induction elocGo <;> grind [State.srcBits_kept]

theorem State.elocs_kept (x1) (x2) (x3) (h : Kept a s) :
    Kept a (State.elocs s x1 x2 x3).1 := by
  grind [State.elocs, elocGo_kept]

theorem State.updColl_kept (x1) (x2) (x3) (h : Kept a s) :
    Kept a (State.updColl s x1 x2 x3) := by
  grind [State.updColl, State.updCmd_kept]

theorem State.dstWrite_kept (x1) (x2) (x3) (x4) (h : Kept a s) :
    Kept a (State.dstWrite s x1 x2 x3 x4).1 := by
  grind [State.dstWrite, State.scrStore_kept, State.xread_kept, State.xwrite_kept]

theorem creditGo_kept (x1) (x2) (x3) (h : Kept a s) :
    Kept a (creditGo x1 x2 x3 s) := by
  fun_induction creditGo <;> grind [State.updCore_kept, State.updColl_kept, State.tickFree_kept]

theorem State.chunkWritten_kept (x1) (x2) (x3) (h : Kept a s) :
    Kept a (State.chunkWritten s x1 x2 x3) := by
  grind [State.chunkWritten, State.updColl_kept, creditGo_kept]

theorem State.restage_kept (x1) (x2) (x3) (h : Kept a s) :
    Kept a (State.restage s x1 x2 x3) := by
  grind [State.restage, State.updColl_kept]

theorem State.stageRunsAt_kept (x1) (x2) (x3) (x4) (h : Kept a s) :
    Kept a (State.stageRunsAt s x1 x2 x3 x4) := by
  grind [State.stageRunsAt, State.scrStore_kept]

theorem State.stagePartial_kept (x1) (x2) (x3) (x4) (x5) (h : Kept a s) :
    Kept a (State.stagePartial s x1 x2 x3 x4 x5) := by
  grind [State.stagePartial, State.stageRunsAt_kept, State.updColl_kept, State.restage_kept]

theorem allToAllGo_kept (x1) (x2) (x3) (x4) (x5) (h : Kept a s) :
    Kept a (allToAllGo x1 x2 x3 x4 x5 s).1 := by
  fun_induction allToAllGo <;> grind [State.sendTo_kept, State.srcBits_kept, State.dstWrite_kept]

theorem State.ownChunk_kept (x1) (x2) (x3) (h : Kept a s) :
    Kept a (State.ownChunk s x1 x2 x3).1 := by
  unfold State.ownChunk
  dsimp only
  repeat' split
  all_goals grind [State.sendOthers_kept, State.stageRunsAt_kept, State.updColl_kept, allToAllGo_kept,
    State.srcBits_kept, State.stagePartial_kept, State.dstWrite_kept]

theorem collSendGo_kept (x1) (x2) (x3) (h : Kept a s) :
    Kept a (collSendGo x1 x2 x3 s) := by
  fun_induction collSendGo <;> grind [State.waking_kept, State.missGroup_kept, State.ownChunk_kept]

theorem State.collFlag_kept (x1) (x2) (h : Kept a s) :
    Kept a (State.collFlag s x1 x2) := by
  grind [State.collFlag, State.sendOthers_kept, State.updColl_kept]

theorem collWriteGo_kept (x1) (x2) (x3) (h : Kept a s) :
    Kept a (collWriteGo x1 x2 x3 s) := by
  fun_induction collWriteGo <;> grind [State.waking_kept, State.missGroup_kept, State.chunkWritten_kept,
    State.restage_kept, State.dstWrite_kept]

theorem State.collCommit_kept (x1) (x2) (h : Kept a s) :
    Kept a (State.collCommit s x1 x2) := by
  unfold State.collCommit
  dsimp only
  repeat' split
  all_goals grind [State.waking_kept, State.updColl_kept, State.missGroup_kept, State.finish_kept, State.xwrite_kept]

theorem State.commitAcked_kept (h : Kept a s) :
    Kept a (State.commitAcked s) := by
  grind [State.commitAcked, State.collCommit_kept, foldl_kept]

theorem State.sendBatch_kept (x1) (x2) (x3) (h : Kept a s) :
    Kept a (State.sendBatch s x1 x2 x3) := by
  grind [State.sendBatch, State.waking_kept, State.sendOthers_kept, State.elocs_kept, State.missGroup_kept]

theorem State.takePartial_kept (x1) (x2) (x3) (x4) (x5) (x6) (h : Kept a s) :
    Kept a (State.takePartial s x1 x2 x3 x4 x5 x6) := by
  grind [State.takePartial, State.updColl_kept, State.stagePartial_kept]

theorem State.takeChunk_kept (x1) (x2) (x3) (x4) (h : Kept a s) :
    Kept a (State.takeChunk s x1 x2 x3 x4) := by
  unfold State.takeChunk
  dsimp only
  grind [State.updCmd_kept, State.takePartial_kept, State.waking_kept, State.stageRunsAt_kept, State.updColl_kept,
    State.missGroup_kept, State.dstWrite_kept, foldl_kept]

theorem State.takeInbox_kept (x1) (x2) (h : Kept a s) :
    Kept a (State.takeInbox s x1 x2) := by
  grind [State.takeInbox, State.updColl_kept, State.takeChunk_kept, foldl_kept]

theorem collRun_kept (x1) (x2) (x3) (h : Kept a s) :
    Kept a (collRun x1 x2 x3 s) := by
  fun_induction collRun <;> grind [State.collCommit_kept, State.collFlag_kept, collWriteGo_kept,
    State.takeInbox_kept, collSendGo_kept]

theorem State.collStep_kept (x1) (x2) (h : Kept a s) :
    Kept a (State.collStep s x1 x2) := by
  grind [State.collStep, collRun_kept]

theorem State.groupStep_kept (x1) (x2) (h : Kept a s) :
    Kept a (State.groupStep s x1 x2) := by
  grind [State.groupStep, State.collStep_kept, State.loadStep_kept, State.loomStep_kept]

theorem State.takeBatch_kept (x1) (x2) (x3) (x4) (h : Kept a s) :
    Kept a (State.takeBatch s x1 x2 x3 x4) := by
  grind [State.takeBatch, State.waking_kept, State.sendBatch_kept, State.elocs_kept, State.updColl_kept,
    State.missGroup_kept]

theorem drainBatches_kept (x1) (x2) (x3) (h : Kept a s) :
    Kept a (drainBatches x1 x2 x3 s) := by
  fun_induction drainBatches <;> grind [State.takeBatch_kept]

theorem State.drainAll_kept (x1) (x2) (h : Kept a s) :
    Kept a (State.drainAll s x1 x2) := by
  grind [State.drainAll, drainBatches_kept]

theorem State.startData_kept (x1) (x2) (h : Kept a s) :
    Kept a (State.startData s x1 x2) := by
  unfold State.startData
  extract_lets s1 hs s2 s3
  have h1 : Kept a s1 := State.updColl_kept _ _ _ h
  have h2 : Kept a s2 := State.updColl_kept _ _ _ h1
  have h3 : Kept a s3 := by
    simp only [s3]
    split
    · exact State.updCmd_kept _ _ _ h1
    · exact h1
  clear_value s1 s2 s3
  grind [State.groupStep_kept, State.takeInbox_kept, State.drainAll_kept, State.sendBatch_kept,
    State.loadBegin_kept]

theorem State.mismatch_kept (x1) (x2) (x3) (x4) (x5) (x6) (x7) (x8) (h : Kept a s) :
    Kept a (State.mismatch s x1 x2 x3 x4 x5 x6 x7 x8) := by
  grind [State.mismatch, State.endGroup_kept, State.record_kept]

theorem State.headersDone_kept (x1) (x2) (h : Kept a s) :
    Kept a (State.headersDone s x1 x2) := by
  grind [State.headersDone, State.startData_kept, State.mismatch_kept, foldl_kept]

theorem State.takeHeader_kept (x1) (x2) (x3) (h : Kept a s) :
    Kept a (State.takeHeader s x1 x2 x3) := by
  grind [State.takeHeader, State.headersDone_kept, State.updColl_kept]

theorem State.sendHeader_kept (x1) (x2) (h : Kept a s) :
    Kept a (State.sendHeader s x1 x2) := by
  grind [State.sendHeader, State.waking_kept, State.sendOthers_kept, State.takeHeader_kept, State.elocs_kept,
    State.missGroup_kept]

theorem State.enterHeader_kept (x1) (x2) (x3) (h : Kept a s) :
    Kept a (State.enterHeader s x1 x2 x3) := by
  grind [State.enterHeader, State.sendHeader_kept, State.takeHeader_kept, State.updColl_kept, State.updPart_kept,
    foldl_kept]

theorem State.admitLoom_kept (x1) (x2) (x3) (h : Kept a s) :
    Kept a (State.admitLoom s x1 x2 x3) := by
  grind [State.admitLoom, State.updCmd_kept, State.waking_kept, State.endGroup_kept, State.missGroup_kept,
    State.loomsTake_kept, State.loomOpen_kept, State.enterHeader_kept]

theorem State.admitLoad_kept (x1) (x2) (x3) (h : Kept a s) :
    Kept a (State.admitLoad s x1 x2 x3) := by
  grind [State.admitLoad, State.endGroup_kept, State.enterHeader_kept]

theorem State.admitColl_kept (x1) (x2) (x3) (h : Kept a s) :
    Kept a (State.admitColl s x1 x2 x3) := by
  grind [State.admitColl, State.endGroup_kept, State.missGroup_kept, State.enterHeader_kept, State.rangeCheck_kept]

theorem State.takeSlot_kept (x1) (x2) (h : Kept a s) :
    Kept a (State.takeSlot s x1 x2) := by
  grind [State.takeSlot, State.updColl_kept]

theorem State.admitCmd_kept (x1) (x2) (h : Kept a s) :
    Kept a (State.admitCmd s x1 x2) := by
  grind [State.admitCmd, State.admitColl_kept, State.eventP_kept, State.endGroup_kept, State.admitLoom_kept,
    State.takeSlot_kept, State.admitLoad_kept, State.updPart_kept]

theorem State.resumeGroups_kept (x1) (h : Kept a s) :
    Kept a (State.resumeGroups s x1) := by
  grind [State.resumeGroups, State.sendHeader_kept, State.groupStep_kept, foldl_kept]

theorem execCollectiveAdmit_kept (x1) (h : Kept a s) :
    AnsKept a (execCollectiveAdmit x1 s) := by
  grind [execCollectiveAdmit, AnsKept, State.admitCmd_kept, State.resumeGroups_kept]

theorem State.startColl_kept (x1) (x2) (h : Kept a s) :
    Kept a (State.startColl s x1 x2) := by
  grind [State.startColl, State.updCmd_kept]

theorem execAllReduce_kept (x1) (x2) (x3) (h : Kept a s) :
    AnsKept a (execAllReduce x1 x2 x3 s) := by
  grind [execAllReduce, AnsKept, State.startColl_kept, State.onNew_kept]

theorem execReduceScatter_kept (x1) (x2) (x3) (h : Kept a s) :
    AnsKept a (execReduceScatter x1 x2 x3 s) := by
  grind [execReduceScatter, AnsKept, State.startColl_kept, State.onNew_kept]

theorem execAllGather_kept (x1) (x2) (x3) (h : Kept a s) :
    AnsKept a (execAllGather x1 x2 x3 s) := by
  grind [execAllGather, AnsKept, State.startColl_kept, State.onNew_kept]

theorem execReduce_kept (x1) (x2) (x3) (h : Kept a s) :
    AnsKept a (execReduce x1 x2 x3 s) := by
  grind [execReduce, AnsKept, State.startColl_kept, State.onNew_kept]

theorem execBroadcast_kept (x1) (x2) (x3) (h : Kept a s) :
    AnsKept a (execBroadcast x1 x2 x3 s) := by
  grind [execBroadcast, AnsKept, State.startColl_kept, State.onNew_kept]

theorem execAllToAll_kept (x1) (x2) (x3) (h : Kept a s) :
    AnsKept a (execAllToAll x1 x2 x3 s) := by
  grind [execAllToAll, AnsKept, State.startColl_kept, State.onNew_kept]

theorem execCollectiveHeader_kept (x1) (x2) (x3) (x4) (h : Kept a s) :
    AnsKept a (execCollectiveHeader x1 x2 x3 x4 s) := by
  grind [execCollectiveHeader, AnsKept, State.takeHeader_kept, State.updPart_kept]

theorem execExponentBatch_kept (x1) (x2) (x3) (x4) (x5) (h : Kept a s) :
    AnsKept a (execExponentBatch x1 x2 x3 x4 x5 s) := by
  grind [execExponentBatch, AnsKept, State.drainAll_kept, State.updColl_kept, State.groupStep_kept]

theorem execCollectiveChunk_kept (x1) (x2) (x3) (x4) (x5) (h : Kept a s) :
    AnsKept a (execCollectiveChunk x1 x2 x3 x4 x5 s) := by
  grind [execCollectiveChunk, AnsKept, State.updColl_kept, State.takeChunk_kept, State.groupStep_kept]

theorem execCollectiveStallTimeout_kept (x1) (x2) (x3) (h : Kept a s) :
    AnsKept a (execCollectiveStallTimeout x1 x2 x3 s) := by
  grind [execCollectiveStallTimeout, AnsKept, State.endGroup_kept]

theorem execHeaderTimeout_kept (x1) (x2) (x3) (h : Kept a s) :
    AnsKept a (execHeaderTimeout x1 x2 x3 s) := by
  grind [execHeaderTimeout, AnsKept, State.endGroup_kept]

theorem execAbandon_kept (x1) (x2) (x3) (x4) (h : Kept a s) :
    AnsKept a (execAbandon x1 x2 x3 x4 s) := by
  grind [execAbandon, AnsKept, State.endGroup_kept, State.updPart_kept]

theorem execKeepAlive_kept (x1) (x2) (x3) (x4) (h : Kept a s) :
    AnsKept a (execKeepAlive x1 x2 x3 x4 s) := by
  grind [execKeepAlive, AnsKept, State.groupStep_kept]

theorem State.collCoreReset_kept (x1) (h : Kept a s) :
    Kept a (State.collCoreReset s x1) := by
  grind [State.collCoreReset, State.endGroup_kept, foldl_kept]

theorem State.afterRecovery_kept (x1) (h : Kept a s) :
    Kept a (State.afterRecovery s x1) := by
  grind [State.afterRecovery, State.loomRetry_kept, State.genWeights_kept, State.genEvents_kept]

theorem copyGo_kept (x1) (x2) (x3) (x4) (x5) (x6) (h : Kept a s) :
    Kept a (copyGo x1 x2 x3 x4 x5 s x6).1 := by
  fun_induction copyGo <;> grind [State.xreadLit_kept]

theorem State.nextSource_kept (x1) (x2) (x3) (h : Kept a s) :
    Kept a (State.nextSource s x1 x2 x3) := by
  grind [State.nextSource, State.recoverFrom_kept, State.found_kept, State.loseSet_kept, State.tableCrc_kept]

theorem State.retryHost_kept (x1) (x2) (h : Kept a s) :
    Kept a (State.retryHost s x1 x2) := by
  grind [State.retryHost, State.nextSource_kept, foldl_kept]

theorem State.retryHosts_kept (h : Kept a s) :
    Kept a (State.retryHosts s) := by
  grind [State.retryHosts, State.afterRecovery_kept, State.retryHost_kept, foldl_kept]

theorem execRecoveryFetch_kept (x1) (x2) (x3) (x4) (x5) (h : Kept a s) :
    AnsKept a (execRecoveryFetch x1 x2 x3 x4 x5 s) := by
  grind [execRecoveryFetch, AnsKept, State.post_kept, copyGo_kept, State.found_kept]

theorem State.answerRecovery_kept (x1) (x2) (x3) (x4) (h : Kept a s) :
    Kept a (State.answerRecovery s x1 x2 x3 x4) := by
  unfold State.answerRecovery
  dsimp only
  grind [State.found_kept, State.offerChunk_kept, State.loseSet_kept, State.nextSource_kept, State.tableCrc_kept]

theorem execRecoveryAnswer_kept (x1) (x2) (x3) (x4) (x5) (h : Kept a s) :
    AnsKept a (execRecoveryAnswer x1 x2 x3 x4 x5 s) := by
  grind [execRecoveryAnswer, AnsKept, State.afterRecovery_kept, State.answerRecovery_kept]

theorem execReplicaTimeout_kept (x1) (x2) (x3) (x4) (h : Kept a s) :
    AnsKept a (execReplicaTimeout x1 x2 x3 x4 s) := by
  grind [execReplicaTimeout, AnsKept, State.afterRecovery_kept, State.nextSource_kept]

theorem execRecoveryTimeout_kept (x1) (x2) (x3) (x4) (h : Kept a s) :
    AnsKept a (execRecoveryTimeout x1 x2 x3 x4 s) := by
  grind [execRecoveryTimeout, AnsKept, State.afterRecovery_kept, State.loseSet_kept]

theorem State.refreshRouted_kept (h : Kept a s) :
    Kept a (State.refreshRouted s) := by
  grind [State.refreshRouted, State.tickFree_kept, State.updPort_kept, foldl_kept]

theorem State.releaseIrqs_kept (h : Kept a s) :
    Kept a (State.releaseIrqs s) := by
  unfold State.releaseIrqs
  split
  · exact h
  · exact State.retryHosts_kept
      (h.trans ⟨rfl, rfl, Nat.le_refl _, List.prefix_append _ _, id⟩)

theorem State.routesChanged_kept (x1) (h : Kept a s) :
    Kept a (State.routesChanged s x1) := by
  unfold State.routesChanged
  grind [State.breakLost_kept, State.releaseIrqs_kept, State.refreshRouted_kept, State.emit_kept, State.event_kept]

theorem State.withService_kept (x1) (x2) (h : Kept a s) (h2 : ∀ y0, Kept a y0 → Kept a (x2 y0)) :
    Kept a (State.withService s x1 x2) := by
  grind [State.withService, State.routesChanged_kept]

theorem State.replayLink_kept (x1) (h : Kept a s) :
    Kept a (State.replayLink s x1) := by
  grind [State.replayLink, State.updLink_kept, State.emit_kept]

theorem State.ackThrough_kept (x1) (x2) (h : Kept a s) :
    Kept a (State.ackThrough s x1 x2) := by
  grind [State.ackThrough, State.sendHeld_kept, State.updLink_kept]

theorem State.replayOrRetrain_kept (x1) (h : Kept a s) :
    Kept a (State.replayOrRetrain s x1) := by
  grind [State.replayOrRetrain, State.replayLink_kept, State.updLink_kept]

theorem execAckNack_kept (x1) (x2) (x3) (h : Kept a s) :
    AnsKept a (execAckNack x1 x2 x3 s) := by
  grind [execAckNack, AnsKept, State.commitAcked_kept, State.ackThrough_kept, State.replayOrRetrain_kept]

theorem execAckTimeout_kept (x1) (h : Kept a s) :
    AnsKept a (execAckTimeout x1 s) := by
  grind [execAckTimeout, AnsKept, State.replayOrRetrain_kept]

theorem State.quarantine_kept (x1) (h : Kept a s) :
    Kept a (State.quarantine s x1) := by
  grind [State.quarantine, State.updLink_kept, State.withService_kept, State.emit_kept, State.event_kept]

theorem State.violation_kept (x1) (x2) (x3) (h : Kept a s) :
    Kept a (State.violation s x1 x2 x3) := by
  grind [State.violation, State.tickFree_kept, State.quarantine_kept, State.updLink_kept, State.emit_kept]

theorem State.plQclr_kept (x1) (h : Kept a s) :
    Kept a (State.plQclr s x1) := by
  grind [State.plQclr, State.updLink_kept, State.withService_kept, State.emit_kept, State.event_kept]

theorem State.standIn_kept (x1) (x2) (x3) (x4) (h : Kept a s) :
    Kept a (State.standIn s x1 x2 x3 x4) := by
  grind [State.standIn, State.updLink_kept, State.repairRec_kept, State.event_kept]

theorem sparesGo_kept (x1) (x2) (x3) (x4) (x5) (h : Kept a s) :
    Kept a (sparesGo x1 x2 x3 x4 s x5).1 := by
  fun_induction sparesGo <;> grind [State.standIn_kept]

theorem State.linkLanes_kept (x1) (x2) (x3) (x4) (x5) (h : Kept a s) :
    Kept a (State.linkLanes s x1 x2 x3 x4 x5) := by
  grind [State.linkLanes, sparesGo_kept, State.updLink_kept, State.event_kept]

theorem State.linkResumes_kept (x1) (h : Kept a s) :
    Kept a (State.linkResumes s x1) := by
  grind [State.linkResumes, State.sendHeld_kept, State.replayLink_kept]

theorem State.trained_kept (x1) (x2) (h : Kept a s) :
    Kept a (State.trained s x1 x2) := by
  grind [State.trained, State.linkLanes_kept, State.updLink_kept, State.linkResumes_kept, State.event_kept]

theorem State.trainBody_kept (x1) (x2) (h : Kept a s) :
    Kept a (State.trainBody s x1 x2) := by
  grind [State.trainBody, State.trained_kept, State.updLink_kept, State.event_kept]

theorem State.trainLink_kept (x1) (x2) (h : Kept a s) :
    Kept a (State.trainLink s x1 x2) := by
  grind [State.trainLink, State.trainBody_kept, State.withService_kept]

theorem State.trainMgmt_kept (x1) (x2) (h : Kept a s) :
    Kept a (State.trainMgmt s x1 x2) := by
  grind [State.trainMgmt, State.updLink_kept, State.emit_kept]

theorem execLaneFecWindow_kept (x1) (x2) (x3) (x4) (h : Kept a s) :
    AnsKept a (execLaneFecWindow x1 x2 x3 x4 s) := by
  grind [execLaneFecWindow, AnsKept, State.linkLanes_kept, State.updLink_kept, State.withService_kept,
    State.linkResumes_kept]

theorem State.plRetrain_kept (x1) (h : Kept a s) :
    Kept a (State.plRetrain s x1) := by
  grind [State.plRetrain, State.updLink_kept, State.withService_kept]

theorem State.plDisable_kept (x1) (x2) (h : Kept a s) :
    Kept a (State.plDisable s x1 x2) := by
  grind [State.plDisable, State.plRetrain_kept, State.updLink_kept, State.withService_kept, State.emit_kept]

theorem State.trainPort_kept (x1) (x2) (h : Kept a s) :
    Kept a (State.trainPort s x1 x2) := by
  grind [State.trainPort, State.routesChanged_kept, State.updPort_kept, State.event_kept]

theorem State.portDown_kept (x1) (x2) (h : Kept a s) :
    Kept a (State.portDown s x1 x2) := by
  grind [State.portDown, State.routesChanged_kept, State.updPort_kept]

theorem State.ulRetrain_kept (x1) (h : Kept a s) :
    Kept a (State.ulRetrain s x1) := by
  grind [State.ulRetrain, State.portDown_kept]

theorem State.ulDisable_kept (x1) (x2) (h : Kept a s) :
    Kept a (State.ulDisable s x1 x2) := by
  grind [State.ulDisable, State.portDown_kept, State.ulRetrain_kept, State.updPort_kept]

theorem State.ulQclr_kept (x1) (h : Kept a s) :
    Kept a (State.ulQclr s x1) := by
  grind [State.ulQclr, State.releaseIrqs_kept, State.refreshRouted_kept, State.updPort_kept, State.event_kept]

theorem State.ulViolation_kept (x1) (x2) (h : Kept a s) :
    Kept a (State.ulViolation s x1 x2) := by
  grind [State.ulViolation, State.tickFree_kept, State.updPort_kept, State.emit_kept, State.event_kept]

theorem execPartnerLinkTraining_kept (x1) (h : Kept a s) :
    AnsKept a (execPartnerLinkTraining x1 s) := by
  grind [execPartnerLinkTraining, AnsKept, State.trainLink_kept, State.trainMgmt_kept, State.trainPort_kept]

theorem execLinkRetrainDone_kept (x1) (x2) (x3) (x4) (h : Kept a s) :
    AnsKept a (execLinkRetrainDone x1 x2 x3 x4 s) := by
  grind [execLinkRetrainDone, AnsKept, State.trainLink_kept, State.trainPort_kept]

theorem execCableUnmate_kept (x1) (h : Kept a s) :
    AnsKept a (execCableUnmate x1 s) := by
  grind [execCableUnmate, AnsKept, State.portDown_kept, State.linkLanes_kept, State.updLink_kept,
    State.withService_kept, State.updPort_kept, State.event_kept, foldl_kept]

theorem State.forward_kept (x1) (x2) (h : Kept a s) :
    Kept a (State.forward s x1 x2) := by
  grind [State.forward, State.sendFlit_kept, State.event_kept]

theorem State.takeFlit_kept (x1) (x2) (x3) (x4) (h : Kept a s) :
    Kept a (State.takeFlit s x1 x2 x3 x4) := by
  grind [State.takeFlit, State.forward_kept, State.commitAcked_kept, State.ackThrough_kept, State.violation_kept,
    State.updLink_kept, State.emit_kept]

theorem execDataPacket_kept (x1) (x2) (x3) (x4) (h : Kept a s) :
    AnsKept a (execDataPacket x1 x2 x3 x4 s) := by
  grind [execDataPacket, AnsKept, State.takeFlit_kept]

theorem execLinkStateExchange_kept (x1) (x2) (h : Kept a s) :
    AnsKept a (execLinkStateExchange x1 x2 s) := by
  grind [execLinkStateExchange, AnsKept, State.routesChanged_kept, State.mk_kept]

theorem execLinkControl_kept (x1) (x2) (x3) (h : Kept a s) :
    AnsKept a (execLinkControl x1 x2 x3 s) := by
  grind [execLinkControl, AnsKept, State.updLink_kept, State.withService_kept]

theorem State.updSnd_kept (x1) (x2) (h : Kept a s) :
    Kept a (State.updSnd s x1 x2) := by
  grind [State.updSnd, State.updPart_kept]

theorem State.sndDrop_kept (x1) (x2) (h : Kept a s) :
    Kept a (State.sndDrop s x1 x2) := by
  grind [State.sndDrop, State.updSnd_kept, State.record_kept]

theorem State.sndTrip_kept (x1) (x2) (x3) (x4) (h : Kept a s) :
    Kept a (State.sndTrip s x1 x2 x3 x4) := by
  grind [State.sndTrip, State.irq_kept, State.eventPA_kept, State.updSnd_kept]

theorem State.sndMerge_kept (x1) (x2) (h : Kept a s) :
    Kept a (State.sndMerge s x1 x2) := by
  grind [State.sndMerge, State.sndTrip_kept, State.xreadNow_kept, State.xwriteNow_kept, State.sndDrop_kept, foldl_kept]

theorem execSoundingsRecord_kept (x1) (h : Kept a s) :
    AnsKept a (execSoundingsRecord x1 s) := by
  grind [execSoundingsRecord, AnsKept, State.updCore_kept, State.sndMerge_kept, State.tryCommit_kept]

theorem State.sndOn_kept (x1) (h : Kept a s) :
    Kept a (State.sndOn s x1) := by
  grind [State.sndOn, State.updSnd_kept]

theorem State.sndClearEntry_kept (x1) (x2) (h : Kept a s) :
    Kept a (State.sndClearEntry s x1 x2).1 := by
  exact State.xwriteNow_kept _ _ _ h

theorem sndReadGo_kept (x1) (x2) (x3) (h : Kept a s) :
    Kept a (sndReadGo x1 x2 x3 s).1 := by
  fun_induction sndReadGo <;> grind [State.sndClearEntry_kept, State.cmdWrite_kept, State.xread_kept]

theorem State.runSoundRead_kept (x1) (x2) (h : Kept a s) :
    Kept a (State.runSoundRead s x1 x2) := by
  grind [State.runSoundRead, State.sndClearEntry_kept, State.endRows_kept, sndReadGo_kept, foldl_kept]

theorem execSoundRead_kept (x1) (x2) (x3) (h : Kept a s) :
    AnsKept a (execSoundRead x1 x2 x3 s) := by
  grind [execSoundRead, AnsKept, State.onCmd_kept, State.runSoundRead_kept]

theorem linesGo_kept (x1) (x2) (x3) (h : Kept a s) :
    Kept a (linesGo x1 x2 x3 s).1 := by
  fun_induction linesGo <;> grind [State.eventP_kept, State.found_kept, State.senseLeaf_kept]

theorem rangesGo_kept (x1) (x2) (h : Kept a s) :
    Kept a (rangesGo x1 x2 s).1 := by
  fun_induction rangesGo <;> grind [linesGo_kept]

theorem skipEvent_kept (x1) (x2) (x3) (h : Kept a s) :
    Kept a (skipEvent s x1 x2 x3).1 := by
  grind [skipEvent, State.eventPA_kept]

theorem State.updRead_kept (x1) (x2) (x3) (h : Kept a s) :
    Kept a (State.updRead s x1 x2 x3).1 := by
  grind [State.updRead, State.xread_kept]

theorem State.updScalars_kept (x1) (x2) (x3) (h : Kept a s) :
    Kept a (State.updScalars s x1 x2 x3).1 := by
  unfold State.updScalars
  dsimp only
  grind [skipEvent_kept, State.updRead_kept]

theorem State.updJobs_kept (x1) (x2) (h : Kept a s) :
    Kept a (State.updJobs s x1 x2).1 := by
  grind [State.updJobs, State.updRead_kept]

theorem State.updCheck_kept (x1) (x2) (h : Kept a s) :
    Kept a (State.updCheck s x1 x2).1 := by
  grind [State.updCheck, rangesGo_kept, State.updScalars_kept, State.updJobs_kept]

theorem arrayGo_kept (x1) (x2) (x3) (x4) (x5) (h : Kept a s) :
    Kept a (arrayGo x1 x2 x3 x4 s x5).1 := by
  fun_induction arrayGo <;> grind [State.xread_kept]

theorem readsGo_kept (x1) (x2) (x3) (h : Kept a s) :
    Kept a (readsGo x1 x2 x3 s).1 := by
  fun_induction readsGo <;> grind [arrayGo_kept]

theorem softGo_kept (x1) (x2) (x3) (h : Kept a s) :
    Kept a (softGo x1 x2 x3 s).1 := by
  grind [softGo, arrayGo_kept, State.tickFree_kept, foldl_kept, foldl_kept_fst]

theorem writesGo_kept (x1) (x2) (h : Kept a s) :
    Kept a (writesGo x1 x2 s).1 := by
  fun_induction writesGo <;> grind [State.xupdate_kept]

theorem blocksGo_kept (x1) (x2) (x3) (x4) (h : Kept a s) :
    Kept a (blocksGo x1 x2 x3 x4 s).1 := by
  fun_induction blocksGo <;> grind [writesGo_kept]

theorem layersGo_kept (x1) (x2) (x3) (x4) (x5) (h : Kept a s) :
    Kept a (layersGo x1 x2 x3 x4 x5 s).1 := by
  fun_induction layersGo <;> grind [blocksGo_kept, State.tickFree_kept, readsGo_kept]

theorem readAll_kept (x1) (x2) (x3) (h : Kept a s) :
    Kept a (readAll x1 x2 x3 s) := by
  fun_induction readAll <;> grind [readsGo_kept]

theorem partialGo_kept (x1) (x2) (x3) (x4) (x5) (h : Kept a s) :
    Kept a (partialGo x1 x2 x3 x4 x5 s) := by
  grind [partialGo, blocksGo_kept, State.tickFree_kept, softGo_kept, readsGo_kept, foldl_kept]

theorem tailsGo_kept (x1) (x2) (h : Kept a s) :
    Kept a (tailsGo x1 x2 s).1 := by
  fun_induction tailsGo <;> grind [State.xwrite_kept]

theorem State.runUpdate_kept (x1) (x2) (h : Kept a s) :
    Kept a (State.runUpdate s x1 x2) := by
  unfold State.runUpdate
  have hc := State.updCheck_kept x1 x2 h
  split <;> rename_i heq <;> rw [heq] at hc
  · exact State.waking_kept h _
  · exact State.finish_kept _ _ _ hc
  · have h2 := layersGo_kept x1 x2 ‹_› ‹_› ‹_› hc
    have hr := readAll_kept x1 x2 ‹_› hc
    split <;> rename_i heq <;> rw [heq] at h2
    · exact State.waking_kept h _
    · exact State.finish_kept _ _ _ (partialGo_kept _ _ _ _ _
        ⟨hr.pending, hr.board, h2.free, hr.out, hr.mem⟩)
    · grind [tailsGo_kept, State.finish_kept, State.waking_kept]

theorem State.abortUpdate_kept (x1) (x2) (x3) (h : Kept a s) :
    Kept a (State.abortUpdate s x1 x2 x3) := by
  grind [State.abortUpdate, partialGo_kept, State.updCheck_kept, State.finish_kept, State.tickFree_kept]

theorem execUpdate_kept (x1) (x2) (x3) (h : Kept a s) :
    AnsKept a (execUpdate x1 x2 x3 s) := by
  grind [execUpdate, AnsKept, State.runUpdate_kept, State.onCmd_kept]

theorem State.finishIdle_kept (x1) (x2) (x3) (x4) (x5) (h : Kept a s) :
    Kept a (State.finishIdle s x1 x2 x3 x4 x5) := by
  grind [State.finishIdle, State.finish_kept, State.tickFree_kept]

theorem State.sndCleared_kept (x1) (x2) (h : Kept a s) :
    Kept a (State.sndCleared s x1 x2) := by
  grind [State.sndCleared, State.sndClearEntry_kept, State.tickFree_kept, foldl_kept]

theorem State.abortRows_kept (x1) (x2) (x3) (x4) (x5) (h : Kept a s) :
    Kept a (State.abortRows s x1 x2 x3 x4 x5) := by
  grind [State.abortRows, State.scramble_kept, State.finish_kept, State.tickFree_kept, State.sndCleared_kept,
    foldl_kept]

theorem State.abortKernel_kept (x1) (x2) (x3) (h : Kept a s) :
    Kept a (State.abortKernel s x1 x2 x3) := by
  grind [State.abortKernel, State.tickFree_kept, State.endKernel_kept]

theorem State.faultKernel_kept (x1) (x2) (x3) (x4) (h : Kept a s) :
    Kept a (State.faultKernel s x1 x2 x3 x4) := by
  grind [State.faultKernel, State.endKernel_kept]

theorem State.abortWide_kept (x1) (x2) (x3) (x4) (h : Kept a s) :
    Kept a (State.abortWide s x1 x2 x3 x4) := by
  grind [State.abortWide, State.finishOpen_kept, State.endGroup_kept, State.scramble_kept, State.readManifest_kept,
    State.scrambleDst_kept, State.endForm_kept, State.loomOpen_kept, foldl_kept]

theorem State.abortCmd_kept (x1) (x2) (x3) (h : Kept a s) :
    Kept a (State.abortCmd s x1 x2 x3) := by
  grind [State.abortCmd, State.abortKernel_kept, State.abortMigrate_kept, State.abortRows_kept, State.abortWide_kept,
    State.finishIdle_kept, State.abortUpdate_kept]

theorem State.abortFetched_kept (x1) (x2) (x3) (h : Kept a s) :
    Kept a (State.abortFetched s x1 x2 x3) := by
  grind [State.abortFetched, State.sendOthers_kept, State.finishIdle_kept]

theorem abortGo_kept (x1) (x2) (x3) (h : Kept a s) :
    Kept a (abortGo x1 x2 s x3).1 := by
  fun_induction abortGo <;> grind [State.abortFetched_kept, State.abortCmd_kept]

theorem State.abortStop_kept (x1) (x2) (x3) (h : Kept a s) :
    Kept a (State.abortStop s x1 x2 x3) := by
  grind [State.abortStop, State.stopQueue_kept, foldl_kept]

theorem State.abortGoesOn_kept (x1) (x2) (x3) (h : Kept a s) :
    Kept a (State.abortGoesOn s x1 x2 x3) := by
  grind [State.abortGoesOn, State.updPart_kept]

theorem State.runAbort_kept (x1) (x2) (x3) (x4) (h : Kept a s) :
    Kept a (State.runAbort s x1 x2 x3 x4) := by
  grind [State.runAbort, State.finish_kept, abortGo_kept, State.abortStop_kept, State.abortGoesOn_kept]

theorem execAbortCommand_kept (x1) (x2) (x3) (h : Kept a s) :
    AnsKept a (execAbortCommand x1 x2 x3 s) := by
  grind [execAbortCommand, AnsKept, State.runAbort_kept, State.onCmd_kept]

theorem execAbortQueue_kept (x1) (x2) (x3) (h : Kept a s) :
    AnsKept a (execAbortQueue x1 x2 x3 s) := by
  grind [execAbortQueue, AnsKept, State.runAbort_kept, State.onCmd_kept]

theorem execAbortCluster_kept (x1) (x2) (x3) (h : Kept a s) :
    AnsKept a (execAbortCluster x1 x2 x3 s) := by
  grind [execAbortCluster, AnsKept, State.runAbort_kept, State.onCmd_kept]

theorem execAbortPartition_kept (x1) (x2) (x3) (h : Kept a s) :
    AnsKept a (execAbortPartition x1 x2 x3 s) := by
  grind [execAbortPartition, AnsKept, State.runAbort_kept, State.onCmd_kept]

theorem State.faultCmd_kept (x1) (x2) (x3) (x4) (h : Kept a s) :
    Kept a (State.faultCmd s x1 x2 x3 x4) := by
  grind [State.faultCmd, State.updCmd_kept, State.abortMigrate_kept, State.abortRows_kept, State.abortWide_kept,
    State.faultKernel_kept, State.abortUpdate_kept]

theorem State.dispatchCmd_kept (x1) (x2) (x3) (h : Kept a s) :
    Kept a (State.dispatchCmd s x1 x2 x3) := by
  grind [State.dispatchCmd, State.updCmd_kept, State.junkAtm_kept, State.updCore_kept, State.finish_kept,
    State.updPart_kept, foldl_kept]

theorem execCommandDispatch_kept (x1) (h : Kept a s) :
    AnsKept a (execCommandDispatch x1 s) := by
  unfold execCommandDispatch
  dsimp only
  grind [AnsKept, State.takeTurn_kept, State.finish_kept, State.dispatchCmd_kept, State.finishIdle_kept]

theorem State.absorbSender_kept (x1) (x2) (x3) (h : Kept a s) :
    Kept a (State.absorbSender s x1 x2 x3) := by
  grind [State.absorbSender, State.coreFaultAt_kept]

theorem State.endJob_kept (x1) (h : Kept a s) :
    Kept a (State.endJob s x1) := by
  grind [State.endJob, State.faultCmd_kept]

theorem State.resetCore_kept (x1) (x2) (h : Kept a s) :
    Kept a (State.resetCore s x1 x2) := by
  grind [State.resetCore, State.updCore_kept, State.collCoreReset_kept, State.absorbSender_kept, State.endJob_kept,
    foldl_kept]

theorem State.endCommands_kept (x1) (h : Kept a s) :
    Kept a (State.endCommands s x1) := by
  grind [State.endCommands, State.abortFetched_kept, State.abortCmd_kept, foldl_kept]

theorem State.genReset_kept (x1) (h : Kept a s) :
    Kept a (State.genReset s x1) := by
  grind [State.genReset, State.scramble_kept, State.updPart_kept, State.junkRange_kept, foldl_kept]

theorem State.startPartReset_kept (x1) (h : Kept a s) :
    Kept a (State.startPartReset s x1) := by
  grind [State.startPartReset, State.leaveGroups_kept, State.pilotOff_kept, State.resetCore_kept,
    State.genReset_kept, State.updPart_kept, State.endCommands_kept, foldl_kept]

theorem State.mergeRest_kept (x1) (h : Kept a s) :
    Kept a (State.mergeRest s x1) := by
  grind [State.mergeRest, State.updCore_kept, State.sndMerge_kept, foldl_kept]

theorem flushQueue_kept (x1) (x2 : Went State) (x3) (h : ∀ t, x2 = .on t → Kept a t) :
    ∀ t, flushQueue x1 x2 x3 = .on t → Kept a t := by
  intro t ht
  unfold flushQueue at ht
  split at ht
  · cases ht
  · exact flushGo_kept _ _ (h _ rfl) _ (.inl ht)

theorem flushOne_kept (x1) (x2 : Went State) (x3) (h : ∀ t, x2 = .on t → Kept a t) :
    ∀ t, flushOne x1 x2 x3 = .on t → Kept a t := by
  intro t ht
  unfold flushOne at ht
  split at ht
  · cases ht
  · split at ht
    · exact h _ ht
    · split at ht
      · cases ht
      · cases ht
        exact State.completeCmd_kept _ _ _ (h _ rfl)

theorem foldl_went_kept {β : Type} {f : Went State → β → Went State} (xs : List β) {x : Went State}
    (hf : ∀ x y, (∀ t, x = .on t → Kept a t) → ∀ t, f x y = .on t → Kept a t)
    (h : ∀ t, x = .on t → Kept a t) : ∀ t, xs.foldl f x = .on t → Kept a t := by
  induction xs generalizing x with
  | nil => exact h
  | cons y ys ih => exact ih (hf _ _ h)

theorem State.flushRecords_kept (x1) (h : Kept a s) :
    ∀ t, (State.flushRecords s x1) = .on t → Kept a t := by
  unfold State.flushRecords
  have hq := foldl_went_kept (x := .on (s.mergeRest x1)) (List.range 64)
    (fun x y hx => flushQueue_kept x1 x y hx) (by rintro t ⟨⟩; exact State.mergeRest_kept _ h)
  split
  · rintro t ⟨⟩
  · exact foldl_went_kept _ (fun x y hx => flushOne_kept x1 x y hx) (by rintro t ⟨⟩; exact hq _ ‹_›)

theorem State.absorbOne_kept (x1) (x2) (h : Kept a s) :
    ∀ t y, (State.absorbOne s x1 x2) = .on (t, y) → Kept a t := by
  intro t y ht
  unfold State.absorbOne at ht
  dsimp only at ht
  split at ht
  · cases ht; exact h
  · have hr := State.readSlot_kept x1 x2 h
    split at ht <;> rename_i heq <;> rw [heq] at hr
    · cases ht
    · cases ht; exact hr
    · have h1 := State.takeDescriptor_kept x1 x2 ‹_› none hr
      split at ht
      · cases ht; exact h1
      · split at ht
        · cases ht
        · rename_i h2
          cases ht
          exact State.flushRecords_kept _ (State.abortFetched_kept _ _ _ h1) _ h2

theorem absorbGo_kept (x1) (x2) (x3) (h : Kept a s) :
    ∀ t, (absorbGo x1 x2 x3 s) = .on t → Kept a t := by
  induction x3 generalizing s with
  | zero => rintro t ⟨⟩; exact h
  | succ n ih =>
    intro t ht
    unfold absorbGo at ht
    split at ht
    · cases ht
    · rename_i x hx
      have h1 := State.absorbOne_kept x1 x2 h x.1 x.2 hx
      split at ht
      · exact ih h1 _ ht
      · cases ht; exact h1

theorem State.absorbAll_kept (x1) (h : Kept a s) :
    ∀ t, (State.absorbAll s x1) = .on t → Kept a t :=
  foldl_went_kept _ (fun x y hx t ht => by
    split at ht
    · cases ht
    · exact absorbGo_kept _ _ _ (hx _ rfl) _ ht) (State.flushRecords_kept _ h)

theorem State.scrubBanks_kept (x1) (h : Kept a s) :
    Kept a (State.scrubBanks s x1) :=
  foldl_kept _ (fun s t hs => by
    dsimp only
    split
    · exact hs
    · exact State.updTier_kept hs _ fun m hm => TierMem.zeroRange_wf hm _ _) h

theorem State.finishPartReset_kept (x1) (x2) (h : Kept a s) :
    Kept a (State.finishPartReset s x1 x2) := by
  grind [State.finishPartReset, State.updCore_kept, State.scrubBanks_kept, State.updPart_kept, foldl_kept]

theorem State.resetRecord_kept (x1) (x2) (h : Kept a s) :
    Kept a (State.resetRecord s x1 x2) := by
  grind [State.resetRecord, State.record_kept]

theorem State.startReset_kept (x1) (h : Kept a s) :
    Kept a (State.startReset s x1) := by
  grind [State.startReset, State.resetCore_kept, State.resetRecord_kept, State.startPartReset_kept, State.mk_kept,
    foldl_kept]

theorem State.releaseCores_kept (x1) (h : Kept a s) :
    Kept a (State.releaseCores s x1) := by
  grind [State.releaseCores, State.updCore_kept, foldl_kept]

theorem State.endResets_kept (x1) (h : Kept a s) :
    Kept a (State.endResets s x1) := by
  grind [State.endResets, State.resetRecord_kept, State.mk_kept, foldl_kept]

theorem State.dropWakes_kept (x1) (h : Kept a s) :
    Kept a (State.dropWakes s x1) := by
  grind [State.dropWakes, State.mk_kept]

theorem State.gateCluster_kept (x1) (h : Kept a s) :
    Kept a (State.gateCluster s x1) := by
  grind [State.gateCluster, State.dropWakes_kept, State.updIsland_kept]

theorem State.endTeardown_kept (x1) (h : Kept a s) :
    Kept a (State.endTeardown s x1) := by
  grind [State.endTeardown, State.eventP_kept, State.updPart_kept, State.gateCluster_kept, foldl_kept]

theorem State.queueDestroy_kept (x1) (h : Kept a s) :
    Kept a (State.queueDestroy s x1) := by
  grind [State.queueDestroy, State.endTeardown_kept, State.mk_kept]

theorem State.startTeardown_kept (x1) (h : Kept a s) :
    Kept a (State.startTeardown s x1) := by
  grind [State.startTeardown, State.startReset_kept, State.updPart_kept]

theorem State.afterPartReset_kept (x1) (h : Kept a s) :
    Kept a (State.afterPartReset s x1) := by
  grind [State.afterPartReset, State.startTeardown_kept, State.eventP_kept, State.queueDestroy_kept,
    State.updUnit_kept, State.updPart_kept]

theorem State.endReset_kept (x1) (h : Kept a s) :
    Kept a (State.endReset s x1) := by
  grind [State.endReset, State.endResets_kept, State.waking_kept, State.afterPartReset_kept,
    State.finishPartReset_kept, State.absorbAll_kept, State.releaseCores_kept]

theorem execResetEnd_kept (x1) (x2) (h : Kept a s) :
    AnsKept a (execResetEnd x1 x2 s) := by
  grind [execResetEnd, AnsKept, State.endReset_kept]

theorem State.resetErr_kept (x1) (h : Kept a s) :
    Kept a (State.resetErr s x1) := by
  grind [State.resetErr, State.mk_kept]

theorem State.hostReset_kept (x1) (h : Kept a s) :
    Kept a (State.hostReset s x1) := by
  grind [State.hostReset, State.startReset_kept, State.resetErr_kept]

end Sys2Proof.Machine
end

