-- ==== Sys2Proof/Laws/KeepModule.lean ====
section
/-! SUPPORT. What `Kept` says of failures, security, bring-up and power. -/

namespace Sys2Proof.Machine

set_option maxRecDepth 4000
set_option Elab.async false

variable {a s : State}

theorem State.setLogical_kept (x1) (x2) (h : Kept a s) :
    Kept a (State.setLogical s x1 x2) := by
  unfold State.setLogical
  dsimp only
  grind [State.mk_kept]

theorem State.takeSpare_kept (x1) (h : Kept a s) :
    Kept a (State.takeSpare s x1) := by
  grind [State.takeSpare, State.mk_kept]

theorem State.makeHole_kept (x1) (h : Kept a s) :
    Kept a (State.makeHole s x1) := by
  grind [State.makeHole, State.setLogical_kept, State.mk_kept]

theorem State.markBad_kept (x1) (h : Kept a s) :
    Kept a (State.markBad s x1) := by
  grind [State.markBad, State.updUnit_kept, State.repairRec_kept]

theorem State.replaceCore_kept (x1) (h : Kept a s) :
    Kept a (State.replaceCore s x1) := by
  unfold State.replaceCore
  dsimp only
  grind [State.takeSpare_kept, State.updUnit_kept, State.setLogical_kept, State.makeHole_kept, State.event_kept]

theorem State.coreFailed_kept (x1) (h : Kept a s) :
    Kept a (State.coreFailed s x1) := by
  grind [State.coreFailed, State.replaceCore_kept, State.startReset_kept, State.markBad_kept]

theorem State.helmLost_kept (x1) (h : Kept a s) :
    Kept a (State.helmLost s x1) := by
  grind [State.helmLost, State.startReset_kept, State.updPart_kept]

theorem State.helmFail_kept (x1) (h : Kept a s) :
    Kept a (State.helmFail s x1) := by
  grind [State.helmFail, State.helmLost_kept, State.markBad_kept]

theorem State.faultUsers_kept (x1) (x2) (h : Kept a s) :
    Kept a (State.faultUsers s x1 x2) := by
  grind [State.faultUsers, State.faultCmd_kept, foldl_kept]

theorem State.islandLost_kept (x1) (h : Kept a s) :
    Kept a (State.islandLost s x1) := by
  grind [State.islandLost, State.linkLanes_kept, State.helmFail_kept, State.withService_kept, foldl_kept]

theorem State.unitFailed_kept (x1) (h : Kept a s) :
    Kept a (State.unitFailed s x1) := by
  grind [State.unitFailed, State.islandLost_kept, State.faultUsers_kept, State.event_kept, State.updUnit_kept, State.mk_kept]

theorem State.failed_kept (x1) (h : Kept a s) :
    Kept a (State.failed s x1) := by
  grind [State.failed, State.unitFailed_kept, State.coreFailed_kept, State.helmFail_kept]

theorem State.failUnit_kept (x1) (h : Kept a s) :
    Kept a (State.failUnit s x1) := by
  grind [State.failUnit, State.failed_kept, State.mk_kept]

theorem State.lateFailures_kept (h : Kept a s) :
    Kept a (State.lateFailures s) := by
  grind [State.lateFailures, State.failed_kept, State.mk_kept, foldl_kept]

theorem execCoreHwFault_kept (x1) (h : Kept a s) :
    AnsKept a (execCoreHwFault x1 s) := by
  grind [execCoreHwFault, AnsKept, State.failUnit_kept]

theorem execHelmHeartbeatTimeout_kept (x1) (h : Kept a s) :
    AnsKept a (execHelmHeartbeatTimeout x1 s) := by
  grind [execHelmHeartbeatTimeout, AnsKept, State.failUnit_kept]

theorem execUnitFail_kept (x1) (h : Kept a s) :
    AnsKept a (execUnitFail x1 s) := by
  grind [execUnitFail, AnsKept, State.failUnit_kept]

theorem State.failEnable_kept (x1) (x2) (h : Kept a s) :
    Kept a (State.failEnable s x1 x2) := by
  grind [State.failEnable, State.eventP_kept, State.updPart_kept, State.lateFailures_kept, State.gateCluster_kept,
    foldl_kept]

theorem State.dropSecOp_kept (x1) (h : Kept a s) :
    Kept a (State.dropSecOp s x1) := by
  unfold State.dropSecOp
  dsimp only
  grind [State.failEnable_kept, State.endTeardown_kept, State.mk_kept]

theorem State.loseKey_kept (x1) (h : Kept a s) :
    Kept a (State.loseKey s x1) := by
  unfold State.loseKey
  split
  · exact h
  · have h1 : Kept a { s with mem := { s.mem with nextKey := s.mem.nextKey + 1 } } :=
      h.same rfl rfl (Nat.le_refl _) rfl rfl
    exact State.updPart_kept h1 _ _

theorem State.secFail_kept (h : Kept a s) :
    Kept a (State.secFail s) := by
  grind [State.secFail, State.loseKey_kept, State.dropSecOp_kept, State.event_kept, State.mk_kept, foldl_kept]

theorem execSecEngineFail_kept (h : Kept a s) :
    AnsKept a (execSecEngineFail s) := by
  grind [execSecEngineFail, AnsKept, State.secFail_kept]

theorem State.faultTile_kept (x1) (h : Kept a s) :
    Kept a (State.faultTile s x1) := by
  grind [State.faultTile, State.faultUsers_kept, foldl_kept]

theorem State.dropTile_kept (x1) (h : Kept a s) :
    Kept a (State.dropTile s x1) := by
  unfold State.dropTile
  dsimp only
  grind [State.routesChanged_kept, State.portDown_kept, State.takeSpare_kept, State.updUnit_kept,
    State.makeHole_kept, State.updLink_kept, foldl_kept]

theorem State.dropOwners_kept (x1) (h : Kept a s) :
    Kept a (State.dropOwners s x1) := by
  grind [State.dropOwners, State.startTeardown_kept, State.updPart_kept, foldl_kept]

theorem State.cutOff_kept (x1) (h : Kept a s) :
    Kept a (State.cutOff s x1) := by
  unfold State.cutOff
  extract_lets ts s1 m s2 s3 s4 s5 l s6
  have h1 : Kept a s1 := foldl_kept _ (fun _ _ hs => State.faultTile_kept _ hs) h
  have h2 : Kept a s2 := h1.same rfl rfl (Nat.le_refl _) rfl rfl
  have h3 : Kept a s3 := State.eventA_kept _ _ _ _ h2
  have h4 : Kept a s4 := foldl_kept _ (fun _ _ hs => State.dropTile_kept _ hs) h3
  have h5 : Kept a s5 := State.dropOwners_kept _ h4
  have h6 : Kept a s6 := by
    simp only [s6]
    split_ifs
    · exact State.event_kept _ _ (h5.same rfl rfl (Nat.le_refl _) rfl rfl)
    · exact h5
  clear_value s6
  split_ifs
  · exact State.secFail_kept h6
  · exact h6

theorem State.setBridges_kept (x1) (h : Kept a s) :
    Kept a (State.setBridges s x1) := by
  grind [State.setBridges, State.mk_kept]

theorem State.split_kept (h : Kept a s) :
    Kept a (State.split s) := by
  grind [State.split, State.cutOff_kept]

theorem execBridgeFail_kept (x1) (h : Kept a s) :
    AnsKept a (execBridgeFail x1 s) := by
  grind [execBridgeFail, AnsKept, State.setBridges_kept, State.split_kept, State.event_kept]

theorem State.startEnable_kept (x1) (h : Kept a s) :
    Kept a (State.startEnable s x1) := by
  grind [State.startEnable, State.eventP_kept, State.queueWake_kept, State.updPart_kept, State.mk_kept, foldl_kept]

theorem State.endEnable_kept (x1) (h : Kept a s) :
    Kept a (State.endEnable s x1) := by
  have h1 : Kept a { s with mem := { s.mem with nextKey := s.mem.nextKey + 1 } } :=
    h.same rfl rfl (Nat.le_refl _) rfl rfl
  unfold State.endEnable
  grind [State.updPart_kept, State.eventP_kept, State.startTeardown_kept, State.startReset_kept,
    State.lateFailures_kept]

theorem State.takeLeaf_kept (h : Kept a s) :
    Kept a (State.takeLeaf s).1 := by
  grind [State.takeLeaf, State.prsOwn_kept, State.event_kept, State.mk_kept]

theorem State.reportErr_kept (x1) (h : Kept a s) :
    Kept a (State.reportErr s x1) := by
  grind [State.reportErr, State.mk_kept]

theorem State.serveReport_kept (x1) (x2) (h : Kept a s) :
    Kept a (State.serveReport s x1 x2) := by
  grind [State.serveReport, State.reportErr_kept, State.takeLeaf_kept, State.mk_kept]

theorem State.secGo_kept (h : Kept a s) :
    Kept a (State.secGo s) := by
  grind [State.secGo, State.reportErr_kept, State.mk_kept]

theorem State.serveOp_kept (x1) (h : Kept a s) :
    Kept a (State.serveOp s x1) := by
  unfold State.serveOp
  grind [State.endTeardown_kept, State.endEnable_kept, State.serveReport_kept]

theorem execSecTurn_kept (h : Kept a s) :
    AnsKept a (execSecTurn s) := by
  grind [execSecTurn, AnsKept, State.serveOp_kept, State.mk_kept]

theorem State.revoke0_kept (h : Kept a s) :
    Kept a (State.revoke0 s) := by
  grind [State.revoke0, State.event_kept, State.mk_kept]

theorem State.writeSvnMin_kept (x1) (h : Kept a s) :
    Kept a (State.writeSvnMin s x1) := by
  grind [State.writeSvnMin, State.prsOwn_kept]

theorem State.writeParCtl_kept (x1) (x2) (x3) (h : Kept a s) :
    Kept a (State.writeParCtl s x1 x2 x3) := by
  grind [State.writeParCtl, State.startTeardown_kept, State.eventP_kept, State.startEnable_kept, State.updPart_kept,
    State.event_kept]

theorem State.readDescriptor_kept (h : Kept a s) :
    Kept a (State.readDescriptor s) := by
  grind [State.readDescriptor, State.event_kept, State.mk_kept]

theorem State.rampRails_kept (h : Kept a s) :
    Kept a (State.rampRails s) := by
  grind [State.rampRails, State.mk_kept, foldl_kept]

theorem State.countPowerCycle_kept (h : Kept a s) :
    Kept a (State.countPowerCycle s) := by
  grind [State.countPowerCycle, State.mk_kept]

theorem State.startS0_kept (x1) (h : Kept a s) :
    Kept a (State.startS0 s x1) := by
  unfold State.startS0
  extract_lets was s1 b0 bu m0 mods c0 sec l0 log s2 s3 s4 s5 s7
  have h1 : Kept a s1 := State.countPowerCycle_kept h
  have h2 : Kept a s2 := h1.same rfl rfl (Nat.le_refl _) rfl rfl
  have h3 : Kept a s3 := State.record_kept _ h2
  clear_value s3
  have h4 : Kept a s4 := by
    simp only [s4]
    split
    · exact State.resetRecord_kept _ _ h3
    · exact h3
  clear_value s4
  have h5 : Kept a s5 := State.wearEvents_kept _ _ h4
  clear_value s5
  have h7 : Kept a s7 := by
    simp only [s7]
    split_ifs
    · exact h5
    · exact State.event_kept _ _ h5
  exact State.rampRails_kept (State.readDescriptor_kept h7)

theorem State.wiped_kept (x1) (h : Kept a s) :
    Kept a (State.wiped s x1) :=
  h.trans ⟨rfl, rfl, Nat.le_refl _, List.prefix_refl _, fun _ => rfl⟩

theorem State.moduleReset_kept (x1) (x2) (h : Kept a s) :
    Kept a (State.moduleReset s x1 x2) := by
  grind [State.moduleReset, State.leaveGroups_kept, State.startS0_kept, State.wiped_kept, State.resetRecord_kept, foldl_kept]

theorem execPowerGood_kept (h : Kept a s) :
    AnsKept a (execPowerGood s) := by
  grind [execPowerGood, AnsKept, State.startS0_kept, State.mk_kept]

theorem execPowerLoss_kept (h : Kept a s) :
    AnsKept a (execPowerLoss s) := by
  grind [execPowerLoss, AnsKept, State.wiped_kept, State.mk_kept]

theorem execAlwaysOnRailUp_kept (h : Kept a s) :
    AnsKept a (execAlwaysOnRailUp s) := by
  grind [execAlwaysOnRailUp, AnsKept, State.mk_kept]

theorem State.setBu_kept (x1) (h : Kept a s) :
    Kept a (State.setBu s x1) := by
  grind [State.setBu, State.mk_kept]

theorem State.outcome_kept (x1) (x2) (h : Kept a s) :
    Kept a (State.outcome s x1 x2) := by
  grind [State.outcome, State.setBu_kept]

theorem State.buGo_kept (x1) (x2) (h : Kept a s) :
    Kept a (State.buGo s x1 x2) := by
  grind [State.buGo, State.setBu_kept, State.mk_kept]

theorem execBuStepDone_kept (h : Kept a s) :
    AnsKept a (execBuStepDone s) := by
  grind [execBuStepDone, AnsKept, State.setBu_kept, State.event_kept]

theorem State.beginS1_kept (h : Kept a s) :
    Kept a (State.beginS1 s) := by
  grind [State.beginS1, State.setBu_kept]

theorem State.mgmtLinks_kept (x1) (x2) (h : Kept a s) :
    Kept a (State.mgmtLinks s x1 x2) := by
  grind [State.mgmtLinks, State.updLink_kept, foldl_kept]

theorem execS1_kept (x1) (x2) (h : Kept a s) :
    AnsKept a (execS1 x1 x2 s) := by
  unfold execS1
  dsimp only
  grind [AnsKept, State.beginS1_kept, State.trainPort_kept, State.mgmtLinks_kept]

theorem execDescriptorFallbackTimeout_kept (h : Kept a s) :
    AnsKept a (execDescriptorFallbackTimeout s) := by
  grind [execDescriptorFallbackTimeout, AnsKept, State.setBu_kept, State.emit_kept, foldl_kept]

theorem execMgmtOffer_kept (x1) (x2) (x3) (h : Kept a s) :
    AnsKept a (execMgmtOffer x1 x2 x3 s) := by
  grind [execMgmtOffer, AnsKept, State.beginS1_kept, State.setBu_kept, State.mgmtLinks_kept, State.mk_kept]

theorem execS2_kept (h : Kept a s) :
    AnsKept a (execS2 s) := by
  unfold execS2
  dsimp only
  grind [AnsKept, State.outcome_kept, State.tickFree_kept, State.event_kept, State.mk_kept]

theorem State.loadChart_kept (h : Kept a s) :
    Kept a (State.loadChart s) := by
  grind [State.loadChart, State.updUnit_kept, State.event_kept, State.mk_kept, State.noteMapFull_kept, foldl_kept]

theorem State.dropCluster_kept (x1) (h : Kept a s) :
    Kept a (State.dropCluster s x1) := by
  grind [State.dropCluster, State.updUnit_kept, State.repairRec_kept, foldl_kept]

theorem execS3_kept (x1) (x2) (h : Kept a s) :
    AnsKept a (execS3 x1 x2 s) := by
  grind [execS3, AnsKept, State.loadChart_kept, State.setBridges_kept, State.outcome_kept, State.dropCluster_kept,
    State.split_kept, State.event_kept, foldl_kept]

theorem State.withdrawPort_kept (x1) (h : Kept a s) :
    Kept a (State.withdrawPort s x1) := by
  grind [State.withdrawPort, State.updBdp_kept, State.withdraw_kept, foldl_kept]

theorem State.dropPort_kept (x1) (h : Kept a s) :
    Kept a (State.dropPort s x1) := by
  grind [State.dropPort, State.withdrawPort_kept, State.repairRec_kept]

theorem State.dropChannel_kept (x1) (h : Kept a s) :
    Kept a (State.dropChannel s x1) := by
  grind [State.dropChannel, State.setBu_kept, State.withdraw_kept, State.repairRec_kept]

theorem State.applyRows_kept (h : Kept a s) :
    Kept a (State.applyRows s) := by
  grind [State.applyRows, State.updBdp_kept, State.updLpc_kept, foldl_kept]

theorem execS4_kept (x1) (x2) (h : Kept a s) :
    AnsKept a (execS4 x1 x2 s) := by
  grind [execS4, AnsKept, State.updBdp_kept, State.dropChannel_kept, State.outcome_kept, State.dropPort_kept,
    State.applyRows_kept, State.updLpc_kept, foldl_kept]

theorem State.testRow_kept (x1) (h : Kept a s) :
    Kept a (State.testRow s x1) := by
  grind [State.testRow, State.retireBd_kept, State.setBu_kept, State.retireLp_kept]

theorem execS5_kept (x1) (h : Kept a s) :
    AnsKept a (execS5 x1 s) := by
  unfold execS5
  extract_lets bad s1 m0 mem s2 s3
  have h1 : Kept a s1 := foldl_kept _ (fun _ _ hs => State.testRow_kept _ hs) h
  have h2 : Kept a { s1 with mem := mem } := h1.trans ⟨rfl, rfl, Nat.le_refl _, List.prefix_refl _, fun w => by
    simp only [State.memWf, MemState.wf, Bool.and_eq_true] at w
    simp only [State.memWf, MemState.wf, Bool.and_eq_true, mem]
    exact ⟨⟨rfl, rfl⟩, w.2⟩⟩
  have h3 : Kept a s2 := State.setBu_kept _ h2
  have h4 : Kept a s3 := by
    simp only [s3]
    split
    · exact State.event_kept _ _ (State.setBu_kept _ h3)
    · exact h3
  show Kept a _
  split
  · exact h
  · exact State.outcome_kept _ _ h4

theorem execS6_kept (x1) (h : Kept a s) :
    AnsKept a (execS6 x1 s) := by
  grind [execS6, AnsKept, State.outcome_kept, State.updUnit_kept, foldl_kept]

theorem State.reconcile_kept (x1) (h : Kept a s) :
    Kept a (State.reconcile s x1) := by
  grind [State.reconcile, State.updUnit_kept, State.repairRec_kept, State.event_kept, State.mk_kept]

theorem State.setRole_kept (x1) (x2) (h : Kept a s) :
    Kept a (State.setRole s x1 x2) := by
  grind [State.setRole, State.updUnit_kept]

theorem State.assignCluster_kept (x1) (h : Kept a s) :
    Kept a (State.assignCluster s x1) := by
  grind [State.assignCluster, State.setRole_kept, State.event_kept, foldl_kept]

theorem State.assignHelms_kept (x1) (h : Kept a s) :
    Kept a (State.assignHelms s x1) := by
  grind [State.assignHelms, State.setRole_kept, foldl_kept]

theorem State.fillHelms_kept (x1) (h : Kept a s) :
    Kept a (State.fillHelms s x1) := by
  grind [State.fillHelms, State.setRole_kept, State.event_kept, foldl_kept]

theorem State.assignSingles_kept (h : Kept a s) :
    Kept a (State.assignSingles s) := by
  grind [State.assignSingles, State.setRole_kept, foldl_kept]

theorem State.numberCores_kept (h : Kept a s) :
    Kept a (State.numberCores s) := by
  grind [State.numberCores, State.mk_kept]

theorem State.repairPackages_kept (x1) (h : Kept a s) :
    Kept a (State.repairPackages s x1) := by
  grind [State.repairPackages, State.prsOwn_kept, State.updLpc_kept, State.event_kept, foldl_kept]

theorem State.gateIdle_kept (h : Kept a s) :
    Kept a (State.gateIdle s) := by
  grind [State.gateIdle, State.gateCluster_kept, foldl_kept]

theorem execS7_kept (x1) (h : Kept a s) :
    AnsKept a (execS7 x1 s) := by
  unfold execS7
  extract_lets s1 t1 t2 t3 t4 c t5 t6
  have h1 : Kept a s1 := foldl_kept _ (fun _ _ hs => State.reconcile_kept _ hs) h
  have k1 : Kept a t1 := foldl_kept _ (fun _ _ hs => State.assignCluster_kept _ hs) h1
  have k2 : Kept a t2 := foldl_kept _ (fun _ _ hs => State.assignHelms_kept _ hs) k1
  have k3 : Kept a t3 := State.assignSingles_kept (foldl_kept _ (fun _ _ hs => State.fillHelms_kept _ hs) k2)
  have k4 : Kept a t4 := State.gateIdle_kept (State.repairPackages_kept _
    (State.numberCores_kept k3))
  clear_value t4
  have k5 : Kept a t5 := k4.same rfl rfl (Nat.le_refl _) rfl rfl
  have k6 : Kept a t6 := State.setBu_kept _ k5
  show Kept a _
  split
  · exact h
  · split
    · extract_lets s2
      refine State.outcome_kept _ _ ?_
      simp only [s2]
      split
      · exact State.setBu_kept _ h1
      · exact h1
    · exact State.outcome_kept _ _ k6

theorem execS8_kept (x1) (h : Kept a s) :
    AnsKept a (execS8 x1 s) := by
  grind [execS8, AnsKept, State.routesChanged_kept, State.trainBody_kept, State.outcome_kept, State.updLink_kept,
    foldl_kept]

theorem State.enableDefault_kept (x1) (x2) (h : Kept a s) :
    Kept a (State.enableDefault s x1 x2) := by
  grind [State.enableDefault, State.eventP_kept, State.startEnable_kept, State.updPart_kept]

theorem execS9_kept (h : Kept a s) :
    AnsKept a (execS9 s) := by
  grind [execS9, AnsKept, State.enableDefault_kept, State.outcome_kept, foldl_kept]

theorem execS10_kept (h : Kept a s) :
    AnsKept a (execS10 s) := by
  grind [execS10, AnsKept, State.outcome_kept]

theorem State.updRail_kept (x1) (x2) (h : Kept a s) :
    Kept a (State.updRail s x1 x2) := by
  grind [State.updRail, State.mk_kept]

theorem State.setEpisode_kept (x1) (x2) (h : Kept a s) :
    Kept a (State.setEpisode s x1 x2) := by
  unfold State.setEpisode
  dsimp only
  grind [State.mk_kept]

theorem State.countEpisode_kept (x1) (h : Kept a s) :
    Kept a (State.countEpisode s x1) := by
  unfold State.countEpisode
  dsimp only
  grind [State.mk_kept]

theorem State.followEpisode_kept (x1) (x2) (h : Kept a s) :
    Kept a (State.followEpisode s x1 x2) := by
  grind [State.followEpisode, State.setEpisode_kept, State.countEpisode_kept, State.event_kept]

theorem State.followEpisodes_kept (x1) (h : Kept a s) :
    Kept a (State.followEpisodes s x1) := by
  grind [State.followEpisodes, State.followEpisode_kept, foldl_kept]

theorem execInputSample_kept (x1) (x2) (h : Kept a s) :
    AnsKept a (execInputSample x1 x2 s) := by
  grind [execInputSample, AnsKept, State.followEpisodes_kept, State.mk_kept]

theorem execInputLowTimeout_kept (h : Kept a s) :
    AnsKept a (execInputLowTimeout s) := by
  grind [execInputLowTimeout, AnsKept, State.followEpisodes_kept, State.mk_kept]

theorem execInputRecoveryTimeout_kept (h : Kept a s) :
    AnsKept a (execInputRecoveryTimeout s) := by
  grind [execInputRecoveryTimeout, AnsKept, State.mk_kept]

theorem execClockRestoreTick_kept (h : Kept a s) :
    AnsKept a (execClockRestoreTick s) := by
  grind [execClockRestoreTick, AnsKept, State.followEpisodes_kept, State.mk_kept]

theorem execBrownoutTimeout_kept (h : Kept a s) :
    AnsKept a (execBrownoutTimeout s) := by
  grind [execBrownoutTimeout, AnsKept, State.moduleReset_kept]

theorem execMgmtWatchdog_kept (h : Kept a s) :
    AnsKept a (execMgmtWatchdog s) := by
  grind [execMgmtWatchdog, AnsKept, State.moduleReset_kept]

theorem State.retirePhase_kept (x1) (x2) (h : Kept a s) :
    Kept a (State.retirePhase s x1 x2) := by
  grind [State.retirePhase, State.moduleReset_kept, State.updRail_kept, State.repairRec_kept, State.event_kept]

theorem execPhaseFault_kept (x1) (x2) (h : Kept a s) :
    AnsKept a (execPhaseFault x1 x2 s) := by
  grind [execPhaseFault, AnsKept, State.retirePhase_kept]

theorem execRailFault_kept (x1) (x2) (h : Kept a s) :
    AnsKept a (execRailFault x1 x2 s) := by
  unfold execRailFault
  grind [AnsKept, State.moduleReset_kept, State.retirePhase_kept]

theorem execLocalDroop_kept (x1) (h : Kept a s) :
    AnsKept a (execLocalDroop x1 s) := by
  grind [execLocalDroop, AnsKept, State.updIsland_kept]

theorem execLocalDroopRelease_kept (x1) (h : Kept a s) :
    AnsKept a (execLocalDroopRelease x1 s) := by
  grind [execLocalDroopRelease, AnsKept, State.updIsland_kept]

theorem execPowerWindow_kept (x1) (h : Kept a s) :
    AnsKept a (execPowerWindow x1 s) := by
  grind [execPowerWindow, AnsKept, State.tickFree_kept, State.mk_kept, foldl_kept]

theorem execStretchStepTick_kept (h : Kept a s) :
    AnsKept a (execStretchStepTick s) := by
  grind [execStretchStepTick, AnsKept, State.followEpisodes_kept, State.mk_kept, foldl_kept]

theorem State.endTrip_kept (h : Kept a s) :
    Kept a (State.endTrip s) := by
  grind [State.endTrip, State.outcome_kept, State.mk_kept]

theorem execThermalSample_kept (x1) (x2) (h : Kept a s) :
    AnsKept a (execThermalSample x1 x2 s) := by
  grind [execThermalSample, AnsKept, State.moduleReset_kept, State.endTrip_kept, State.tickFree_kept,
    State.followEpisodes_kept, State.mk_kept]

theorem execClusterIdleTimeout_kept (x1) (h : Kept a s) :
    AnsKept a (execClusterIdleTimeout x1 s) := by
  grind [execClusterIdleTimeout, AnsKept, State.updIsland_kept]

theorem execMemoryIdleTimeout_kept (x1) (h : Kept a s) :
    AnsKept a (execMemoryIdleTimeout x1 s) := by
  grind [execMemoryIdleTimeout, AnsKept, State.updIsland_kept]

theorem execWakeRequest_kept (x1) (h : Kept a s) :
    AnsKept a (execWakeRequest x1 s) := by
  grind [execWakeRequest, AnsKept, State.queueWake_kept]

theorem execWakeSlot_kept (x1) (h : Kept a s) :
    AnsKept a (execWakeSlot x1 s) := by
  grind [execWakeSlot, AnsKept, State.updIsland_kept, State.mk_kept]

end Sys2Proof.Machine
end

