-- ==== Sys2Proof/Laws/KeepRegs.lean ====
section
/-! SUPPORT. What `Kept` says of the registers and the management path. -/

namespace Sys2Proof.Machine

set_option maxRecDepth 4000
set_option Elab.async false

variable {a s : State}

theorem State.field_kept (x1) (x2) (x3) (h : Kept a s) (h3 : ∀ y0, Kept a y0 → Kept a (x3 y0)) :
    Kept a (State.field s x1 x2 x3) := by
  grind [State.field, State.event_kept]

theorem State.writeCoord_kept (x1) (x2) (h : Kept a s) :
    Kept a (State.writeCoord s x1 x2) := by
  grind [State.writeCoord, State.field_kept, State.mk_kept]

theorem State.writeBuCtl_kept (x1) (x2) (h : Kept a s) :
    Kept a (State.writeBuCtl s x1 x2) := by
  grind [State.writeBuCtl, State.field_kept, State.buGo_kept]

theorem State.writeReset_kept (x1) (x2) (h : Kept a s) :
    Kept a (State.writeReset s x1 x2) := by
  grind [State.writeReset, State.moduleReset_kept, State.field_kept, State.resetErr_kept, State.hostReset_kept,
    State.mk_kept]

theorem State.writeMod_kept (x1) (x2) (x3) (h : Kept a s) :
    Kept a (State.writeMod s x1 x2 x3) := by
  unfold State.writeMod
  dsimp only
  grind [State.writeBuCtl_kept, State.writeCoord_kept, State.field_kept, State.setBu_kept, State.writeReset_kept,
    State.mk_kept]

theorem State.writePwr_kept (x1) (x2) (x3) (h : Kept a s) :
    Kept a (State.writePwr s x1 x2 x3) := by
  unfold State.writePwr
  dsimp only
  grind [State.field_kept, State.mk_kept]

theorem State.setPrs_kept (x1) (h : Kept a s) :
    Kept a (State.setPrs s x1) := by
  grind [State.setPrs, State.mk_kept]

theorem State.dropHalves_kept (h : Kept a s) :
    Kept a (State.dropHalves s) := by
  grind [State.dropHalves, State.setPrs_kept]

theorem State.commitHost_kept (x1) (x2) (x3) (h : Kept a s) :
    Kept a (State.commitHost s x1 x2 x3) := by
  grind [State.commitHost, State.setPrs_kept, State.event_kept]

theorem State.writeOwner_kept (x1) (x2) (x3) (h : Kept a s) :
    Kept a (State.writeOwner s x1 x2 x3) := by
  grind [State.writeOwner, State.setPrs_kept, foldl_kept]

theorem State.writePrsHalf_kept (x1) (x2) (x3) (x4) (h : Kept a s) :
    Kept a (State.writePrsHalf s x1 x2 x3 x4) := by
  grind [State.writePrsHalf, State.setPrs_kept, State.writeOwner_kept, State.commitHost_kept, State.dropHalves_kept]

theorem State.remapGo_kept (h : Kept a s) :
    Kept a (State.remapGo s) := by
  grind [State.remapGo, State.setPrs_kept, State.event_kept]

theorem State.writePrsCtl_kept (x1) (h : Kept a s) :
    Kept a (State.writePrsCtl s x1) := by
  grind [State.writePrsCtl, State.setPrs_kept, State.remapGo_kept, State.dropHalves_kept]

theorem State.logClear_kept (x1) (h : Kept a s) :
    Kept a (State.logClear s x1) := by
  grind [State.logClear, State.record_kept, State.mk_kept]

theorem State.logPclear_kept (x1) (h : Kept a s) :
    Kept a (State.logPclear s x1) := by
  grind [State.logPclear, State.prsOwn_kept, State.record_kept]

theorem State.writeLog_kept (x1) (x2) (x3) (h : Kept a s) :
    Kept a (State.writeLog s x1 x2 x3) := by
  unfold State.writeLog
  dsimp only
  grind [State.field_kept, State.logPclear_kept, State.logClear_kept, State.mk_kept]

theorem State.writeSecReq_kept (x1) (x2) (h : Kept a s) :
    Kept a (State.writeSecReq s x1 x2) := by
  grind [State.writeSecReq, State.field_kept, State.secGo_kept, State.mk_kept]

theorem State.writeSec_kept (x1) (x2) (x3) (h : Kept a s) :
    Kept a (State.writeSec s x1 x2 x3) := by
  unfold State.writeSec
  dsimp only
  grind [State.revoke0_kept, State.writeSecReq_kept, State.writeSvnMin_kept, State.mk_kept]

theorem State.doorbell_kept (x1) (x2) (x3) (x4) (h : Kept a s) :
    Kept a (State.doorbell s x1 x2 x3 x4) := by
  grind [State.doorbell, State.stopQueue_kept, State.eventP_kept, State.updQueue_kept]

theorem State.queueOn_kept (x1) (x2) (h : Kept a s) :
    Kept a (State.queueOn s x1 x2) := by
  grind [State.queueOn, State.updQueue_kept]

theorem State.queueOff_kept (x1) (x2) (h : Kept a s) :
    Kept a (State.queueOff s x1 x2) := by
  grind [State.queueOff, State.returnFetched_kept, State.updQueue_kept]

theorem State.queueStop_kept (x1) (x2) (h : Kept a s) :
    Kept a (State.queueStop s x1 x2) := by
  grind [State.queueStop, State.stopQueue_kept]

theorem State.queueResume_kept (x1) (x2) (h : Kept a s) :
    Kept a (State.queueResume s x1 x2) := by
  grind [State.queueResume, State.flushHeld_kept, State.updQueue_kept]

theorem State.writeLog2n_kept (x1) (x2) (x3) (x4) (h : Kept a s) :
    Kept a (State.writeLog2n s x1 x2 x3 x4) := by
  grind [State.writeLog2n, State.eventP_kept, State.field_kept, State.updQueue_kept]

theorem State.writeQueueCtl_kept (x1) (x2) (x3) (x4) (h : Kept a s) :
    Kept a (State.writeQueueCtl s x1 x2 x3 x4) := by
  grind [State.writeQueueCtl, State.writeLog2n_kept, State.queueStop_kept, State.queueOn_kept, State.queueOff_kept,
    State.queueResume_kept, State.updQueue_kept]

theorem State.writeHead_kept (x1) (x2) (x3) (h : Kept a s) :
    Kept a (State.writeHead s x1 x2 x3) := by
  grind [State.writeHead, State.updQueue_kept]

theorem State.writeRing_kept (x1) (x2) (x3) (x4) (h : Kept a s) :
    Kept a (State.writeRing s x1 x2 x3 x4) := by
  grind [State.writeRing, State.eventP_kept, State.updQueue_kept]

theorem State.writeQueue_kept (x1) (x2) (x3) (x4) (x5) (h : Kept a s) :
    Kept a (State.writeQueue s x1 x2 x3 x4 x5) := by
  unfold State.writeQueue
  grind [State.doorbell_kept, State.writeHead_kept, State.writeRing_kept, State.updQueue_kept, State.writeQueueCtl_kept]

theorem State.writeXlt_kept (x1) (x2) (h : Kept a s) :
    Kept a (State.writeXlt s x1 x2) := by
  grind [State.writeXlt, State.invalidate_kept, State.updPart_kept, State.kvRebuild_kept]

theorem State.writeInv_kept (x1) (x2) (x3) (h : Kept a s) (h3 : ∀ y0, Kept a y0 → Kept a (x3 y0)) :
    Kept a (State.writeInv s x1 x2 x3) := by
  grind [State.writeInv, State.eventP_kept]

theorem State.updInv_kept (x1) (x2) (h : Kept a s) :
    Kept a (State.updInv s x1 x2) := by
  grind [State.updInv, State.updPart_kept]

theorem State.writeInvCtl_kept (x1) (x2) (x3) (h : Kept a s) :
    Kept a (State.writeInvCtl s x1 x2 x3) := by
  grind [State.writeInvCtl, State.field_kept, State.updInv_kept]

theorem State.updPlt_kept (x1) (x2) (h : Kept a s) :
    Kept a (State.updPlt s x1 x2) := by
  grind [State.updPlt, State.updPart_kept]

theorem State.writePltCtl_kept (x1) (x2) (h : Kept a s) :
    Kept a (State.writePltCtl s x1 x2) := by
  grind [State.writePltCtl, State.pilotOff_kept, State.pilotOn_kept, State.updPlt_kept]

theorem State.writeStage_kept (x1) (x2) (x3) (x4) (h : Kept a s) :
    Kept a (State.writeStage s x1 x2 x3 x4) := by
  grind [State.writeStage, State.field_kept, State.updPart_kept]

theorem State.writeGenCtl_kept (x1) (x2) (h : Kept a s) :
    Kept a (State.writeGenCtl s x1 x2) := by
  grind [State.writeGenCtl, State.genParkOn_kept, State.genOn_kept, State.genOff_kept, State.genParkOff_kept]

theorem State.writeGenDesc_kept (x1) (x2) (h : Kept a s) :
    Kept a (State.writeGenDesc s x1 x2) := by
  grind [State.writeGenDesc, State.updPart_kept]

theorem State.writeSndCtl_kept (x1) (x2) (x3) (h : Kept a s) :
    Kept a (State.writeSndCtl s x1 x2 x3) := by
  grind [State.writeSndCtl, State.updSnd_kept, State.sndOn_kept, State.field_kept]

theorem State.writeSndBase_kept (x1) (x2) (h : Kept a s) :
    Kept a (State.writeSndBase s x1 x2) := by
  grind [State.writeSndBase, State.updSnd_kept]

theorem State.writeUpd_kept (x1) (x2) (h : Kept a s) (h2 : ∀ y0, Kept a y0 → Kept a (x2 y0)) :
    Kept a (State.writeUpd s x1 x2) := by
  grind [State.writeUpd]

theorem State.updTack_kept (x1) (x2) (h : Kept a s) :
    Kept a (State.updTack s x1 x2) := by
  grind [State.updTack, State.updPart_kept]

theorem State.writeEvcAdd_kept (x1) (x2) (h : Kept a s) :
    Kept a (State.writeEvcAdd s x1 x2) := by
  grind [State.writeEvcAdd, State.evcAdd_kept]

theorem State.writeOwn_kept (x1) (x2) (x3) (x4) (h : Kept a s) :
    Kept a (State.writeOwn s x1 x2 x3 x4) := by
  unfold State.writeOwn
  dsimp only
  grind [State.writeGenCtl_kept, State.writeSndCtl_kept, State.writeQueue_kept, State.genDoorbell_kept,
    State.writeSndBase_kept, State.writeStage_kept, State.updTack_kept, State.writeGenDesc_kept, State.updSnd_kept,
    State.field_kept, State.writeInv_kept, State.writePltCtl_kept, State.genEvtHead_kept, State.updPlt_kept,
    State.writeEvcAdd_kept, State.writeXlt_kept, State.updInv_kept, State.updPart_kept, State.writeUpd_kept,
    State.writeInvCtl_kept]

theorem State.writeComp_kept (x1) (x2) (x3) (h : Kept a s) (h3 : ∀ y0, Kept a y0 → Kept a (x3 y0)) :
    Kept a (State.writeComp s x1 x2 x3) := by
  grind [State.writeComp, State.eventP_kept]

theorem State.writePar_kept (x1) (x2) (x3) (x4) (h : Kept a s) :
    Kept a (State.writePar s x1 x2 x3 x4) := by
  unfold State.writePar
  grind [State.writeParCtl_kept, State.eventP_kept, State.writeOwn_kept, State.writeComp_kept, State.field_kept,
    State.updPart_kept]

theorem State.writeUlCtl_kept (x1) (x2) (h : Kept a s) :
    Kept a (State.writeUlCtl s x1 x2) := by
  grind [State.writeUlCtl, State.ulQclr_kept, State.ulDisable_kept, State.ulRetrain_kept]

theorem State.writePlCtl_kept (x1) (x2) (x3) (h : Kept a s) :
    Kept a (State.writePlCtl s x1 x2 x3) := by
  grind [State.writePlCtl, State.plDisable_kept, State.field_kept, State.plQclr_kept, State.plRetrain_kept,
    State.updLink_kept]

theorem State.writeBdp_kept (x1) (x2) (x3) (x4) (h : Kept a s) :
    Kept a (State.writeBdp s x1 x2 x3 x4) := by
  unfold State.writeBdp
  dsimp only
  grind [State.updBdp_kept, State.field_kept]

theorem State.writeLpc_kept (x1) (x2) (x3) (x4) (h : Kept a s) :
    Kept a (State.writeLpc s x1 x2 x3 x4) := by
  unfold State.writeLpc
  dsimp only
  grind [State.field_kept, State.updLpc_kept]

theorem State.writeReg_kept (x1) (x2) (x3) (h : Kept a s) :
    Kept a (State.writeReg s x1 x2 x3) := by
  unfold State.writeReg
  dsimp only
  grind [State.writeSec_kept, State.writeLpc_kept, State.writePwr_kept, State.setPrs_kept, State.writePrsHalf_kept,
    State.writePlCtl_kept, State.writeLog_kept, State.writeMod_kept, State.writePar_kept, State.writePrsCtl_kept,
    State.writeBdp_kept, State.dropHalves_kept, State.writeUlCtl_kept, State.mk_kept]

theorem State.writeAddr_kept (x1) (x2) (x3) (h : Kept a s) :
    Kept a (State.writeAddr s x1 x2 x3) := by
  grind [State.writeAddr, State.writeReg_kept, State.dropHalves_kept, State.event_kept]

theorem State.snapshot_kept (x1) (h : Kept a s) :
    Kept a (State.snapshot s x1) := by
  unfold State.snapshot
  dsimp only
  grind [State.countCycles_kept, State.updLoom_kept, State.updCore_kept, State.updPart_kept, State.mk_kept]

theorem State.readAddr_kept (x1) (x2) (h : Kept a s) :
    Kept a (State.readAddr s x1 x2) := by
  grind [State.readAddr, State.snapshot_kept, State.emit_kept, State.event_kept]

theorem execPersistentRingWrite_kept (h : Kept a s) :
    AnsKept a (execPersistentRingWrite s) := by
  grind [execPersistentRingWrite, AnsKept, State.tickFree_kept, State.mk_kept]

theorem execPdropBucketRefill_kept (h : Kept a s) :
    AnsKept a (execPdropBucketRefill s) := by
  grind [execPdropBucketRefill, AnsKept, State.mk_kept]

theorem execLogRingFail_kept (h : Kept a s) :
    AnsKept a (execLogRingFail s) := by
  grind [execLogRingFail, AnsKept, State.event_kept, State.mk_kept]

theorem execOptimeCommit_kept (x1) (h : Kept a s) :
    AnsKept a (execOptimeCommit x1 s) := by
  grind [execOptimeCommit, AnsKept, State.prsOwn_kept, State.mk_kept]

theorem execMgmtVioAppear_kept (h : Kept a s) :
    AnsKept a (execMgmtVioAppear s) := by
  grind [execMgmtVioAppear, AnsKept, State.mk_kept]

theorem execMgmtVioLoss_kept (h : Kept a s) :
    AnsKept a (execMgmtVioLoss s) := by
  grind [execMgmtVioLoss, AnsKept, State.mk_kept]

theorem State.setI3c_kept (x1) (h : Kept a s) :
    Kept a (State.setI3c s x1) := by
  grind [State.setI3c, State.mk_kept]

theorem execI3cSetdasa_kept (x1) (h : Kept a s) :
    AnsKept a (execI3cSetdasa x1 s) := by
  grind [execI3cSetdasa, AnsKept, State.setI3c_kept]

theorem execI3cEntdaa_kept (x1) (h : Kept a s) :
    AnsKept a (execI3cEntdaa x1 s) := by
  grind [execI3cEntdaa, AnsKept, State.setI3c_kept, State.emit_kept]

theorem execI3cEnec_kept (h : Kept a s) :
    AnsKept a (execI3cEnec s) := by
  grind [execI3cEnec, AnsKept, State.setI3c_kept]

theorem execI3cAddressWrite_kept (x1) (h : Kept a s) :
    AnsKept a (execI3cAddressWrite x1 s) := by
  grind [execI3cAddressWrite, AnsKept, State.setI3c_kept, State.emit_kept]

theorem State.i3cWord_kept (x1) (h : Kept a s) :
    Kept a (State.i3cWord s x1).1 := by
  grind [State.i3cWord, State.setI3c_kept]

theorem i3cWords_kept (x1) (x2) (h : Kept a s) :
    Kept a (i3cWords x1 x2 s).1 := by
  fun_induction i3cWords <;> grind [State.i3cWord_kept]

theorem execI3cRead_kept (x1) (h : Kept a s) :
    AnsKept a (execI3cRead x1 s) := by
  grind [execI3cRead, AnsKept, State.setI3c_kept, i3cWords_kept, State.emit_kept]

theorem State.hostResponse_kept (x1) (x2) (x3) (h : Kept a s) :
    Kept a (State.hostResponse s x1 x2 x3) :=
  foldl_kept _ (fun _ _ hs => State.updTier_bytes_kept hs _ fun _ => rfl) (State.rawWrite_kept h _ _ _ _)

theorem execHostMemoryResponse_kept (x1) (x2) (x3) (x4) (x5) (h : Kept a s) :
    AnsKept a (execHostMemoryResponse x1 x2 x3 x4 x5 s) := by
  unfold execHostMemoryResponse
  grind [AnsKept, State.hostResponse_kept, State.ulViolation_kept, State.updPort_kept, State.emit_kept]

theorem execQueueDoorbell_kept (x1) (x2) (x3) (x4) (h : Kept a s) :
    AnsKept a (execQueueDoorbell x1 x2 x3 x4 s) := by
  grind [execQueueDoorbell, AnsKept, State.writeAddr_kept]

theorem execQueueEnable_kept (x1) (x2) (x3) (x4) (h : Kept a s) :
    AnsKept a (execQueueEnable x1 x2 x3 x4 s) := by
  grind [execQueueEnable, AnsKept, State.writeAddr_kept]

theorem execQueueDisable_kept (x1) (x2) (x3) (x4) (h : Kept a s) :
    AnsKept a (execQueueDisable x1 x2 x3 x4 s) := by
  grind [execQueueDisable, AnsKept, State.writeAddr_kept]

theorem execParQStop_kept (x1) (x2) (x3) (x4) (h : Kept a s) :
    AnsKept a (execParQStop x1 x2 x3 x4 s) := by
  grind [execParQStop, AnsKept, State.writeAddr_kept]

theorem execParQResume_kept (x1) (x2) (x3) (x4) (h : Kept a s) :
    AnsKept a (execParQResume x1 x2 x3 x4 s) := by
  grind [execParQResume, AnsKept, State.writeAddr_kept]

theorem execQueueHeadWrite_kept (x1) (x2) (x3) (x4) (h : Kept a s) :
    AnsKept a (execQueueHeadWrite x1 x2 x3 x4 s) := by
  grind [execQueueHeadWrite, AnsKept, State.writeAddr_kept]

theorem execEvcAdd_kept (x1) (x2) (x3) (h : Kept a s) :
    AnsKept a (execEvcAdd x1 x2 x3 s) := by
  grind [execEvcAdd, AnsKept, State.writeAddr_kept]

theorem execXltRootWrite_kept (x1) (x2) (x3) (x4) (h : Kept a s) :
    AnsKept a (execXltRootWrite x1 x2 x3 x4 s) := by
  grind [execXltRootWrite, AnsKept, State.writeAddr_kept]

theorem execXltInvalidate_kept (x1) (x2) (x3) (h : Kept a s) :
    AnsKept a (execXltInvalidate x1 x2 x3 s) := by
  grind [execXltInvalidate, AnsKept, State.writeAddr_kept]

theorem execPilotEnable_kept (x1) (x2) (x3) (h : Kept a s) :
    AnsKept a (execPilotEnable x1 x2 x3 s) := by
  grind [execPilotEnable, AnsKept, State.writeAddr_kept]

theorem execPilotDisable_kept (x1) (x2) (x3) (h : Kept a s) :
    AnsKept a (execPilotDisable x1 x2 x3 s) := by
  grind [execPilotDisable, AnsKept, State.writeAddr_kept]

theorem execGenEnable_kept (x1) (x2) (x3) (h : Kept a s) :
    AnsKept a (execGenEnable x1 x2 x3 s) := by
  grind [execGenEnable, AnsKept, State.writeAddr_kept]

theorem execGenDisable_kept (x1) (x2) (x3) (h : Kept a s) :
    AnsKept a (execGenDisable x1 x2 x3 s) := by
  grind [execGenDisable, AnsKept, State.writeAddr_kept]

theorem execGenPark_kept (x1) (x2) (x3) (h : Kept a s) :
    AnsKept a (execGenPark x1 x2 x3 s) := by
  grind [execGenPark, AnsKept, State.writeAddr_kept]

theorem execGenUnpark_kept (x1) (x2) (x3) (h : Kept a s) :
    AnsKept a (execGenUnpark x1 x2 x3 s) := by
  grind [execGenUnpark, AnsKept, State.writeAddr_kept]

theorem execGenReqDoorbell_kept (x1) (x2) (x3) (h : Kept a s) :
    AnsKept a (execGenReqDoorbell x1 x2 x3 s) := by
  grind [execGenReqDoorbell, AnsKept, State.writeAddr_kept]

theorem execSndEnable_kept (x1) (x2) (x3) (h : Kept a s) :
    AnsKept a (execSndEnable x1 x2 x3 s) := by
  grind [execSndEnable, AnsKept, State.writeAddr_kept]

theorem execPartitionEnable_kept (x1) (x2) (x3) (h : Kept a s) :
    AnsKept a (execPartitionEnable x1 x2 x3 s) := by
  grind [execPartitionEnable, AnsKept, State.writeAddr_kept]

theorem execPartitionTeardown_kept (x1) (x2) (x3) (h : Kept a s) :
    AnsKept a (execPartitionTeardown x1 x2 x3 s) := by
  grind [execPartitionTeardown, AnsKept, State.writeAddr_kept]

theorem execCoreReset_kept (x1) (x2) (h : Kept a s) :
    AnsKept a (execCoreReset x1 x2 s) := by
  grind [execCoreReset, AnsKept, State.writeAddr_kept]

theorem execClusterReset_kept (x1) (x2) (h : Kept a s) :
    AnsKept a (execClusterReset x1 x2 s) := by
  grind [execClusterReset, AnsKept, State.writeAddr_kept]

theorem execPartitionReset_kept (x1) (x2) (x3) (h : Kept a s) :
    AnsKept a (execPartitionReset x1 x2 x3 s) := by
  grind [execPartitionReset, AnsKept, State.writeAddr_kept]

theorem execModuleReset_kept (x1) (h : Kept a s) :
    AnsKept a (execModuleReset x1 s) := by
  grind [execModuleReset, AnsKept, State.writeAddr_kept]

theorem execPartitionReport_kept (x1) (x2) (h : Kept a s) :
    AnsKept a (execPartitionReport x1 x2 s) := by
  grind [execPartitionReport, AnsKept, State.writeAddr_kept]

theorem execModuleReport_kept (x1) (h : Kept a s) :
    AnsKept a (execModuleReport x1 s) := by
  grind [execModuleReport, AnsKept, State.writeAddr_kept]

theorem execSecRevoke0_kept (x1) (h : Kept a s) :
    AnsKept a (execSecRevoke0 x1 s) := by
  grind [execSecRevoke0, AnsKept, State.writeAddr_kept]

theorem execSecSvnMinWrite_kept (x1) (x2) (h : Kept a s) :
    AnsKept a (execSecSvnMinWrite x1 x2 s) := by
  grind [execSecSvnMinWrite, AnsKept, State.writeAddr_kept]

theorem execPrsLoWrite_kept (x1) (x2) (x3) (h : Kept a s) :
    AnsKept a (execPrsLoWrite x1 x2 x3 s) := by
  grind [execPrsLoWrite, AnsKept, State.writeAddr_kept]

theorem execPrsHiWrite_kept (x1) (x2) (x3) (h : Kept a s) :
    AnsKept a (execPrsHiWrite x1 x2 x3 s) := by
  grind [execPrsHiWrite, AnsKept, State.writeAddr_kept]

theorem execPrsRemapGo_kept (x1) (h : Kept a s) :
    AnsKept a (execPrsRemapGo x1 s) := by
  grind [execPrsRemapGo, AnsKept, State.writeAddr_kept]

theorem execLogClr_kept (x1) (h : Kept a s) :
    AnsKept a (execLogClr x1 s) := by
  grind [execLogClr, AnsKept, State.writeAddr_kept]

theorem execLogPclear_kept (x1) (h : Kept a s) :
    AnsKept a (execLogPclear x1 s) := by
  grind [execLogPclear, AnsKept, State.writeAddr_kept]

theorem execPlDisable_kept (x1) (x2) (x3) (h : Kept a s) :
    AnsKept a (execPlDisable x1 x2 x3 s) := by
  grind [execPlDisable, AnsKept, State.writeAddr_kept]

theorem execPlRetrain_kept (x1) (x2) (h : Kept a s) :
    AnsKept a (execPlRetrain x1 x2 s) := by
  grind [execPlRetrain, AnsKept, State.writeAddr_kept]

theorem execPlQclr_kept (x1) (x2) (h : Kept a s) :
    AnsKept a (execPlQclr x1 x2 s) := by
  grind [execPlQclr, AnsKept, State.writeAddr_kept]

theorem execUlDisable_kept (x1) (x2) (x3) (h : Kept a s) :
    AnsKept a (execUlDisable x1 x2 x3 s) := by
  grind [execUlDisable, AnsKept, State.writeAddr_kept]

theorem execUlRetrain_kept (x1) (x2) (h : Kept a s) :
    AnsKept a (execUlRetrain x1 x2 s) := by
  grind [execUlRetrain, AnsKept, State.writeAddr_kept]

theorem execUlQclr_kept (x1) (x2) (h : Kept a s) :
    AnsKept a (execUlQclr x1 x2 s) := by
  grind [execUlQclr, AnsKept, State.writeAddr_kept]

theorem execCoreCyclesRead_kept (x1) (x2) (h : Kept a s) :
    AnsKept a (execCoreCyclesRead x1 x2 s) := by
  grind [execCoreCyclesRead, AnsKept, State.readAddr_kept]

theorem execEvcValRead_kept (x1) (x2) (h : Kept a s) :
    AnsKept a (execEvcValRead x1 x2 s) := by
  grind [execEvcValRead, AnsKept, State.readAddr_kept]

theorem execGenStepRead_kept (x1) (x2) (h : Kept a s) :
    AnsKept a (execGenStepRead x1 x2 s) := by
  grind [execGenStepRead, AnsKept, State.readAddr_kept]

theorem execColLastRead_kept (x1) (x2) (h : Kept a s) :
    AnsKept a (execColLastRead x1 x2 s) := by
  grind [execColLastRead, AnsKept, State.readAddr_kept]

theorem execLoomBytesRead_kept (x1) (x2) (h : Kept a s) :
    AnsKept a (execLoomBytesRead x1 x2 s) := by
  grind [execLoomBytesRead, AnsKept, State.readAddr_kept]

theorem execSecLeafRead_kept (x1) (h : Kept a s) :
    AnsKept a (execSecLeafRead x1 s) := by
  grind [execSecLeafRead, AnsKept, State.readAddr_kept]

theorem execLogValueRead_kept (x1) (x2) (h : Kept a s) :
    AnsKept a (execLogValueRead x1 x2 s) := by
  grind [execLogValueRead, AnsKept, State.readAddr_kept]

theorem execReservedAddressAccess_kept (x1) (x2) (x3) (h : Kept a s) :
    AnsKept a (execReservedAddressAccess x1 x2 x3 s) := by
  unfold execReservedAddressAccess
  grind [AnsKept, State.writeAddr_kept, State.readAddr_kept]

theorem execRegisterWrite_kept (x1) (x2) (x3) (h : Kept a s) :
    AnsKept a (execRegisterWrite x1 x2 x3 s) := by
  grind [execRegisterWrite, AnsKept, State.writeAddr_kept]

end Sys2Proof.Machine
end

