-- ==== Sys2Proof/Laws/Regs.lean ====
section
/-! SUPPORT. The register space: which register stands at the addresses that the rows name, and what an
access does where the agent has it. -/

namespace Sys2Proof.Machine

theorem withBit_zero (v : Word) : (withBit v 0).toNat = v.toNat / 2 * 2 + 1 := by
  simp only [withBit, BitVec.toNat_or]
  apply Nat.eq_of_testBit_eq
  intro i
  cases i with
  | zero => simp
  | succ n =>
    rw [Nat.testBit_or, Nat.testBit_succ, Nat.testBit_succ, Nat.testBit_succ,
      show (v.toNat / 2 * 2 + 1) / 2 = v.toNat / 2 by omega]
    simp

theorem noBit_zero (v : Word) : (noBit v 0).toNat = v.toNat / 2 * 2 := by
  simp only [noBit, BitVec.toNat_and]
  apply Nat.eq_of_testBit_eq
  intro i
  cases i with
  | zero => simp
  | succ n =>
    rw [Nat.testBit_and, Nat.testBit_succ, Nat.testBit_succ, Nat.testBit_succ,
      show (~~~BitVec.ofNat 32 (2 ^ 0)).toNat / 2 = 2 ^ 31 - 1 by decide,
      show v.toNat / 2 * 2 / 2 = v.toNat / 2 by omega, Nat.testBit_two_pow_sub_one]
    by_cases hn : n < 31
    · simp [hn]
    · have h2 : v.toNat / 2 < 2 ^ n :=
        Nat.lt_of_lt_of_le (show v.toNat / 2 < 2 ^ 31 by have := v.isLt; omega)
          (Nat.pow_le_pow_right (by decide) (by omega))
      rw [Nat.testBit_lt_two_pow h2]
      simp

/-- Bits after one is set: that bit, where the word has it, and the bits it had. -/
theorem withBit_testBit (v : Word) (i k : Nat) :
    (withBit v i).toNat.testBit k = (v.toNat.testBit k || decide (i < 32 ∧ k = i)) := by
  simp only [withBit, BitVec.toNat_or, Nat.testBit_or, BitVec.toNat_ofNat]
  congr 1
  by_cases h : i < 32
  · rw [Nat.mod_eq_of_lt (Nat.pow_lt_pow_right (by decide) h), Nat.testBit_two_pow]
    simp [h]
    exact eq_comm
  · simp [h]
    have h2 : 2 ^ i % 2 ^ 32 = 0 := Nat.mod_eq_zero_of_dvd (Nat.pow_dvd_pow 2 (by omega))
    simp at h2
    rw [h2]
    simp

/-- A field outside the bit that is set keeps its value. -/
theorem fld_withBit (v : Word) (i lo n : Nat) (h : i < lo ∨ lo + n ≤ i) :
    fld (withBit v i).toNat lo n = fld v.toNat lo n := by
  simp only [fld]
  apply Nat.eq_of_testBit_eq
  intro k
  simp only [Nat.testBit_mod_two_pow, Nat.testBit_div_two_pow, withBit_testBit]
  by_cases hk : k < n
  · have h1 : ¬ (k + lo = i) := by omega
    simp [h1]
  · simp [hk]

theorem bit_eq_testBit (w i : Nat) : bit w i = w.testBit i := by
  rw [Bool.eq_iff_iff]
  simp [bit, fld, Nat.testBit_eq_decide_div_mod_eq]

/-- The block of a partition (R58). -/
theorem regAt_par (p : Fin 16) {o : Nat} (ho : o < 0x8000) (h4 : o % 4 = 0) :
    regAt (parBase p + o) = (parRegAt o).map (Reg.par p) := by
  have hp := p.isLt
  have h1 : (parBase p + o) % 4 = 0 := by unfold parBase; omega
  have h2 : (parBase p + o) % 0x8000 = o := by unfold parBase; omega
  have h3 : (parBase p + o - 0x80000) / 0x8000 = p := by unfold parBase; omega
  obtain ⟨k, hk, hl, hu⟩ : ∃ k, (parBase p + o) / 0x10000 = k ∧ 8 ≤ k ∧ k < 16 :=
    ⟨_, rfl, by unfold parBase; omega, by unfold parBase; omega⟩
  unfold regAt
  rw [h1, hk, h2, h3]
  interval_cases k <;> rfl

/-- The registers of a queue (R210). -/
theorem regAt_q (p : Fin 16) (q : Fin 64) {o : Nat} (ho : o < 0x40) (h4 : o % 4 = 0) :
    regAt (qBase p q + o) = (lookup qMap o).map fun r => Reg.par p (.q q r) := by
  have hq := q.isLt
  have h1 : qBase p q + o = parBase p + (0x2000 + q * 0x40 + o) := by unfold qBase; omega
  rw [h1, regAt_par p (by omega) (by omega)]
  have h2 : (0x2000 + q * 0x40 + o) % 0x40 = o := by omega
  have h3 : (0x2000 + q * 0x40 + o - 0x2000) / 0x40 = q := by omega
  unfold parRegAt
  rw [if_pos (by omega), h2, h3, Option.map_map]
  rfl

/-- A write that the agent has access to is the register's. -/
theorem State.writeAddr_hasAccess {s : State} {g : Agent} {a : Nat} {r : Reg}
    (h : s.hasAccess g a = true) (hr : regAt a = some r) (v : Word) :
    s.writeAddr g a v = s.writeReg g v.toNat r := by
  simp only [State.hasAccess, Bool.and_eq_true] at h
  simp [State.writeAddr, h, hr]

/-- A read that the agent has access to: the snapshot, then the register's word. -/
theorem State.readAddr_hasAccess {s : State} {g : Agent} {a : Nat} {r : Reg}
    (h : s.hasAccess g a = true) (hr : regAt a = some r) :
    s.readAddr g a = (s.snapshot r).emit (.read g a ((s.snapshot r).readReg r)) := by
  simp only [State.hasAccess, Bool.and_eq_true] at h
  simp [State.readAddr, h, hr]

/-- A register of an open partition that stands outside the composition block. -/
theorem State.writePar_parOpen {s : State} {p : Nat} (h : s.parOpen p = true) (g : Agent) (v : Nat)
    {r : ParReg} (hc : s.readComp p r = none) (h1 : r ≠ .ctl) (h2 : r ≠ .clusters) (h3 : r ≠ .lpcCh)
    (h4 : ∀ t, r ≠ .bd t) : s.writePar g p v r = s.writeOwn g p v r := by
  simp only [State.parOpen, Bool.and_eq_true, Bool.not_eq_eq_eq_not, Bool.not_true] at h
  cases r <;> simp_all [State.writePar]

end Sys2Proof.Machine
end

