-- ==== Sys2Proof/WellFormed.lean ====
section
/-! DEFINITION. The ranges of operands that a command's types leave wider than the spec does. A term
outside them stands for nothing that can happen; `exec` still answers for it. -/

namespace Sys2Proof

/-- A bonded-DRAM or LPDDR6 line, by frame address / 64 (R158, R159). -/
def lineWf (lp : Bool) (line : Nat) : Bool :=
  if lp then decide (line < 2 ^ 34) else decide (line < 2 ^ 33 ∧ line % 2 ^ 31 < 0x60000000)

def Upset.wf : Upset → Bool
  | .line lp n _ => lineWf lp n
  | .word _ n _ => decide (n < 786432)

/-- A row of a port's bank (R194) or of a controller's package and bank (R195). -/
def RowId.wf (r : RowId) : Bool :=
  if r.lp then decide (r.unit < 8 ∧ r.pkg < 2 ∧ r.bank < 32 ∧ r.row < 2 ^ 18)
  else decide (r.unit < 32 ∧ r.pkg = 0 ∧ r.bank < 64 ∧ r.row < 98304)

/-- At most three phases (R454), and the lines of a row. -/
def RowTest.wf (t : RowTest) : Bool :=
  t.row.wf && decide (t.wrong.length ≤ 3) && t.wrong.all fun ls => decide (ls.length ≤ if t.row.lp then 128 else 32)

def ChunkData.wf : ChunkData → Bool
  | .flag rs _ => decide (rs.length ≤ 256)
  | .sum rs es => decide (rs.length ≤ 256 ∧ es.length ≤ 4096)
  | .fold rs es => decide (rs.length ≤ 256 ∧ es.length ≤ 4096)
  | .bits _ es => decide (es.length ≤ 4096)
  | .tensor _ es => decide (es.length ≤ 4096)
  | .ask _ _ es => decide (es.length ≤ 4096)

/-- The target of a reset (R467). -/
def resetTargetWf : ResetKind → Nat → Bool
  | .core, t => decide (t < 192)
  | .cluster, t => decide (t < 32)
  | .partition, t => decide (t < 16)
  | .module, _ => true

/-- Phases of a rail: N + 2, at most 26 (R474). -/
def phaseWf (ph : BitVec 8) : Bool := decide (ph.toNat < 26)

def Instr.wf : Instr → Bool
  | .patrolScrub u line _ es _ => lineWf (decide (32 ≤ u.val)) line && es.all Upset.wf
  | .s5 rows => rows.all RowTest.wf
  | .hostMemoryResponse _ addr data _ _ => decide (addr.toNat + data.length ≤ 2 ^ 56)
  | .i3cRead n => decide (4 ≤ n ∧ n ≤ 256)
  | .phaseFault _ ph => phaseWf ph
  | .railFault _ (some ph) => phaseWf ph
  | .dataPacket _ body _ _ => decide (body.length = 252)
  | .collectiveHeader _ _ _ h => decide (h.rank < 256 ∧ h.elocs.length ≤ 256)
  | .exponentBatch _ _ _ _ es => decide (es.length ≤ 256)
  | .collectiveChunk _ _ _ _ d => d.wf
  | .loadChunk _ _ _ _ _ bytes _ => decide (bytes.length ≤ 1048576)
  | .recoveryAnswer _ _ _ _ (some bytes) => decide (bytes.length ≤ 1048576)
  | .resetEnd k t => resetTargetWf k t
  | _ => true

end Sys2Proof
end

