-- ==== Sys2Proof/Tests/Slice0.lean ====
section
/-! SUPPORT. The model's own tests: well-formedness, a few single steps against numbers worked out from
the spec, and for each statement states and operands that meet its hypotheses. -/

section

-- One theorem after the other: each waits for the kernel, and many waiting at once cost memory.
set_option Elab.async false

open Sys2Proof Sys2Proof.Machine

/-! Small states. -/

/-- Bytes of bonded DRAM as S5 leaves it, with eight-byte words written. -/
def tDram (ws : List (Nat × Nat)) : TierMem :=
  ws.foldl (fun m w => m.setBytes w.1 (leBytes 8 w.2)) { base := 0 }

/-- One pinned 1 GiB leaf at VA 0, its tables at 0x1000 to 0x3FFF (R164, R165). -/
def tTables : List (Nat × Nat) :=
  [(0x1000, 0x2001), (0x2000, 0x3001), (0x3000, 0x4800000040000007)]

/-- Byte address of VA 0. -/
def tHome : Nat := 0x40000000

/-- A module past S10, host port 0 in service, partition 0 as given, and words of its memory by VA. -/
def tState (x : Part) (ws : List (Nat × Nat) := []) : State :=
  { pwr := { input := .good, railsOn := true }
    bu := { done := 10, busy := false, ready := true }
    ul := [(0, { state := 2, lanes := 4 })]
    mem := { bd := tDram (tTables ++ ws.map fun w => (tHome + w.1, w.2)), lp := { base := 0 } }
    parts := [(0, x)] }

/-- An enabled partition with its tables. -/
def tPart : Part :=
  { state := 2, xlt := { rootAddr := 2, en := true, base := 0, last := 0x3FFFF } }

/-- A descriptor from its fields: byte offset and value. -/
def tDesc (fs : List (Nat × Nat)) : BitVec 512 :=
  BitVec.ofNat 512 (fs.foldl (fun a f => a + f.2 * 2 ^ (8 * f.1)) 0)

/-- A dispatched command of queue 0 at slot 0. -/
def tCmd (fs : List (Nat × Nat)) (prog : Prog := .none) : Cmd :=
  { q := 0, idx := 0, desc := tDesc fs, dispatched := true, prog := prog }

/-- A module whose partition 0 has one command. -/
def tRun (fs : List (Nat × Nat)) (prog : Prog := .none) (ws : List (Nat × Nat) := []) : State :=
  tState { tPart with cmds := [tCmd fs prog] } ws

/-- Core 0 at instruction 0 of 2 of a kernel on cores 0 and 1. -/
def tCore (w : Dword) (f : Core → Core := id) (k : Kernel := { cores := [0, 1] }) : State :=
  { tRun [(0, 1)] (.kernel k) with
    cores := [(0, f { regs := { state := 1 }, ibuf := [(0, w)], count := 2, job := some (0, 0, 0) })] }

/-- An instruction word from its fields: lowest bit and value (R144). -/
def tWord (fs : List (Nat × Nat)) : Dword := BitVec.ofNat 64 (fs.foldl (fun a f => a + f.2 * 2 ^ f.1) 0)

/-- What a test asks of the state after a command. -/
def tNext (c : Instr) (s : State) (f : State → Bool) : Bool :=
  match exec c s with
  | .next t => f t
  | _ => false

/-- Core 0 of a state stands at the word with its registers free. -/
def tStands (s : State) (w : Dword) (op : Nat) (mask : Dword) (regs : List Nat := [0, 1, 31]) : Bool :=
  s.standsAt 0 w op mask && (s.kernelOf 0).isSome && s.regsFree 0 regs regs

/-! Well-formedness: a term that breaks each check is refused. -/

theorem test_wf_scrub_line : (Instr.patrolScrub 0 0x60000000 0 [] false).wf = false := by decide
theorem test_wf_upset : (Instr.patrolScrub 0 0 0 [.word 0 786432 2] false).wf = false := by decide
theorem test_wf_row : (Instr.s5 [⟨⟨false, 0, 0, 64, 0⟩, []⟩]).wf = false := by decide
theorem test_wf_host : (Instr.hostMemoryResponse (.host 0) (BitVec.ofNat 56 (2 ^ 56 - 1)) [0, 0] false
    0).wf = false := by decide
theorem test_wf_i3c : (Instr.i3cRead 257).wf = false := by decide
theorem test_wf_phase : (Instr.phaseFault 0 26).wf = false ∧ (Instr.railFault 0 (some 26)).wf = false := by
  decide
theorem test_wf_packet : (Instr.dataPacket 0 (List.replicate 253 0) 0 true).wf = false := by decide +kernel
theorem test_wf_header : (Instr.collectiveHeader 0 ⟨0, 0⟩ 0 ⟨256, 0, false, 0, []⟩).wf = false := by decide
theorem test_wf_batch : (Instr.exponentBatch 0 ⟨0, 0⟩ 0 0 (List.replicate 257 0)).wf = false := by decide +kernel
theorem test_wf_chunk : (Instr.collectiveChunk 0 ⟨0, 0⟩ 0 0 (.bits 0 (List.replicate 4097 0))).wf = false := by
  decide +kernel
theorem test_wf_reset : (Instr.resetEnd .core 192).wf = false ∧ (Instr.resetEnd .cluster 31).wf = true := by
  decide

/-! Single steps against the spec. -/

/-- The front of the queue runs with the rest left (log entry 33). -/
theorem test_step_front : (match step { State.reset with pending := [.mgmtVioLoss, .mgmtVioAppear] } with
    | .next t => t.pending == [.mgmtVioAppear] && !t.pwr.mgmtVio
    | _ => false) = true := by decide +kernel

/-- R144: LI D1, −1 then the low word read back. -/
theorem test_li_sign : tNext (.li 0 (tWord [(56, 8), (48, 1), (0, 2 ^ 48 - 1)]))
    (tCore (tWord [(56, 8), (48, 1), (0, 2 ^ 48 - 1)]))
    (fun t => t.dreg 0 1 == BitVec.allOnes 64 && (t.core 0).regs.pc == 1) = true := by decide +kernel

/-- R107: D0 takes no write. -/
theorem test_li_zero : tNext (.li 0 (tWord [(56, 8), (0, 5)])) (tCore (tWord [(56, 8), (0, 5)]))
    (fun t => t.dreg 0 0 == 0 && (t.core 0).regs.pc == 1) = true := by decide +kernel

/-- R144: ADD wraps modulo 2⁶⁴, its destination also its source. -/
theorem test_alu_wraps : tNext (.alu 0 (tWord [(56, 10), (47, 1), (42, 1), (37, 1)]))
    (tCore (tWord [(56, 10), (47, 1), (42, 1), (37, 1)]) fun x => { x with d := [(1, 0x8000000000000001)] })
    (fun t => t.dreg 0 1 == 2) = true := by decide +kernel

/-- R144: SRA of a negative number by 4, the count in Dm. -/
theorem test_alui_sra : tNext (.alui 0 (tWord [(56, 11), (52, 7), (47, 2), (42, 1), (0, 4)]))
    (tCore (tWord [(56, 11), (52, 7), (47, 2), (42, 1), (0, 4)]) fun x => { x with d := [(1, -256)] })
    (fun t => t.dreg 0 2 == -16) = true := by decide +kernel

/-- R142: the second and last pass of a loop goes on behind it. -/
theorem test_loop_end : tNext (.coreNop 0 0)
    (tCore 0 fun x => { x with loops := [⟨0, 0, 1⟩] })
    (fun t => (t.core 0).regs.pc == 1 && (t.core 0).loops.isEmpty) = true := by decide +kernel

/-- R142: with two passes left it goes back. -/
theorem test_loop_back : tNext (.coreNop 0 0)
    (tCore 0 fun x => { x with loops := [⟨0, 0, 2⟩] })
    (fun t => (t.core 0).regs.pc == 0 && (t.core 0).loops == [⟨0, 0, 1⟩]) = true := by decide +kernel

/-- R151: an unlisted opcode faults with cause 0x01. -/
theorem test_reserved_opcode : tNext (.coreNop 0 (tWord [(56, 5)])) (tCore (tWord [(56, 5)]))
    (fun t => (t.core 0).regs.state == 2 && (t.core 0).regs.cause == 1) = true := by decide +kernel

/-- R152: of two cores that have faulted, the lower rank gives the KERNEL's status. -/
theorem test_lowest_fault : tNext (.commandComplete 0 0 0)
    (tCore 0 id { cores := [0, 1], faults := [(1, endWith stDeviceFault 1), (0, endWith stTranslation 11)] })
    (fun t => ((t.part 0).cmds.map fun c => (c.outcome.map fun e => e.status.toNat)) == [some stTranslation]) =
    true := by decide +kernel

/-- R125, R144: SST stores eight bytes, little-endian, at Da + OFF; SLD at the last word reads them. -/
theorem test_sst : tNext (.sst 0 (tWord [(56, 0x17), (48, 2), (43, 1), (0, 0xFFFFFFF8)]))
    (tCore (tWord [(56, 0x17), (48, 2), (43, 1), (0, 0xFFFFFFF8)]) fun x =>
      { x with d := [(1, 0x600000), (2, 0x0102030405060708)] })
    (fun t => scrByte (t.core 0) 0x5FFFF8 == 8 && scrByte (t.core 0) 0x5FFFFF == 1) = true := by
  decide +kernel
theorem test_sld_range : tNext (.sld 0 (tWord [(56, 0x16), (48, 2), (43, 1)]))
    (tCore (tWord [(56, 0x16), (48, 2), (43, 1)]) fun x => { x with d := [(1, 0x600000)] })
    (fun t => (t.core 0).regs.cause == 5 && (t.core 0).regs.faddr == 0x600000) = true := by decide +kernel

/-- R213: a counter stops at 2⁶⁴ − 1 and records 0x4003. -/
theorem test_counter_stops :
    let t := ((tState tPart).evcSet 0 7 (BitVec.allOnes 64 - 1)).evcAdd 0 7 2
    (t.evc 0 7 == BitVec.allOnes 64 && t.log.nextSeq == 1) = true := by
  decide +kernel

/-- R225, R161: FILL writes its pattern at the frame that the leaf gives. -/
theorem test_fill : tNext (.fill 0 0 0) (tRun [(0, 3), (0x18, 0x100000), (0x20, 16), (0x28, 0x55AA)])
    (fun t => t.mem.bd.byte 0x40100000 == 0xAA && t.mem.bd.byte 0x40100009 == 0x55
      && t.mem.bd.byte 0x40100010 == 0) = true := by decide +kernel

/-- R205: a tail of 2N is never reduced; it stops the queue with reason 3. -/
theorem test_doorbell_2n : tNext (.queueDoorbell (.host 0) 0 0 32)
    (tState { tPart with queues := [(0, { en := true, state := 1 })] })
    (fun t => ((t.part 0).queue 0).state == 2 && ((t.part 0).queue 0).reason == 3
      && ((t.part 0).queue 0).tail == 0 && t.log.nextSeq == 1) = true := by decide +kernel

/-- R60: a reserved address reads zero and is recorded under the accessing agent. -/
theorem test_reserved_read : tNext (.reservedAddressAccess (.host 0) 0xFFC none) (tState tPart)
    (fun t => t.out == [.read (.host 0) 0xFFC 0] && (SMap.get {} t.log.fixed 0).code == 0x8020
      && (SMap.get {} t.log.fixed 0).unit == 0xC000) = true := by decide +kernel

/-- R150: the last core's END completes the KERNEL with DONE and leaves its core idle. -/
theorem test_end_commits : tNext (.coreEnd 0 (tWord [(56, 1)])) (tCore (tWord [(56, 1)]) id { cores := [0] })
    (fun t => ((t.part 0).cmds.map fun c => (c.outcome.map fun e => e.status.toNat)) == [some stDone]
      && (t.core 0).regs.state == 0) = true := by decide +kernel

/-- R143: a second KBAR with the same BID releases both cores. -/
theorem test_kbar_releases : tNext (.kbar 0 (tWord [(56, 0x71)]))
    (tCore (tWord [(56, 0x71)]) id { cores := [0, 1], barrier := some (0, [1]) })
    (fun t => (t.core 0).regs.pc == 1 && (t.core 1).regs.pc == 1) = true := by decide +kernel

/-- R143: the counter's limit is 65,535 itself. -/
theorem test_crpost_limit : tNext (.crpost 0 (tWord [(56, 0x74), (32, 1), (0, 3)]))
    (tCore (tWord [(56, 0x74), (32, 1), (0, 3)]) fun x => { x with cc := [(3, 65534)] })
    (fun t => SMap.get 0 (t.core 0).cc 3 == 65535 && (t.core 0).regs.cause == 0) = true := by decide +kernel

/-- R486: a power cap below 1,500 W is kept out and recorded. -/
theorem test_power_cap : tNext (.registerWrite (.host 0) 0x10008 1499) (tState tPart)
    (fun t => t.pwr.capW == 3600 && t.log.nextSeq == 1) = true := by decide +kernel

/-- R480: below 46 V the clocks fall to 8/16 at once. -/
theorem test_input_droop : tNext (.inputSample 45999 0) (tState tPart)
    (fun t => t.pwr.droop == .held 8 && t.clkFactor 0 == 8) = true := by decide +kernel

/-- R498: a private write of four bytes sets the read address, little-endian; a fifth is refused. -/
theorem test_i3c_address : tNext (.i3cAddressWrite [4, 1, 0, 0]) State.reset (fun t => t.i3c.addr == 0x104) =
    true := by decide +kernel
theorem test_i3c_refused : tNext (.i3cAddressWrite [4, 1, 0, 0, 0]) State.reset (fun t => t.out == [.i3cNack]) =
    true := by decide +kernel

/-- R82: 1.0 + 2⁻²⁴ rounds to even; 1.0 + 3·2⁻²⁴ goes up. -/
theorem test_fadd_even : fadd 0x3F800000 0x33800000 = 0x3F800000 ∧ fadd 0x3F800000 0x34400000 = 0x3F800002 := by
  decide +kernel

/-- R98: exact powers of two, and the logarithm of 1. -/
theorem test_exp2_exact : vexp2 0xC1200000 = 0x3A800000 ∧ vlog2 0x3F800000 = 0 ∧ vrsqrt 0 = 0x7F800000 := by
  decide +kernel

/-! States and operands that meet the statements' hypotheses, one theorem a statement; a statement with
several clauses has one state for each, at the boundary of its range where it has one. -/

theorem witness_stepTakesTheFront : ({ State.reset with pending := [.mgmtVioLoss] }).pending = [.mgmtVioLoss] ∧
    State.reset.pending = [] := by decide

theorem witness_stepKeepsMemoriesCanonical : State.reset.memWf = true ∧ step State.reset = .next State.reset :=
  ⟨by decide, rfl⟩

theorem witness_memoryReadAfterWrite :
    ((tDram tTables).wf && ((tDram tTables).setBytes 0x1000 [1, 2]).wf
      && (List.range 2).all fun i => !((tState tPart).tier .bd).withdrawn ((63 + i) / 64)
        && ((tState tPart).tier .bd).line ((63 + i) / 64) == { key := 0 }) = true := by decide +kernel

theorem witness_scratchpadStoresFrame :
    ((tCore 0).readersOf 0 2 [(0x5FFFFF, 1)] == []
      && ((tCore 0).foreignWrites 0 2 0).isEmpty
      && (wordsOf 0x5FFFFF 1).all fun k => SMap.get 0 ((tCore 0).core 0).err k == 0
        && !scrPoisoned ((tCore 0).core 0) k) = true := by decide +kernel

theorem witness_encodingFaults :
    (coreRows.all fun r =>
      let runs := fun (s : State) => (s.kernelOf 0).isSome && (s.core 0).regs.state == 1 && s.awake 0
      let at_ := fun (w : Dword) => runs (tCore w) && SMap.get 0 ((tCore w).core 0).ibuf 0 == w
      let good := BitVec.ofNat 64 (r.2.1 * 2 ^ 56)
      !runs State.reset && runs (tCore good fun x => { x with count := 0 })
      && at_ (tWord [(56, 5)]) && !listedOps.contains 5 && at_ good && listedOps.contains r.2.1
      && (at_ (good ||| ~~~(r.2.2 ||| bitsMask [(63, 56)])) || r.2.2 == bitsMask [(55, 0)])
      && iOp good == r.2.1) = true := by decide +kernel

/-- Operands that fault: SYS code 5, condition 6, VCMP with INT, an AMM of FP32 feeds, ADRAIN with DQ and
with SND, ranges past the last byte, a length of 2, another KBAR, rank 2 of 2, a counter at its limit, a
target that has failed. -/
theorem witness_operandFaults :
    let w1 := tWord [(56, 12), (0, 5)]
    let w2 := tWord [(56, 3), (53, 6)]
    let w3 := tWord [(56, 0x36), (30, 1)]
    let w4 := tWord [(56, 0x20)]
    let w5 := tWord [(56, 0x22), (48, 1)]
    let w6 := tWord [(56, 0x22), (49, 1)]
    let far := fun x : Core => { x with d := [(1, 0x600000)] }
    let w7 := tWord [(56, 0x14), (47, 1)]
    let w8 := tWord [(56, 0x16), (43, 1)]
    let w9 := tWord [(56, 0x10), (38, 1)]
    let w10 := tWord [(56, 0x71), (0, 1)]
    let w11 := tWord [(56, 0x74), (48, 1), (32, 65535)]
    let fail := fun (st : BitVec 2) (n : Nat) (r : Nat) =>
      let s := tCore w11 fun x => { x with d := [(1, BitVec.ofNat 64 r)] }
      s.updCore 1 fun x => { x with regs := { x.regs with state := st }, cc := [(0, n)] }
    (tStands (tCore w1) w1 0x0C (bitsMask [(52, 48), (7, 0)])
    && tStands (tCore w2) w2 0x03 (bitsMask [(55, 43), (15, 0)])
    && tStands (tCore w3) w3 0x36 vecMask && iw w3 30 30 == 1
    && tStands (tCore w4) w4 0x20 (bitsMask [(55, 53), (51, 28)])
    && ammCause {} {} false 0 1 {} == some 0x02
    && tStands (tCore w5) w5 0x22 (bitsMask [(55, 48)]) && tStands (tCore w6) w6 0x22 (bitsMask [(55, 48)])
    && tStands (tCore w7 far) w7 0x14 tileMask
    && badRange 4 (tileRanges (tileMove (tCore w7 far) 0 w7)) == some 0x600000
    && tStands (tCore w8 far) w8 0x16 (bitsMask [(52, 43), (31, 0)])
    && badRange 8 [(wordAddr (tCore w8 far) 0 w8, 8)] == some 0x600000
    && tStands (tCore w9 fun x => { x with d := [(1, 2)] }) w9 0x10 (bitsMask [(52, 38), (3, 0)])
    && !dmaOk 0 0 2
    && tStands (tCore w10 id { cores := [0, 1], barrier := some (0, [1]) }) w10 0x71 (bitsMask [(3, 0)])
    && tStands (fail 1 0 2) w11 0x74 (bitsMask [(52, 32), (3, 0)])
    && tStands (fail 1 1 1) w11 0x74 (bitsMask [(52, 32), (3, 0)])
    && tStands (fail 3 0 1) w11 0x74 (bitsMask [(52, 32), (3, 0)])) = true := by decide +kernel

/-- The last word of the block, and the index behind it. -/
theorem witness_argRule :
    let w := fun i => tWord [(56, 13), (48, 31), (0, i)]
    let s := fun i => tCore (w i) fun x => { x with args := [7, 8] }
    (tStands (s 1) (w 1) 0x0D (bitsMask [(52, 48), (7, 0)])
      && tStands (s 2) (w 2) 0x0D (bitsMask [(52, 48), (7, 0)])
      && ((s 1).core 0).args[1]? == some 8 && ((s 2).core 0).args[2]? == none) = true := by decide +kernel

/-- A reserved offset in the identity block, and one in the persistent store's. -/
theorem witness_reservedAddressRule :
    ((tState tPart).agentLive (.host 0) && (tState tPart).agentReaches (.host 0) 0x48FFC
      && regAt 0x48FFC == none && regAt 0x0FFC == none) = true := by decide +kernel

theorem witness_scalarRegistersAndMoves :
    let w := fun op => tWord [(56, op), (48, 31)]
    let sys := fun k => tWord [(56, 12), (48, 31), (0, k)]
    (tStands (tCore 0) 0 0x00 0 && tStands (tCore (w 8)) (w 8) 0x08 (bitsMask [(52, 0)])
      && tStands (tCore (w 9)) (w 9) 0x09 (bitsMask [(52, 48), (15, 0)])
      && [0, 1, 2, 3, 4].all fun k =>
        tStands (tCore (sys k)) (sys k) 0x0C (bitsMask [(52, 48), (7, 0)]) && iw (sys k) 7 0 == k) = true := by
  decide +kernel

theorem witness_aluComplete :
    ((List.range 16).all fun op =>
      let w := tWord [(56, 10), (52, op), (47, 1), (42, 31), (37, 31)]
      let v := tWord [(56, 11), (52, op), (47, 1), (42, 31), (0, 2 ^ 32 - 1)]
      tStands (tCore w) w 0x0A (bitsMask [(55, 37)]) && tStands (tCore v) v 0x0B (bitsMask [(55, 42), (31, 0)])
      && iw w 55 52 == op && iw v 55 52 == op) = true := by decide +kernel

/-- Targets 1 and 2 of a program of 2, a condition that holds and one that does not, LAST at and behind the
loop's own index, four levels, COUNT 0 and 1. -/
theorem witness_controlFlowComplete :
    let jmp := fun t => tWord [(56, 2), (0, t)]
    let br := fun cnd t => tWord [(56, 3), (53, cnd), (0, t)]
    let lp := fun n t => tWord [(56, 4), (32, n), (0, t)]
    let deep := fun x : Core => { x with loops := [⟨0, 1, 2⟩, ⟨0, 1, 2⟩, ⟨0, 1, 2⟩, ⟨0, 1, 2⟩] }
    ([1, 2].all (fun t => tStands (tCore (jmp t)) (jmp t) 0x02 (bitsMask [(15, 0)])
        && [0, 1, 5].all fun cnd =>
          tStands (tCore (br cnd t)) (br cnd t) 0x03 (bitsMask [(55, 43), (15, 0)]))
      && brHolds 0 0 0 && !brHolds 1 0 0
      && [0, 1].all (fun n => [0, 1].all fun t =>
        tStands (tCore (lp n t)) (lp n t) 0x04 (bitsMask [(52, 32), (15, 0)])
        && tStands (tCore (lp n t) deep) (lp n t) 0x04 (bitsMask [(52, 32), (15, 0)]))) = true := by
  decide +kernel

/-- END of a core with an entry left, of the first core of two, and of the last one. -/
theorem witness_syncAndEndComplete :
    let e := tWord [(56, 1)]
    let busy := tCore e fun x => { x with qv := [{}] }
    let last := tCore e id { cores := [0, 1], ended := [1] }
    let f := tWord [(56, 0x70), (0, 15)]
    let b := tWord [(56, 0x71), (0, 3)]
    let inc := tWord [(56, 0x72), (0, 4095)]
    let ew := tWord [(56, 0x73)]
    let cp := tWord [(56, 0x74), (32, 65535)]
    let cw := tWord [(56, 0x75), (32, 2)]
    (tStands busy e 0x01 0 && !coreQuiet (busy.core 0)
    && tStands (tCore e) e 0x01 0 && coreQuiet ((tCore e).core 0)
    && tStands last e 0x01 0
    && tStands (tCore f) f 0x70 (bitsMask [(3, 0)])
    && tStands (tCore b) b 0x71 (bitsMask [(3, 0)])
    && tStands (tCore b id { cores := [0, 1], barrier := some (3, [1]) }) b 0x71 (bitsMask [(3, 0)])
    && tStands (tCore inc) inc 0x72 (bitsMask [(11, 0)])
    && tStands (tCore ew) ew 0x73 (bitsMask [(52, 48), (11, 0)])
    && tStands (tCore cp) cp 0x74 (bitsMask [(52, 32), (3, 0)])
    && SMap.get 0 ((tCore cp).core 0).cc 0 + iw cp 47 32 == 65535
    && tStands (tCore cw fun x => { x with cc := [(0, 2)] }) cw 0x75 (bitsMask [(47, 32), (3, 0)])) = true := by
  decide +kernel

/-- The last word of the scratchpad to and from VA 0x100, with room for a DMA. -/
theorem witness_unitsAndDmaComplete :
    let go := fun op => tWord [(56, op), (48, 1), (43, 2), (38, 3)]
    let s := fun op (a b : Dword) => tCore (go op) fun x => { x with d := [(1, a), (2, b), (3, 4)] }
    let i := s 0x10 0x100 0x5FFFFC
    let o := s 0x11 0x5FFFFC 0x100
    let wait := tWord [(56, 0x13), (0, 65535)]
    (tStands i (go 0x10) 0x10 (bitsMask [(52, 38), (3, 0)]) && dmaOk 0x100 0x5FFFFC 4 && !i.dmaFull 0
    && (match (i.xread ⟨0, uCore 0⟩ 0x100 4).2 with | .ok _ => true | _ => false)
    && tStands o (go 0x11) 0x11 (bitsMask [(52, 38), (3, 0)]) && o.unitFree 0 3 [(0x5FFFFC, 4)] && !o.dmaFull 0
    && (o.tickFree.xwrite ⟨0, uCore 0⟩ 0x100 [0, 0, 0, 0]).2 == .ok ()
    && tStands (s 0x12 0 0) (go 0x12) 0x12 (bitsMask [(52, 33), (3, 0)]) && !(s 0x12 0 0).dmaFull 0
    && tStands (tCore wait) wait 0x13 (bitsMask [(15, 0)])) = true := by decide +kernel

theorem witness_loadStoreComplete :
    let t := fun op => tWord [(56, op), (47, 1)]
    let l := fun op => tWord [(56, op), (43, 1)]
    let s := fun w => tCore w fun x => { x with d := [(1, 0x5FFFF8)] }
    ([0x14, 0x15].all (fun op => tStands (s (t op)) (t op) op tileMask
        && badRange 4 (tileRanges (tileMove (s (t op)) 0 (t op))) == none
        && (s (t op)).unitFree 0 2 (tileRanges (tileMove (s (t op)) 0 (t op))))
    && [0x16, 0x17].all fun op => tStands (s (l op)) (l op) op (bitsMask [(52, 43), (31, 0)])
        && badRange 8 [(wordAddr (s (l op)) 0 (l op), 8)] == none
        && (s (l op)).unitFree 0 2 [(0x5FFFF8, 8)]) = true := by decide +kernel

/-- AFDSET with a format word and with the reserved FP32 one; AMM of two BF16 feeds; ADRAIN of a floating
bank with DQ and without. -/
theorem witness_arraysComplete :
    let fd := fun f => tWord [(56, 0x21), (17, f)]
    let mm := tWord [(56, 0x20)]
    let s := tCore mm fun x => { x with feeds := [(0, { fmt := 1 })] }
    let dr := fun dq => tWord [(56, 0x22), (48, dq)]
    let l := coreFeed (s.core 0) 0
    let rs := feedRanges l true 0 1 ++ feedRanges l false 0 1
    (tStands (tCore (fd 0)) (fd 0) 0x21 (bitsMask [(55, 9)]) && tStands (tCore (fd 1)) (fd 1) 0x21 (bitsMask [(55, 9)])
    && !((FmtWord.of 1).reserved true) && (FmtWord.of 1).fmt != 0 && (FmtWord.of 1).fmt != 11
    && tStands s mm 0x20 (bitsMask [(55, 53), (51, 28)]) && ammCause l l false 0 1 {} == none
    && badRange 1 rs == none && s.unitFree 0 0 rs
    && [0, 1].all fun dq => tStands (tCore (dr dq)) (dr dq) 0x22 (bitsMask [(55, 48)])
      && (tCore (dr dq)).unitFree 0 0 []) = true := by decide +kernel

theorem witness_elementwiseComplete :
    (elementwiseRows.all fun r => [0, 1].all fun int =>
      let w := tWord [(56, r.op), (30, int)]
      tStands (tCore w) w r.op vecMask && (tCore w).unitFree 0 2 [] && iw w 30 30 == int) = true := by
  decide +kernel

theorem witness_compareAndMoveComplete :
    ([0, 5, 6, 7].all (fun cnd =>
      let w := tWord [(56, 0x36), (31, cnd)]
      tStands (tCore w) w 0x36 vecMask && (tCore w).unitFree 0 2 [] && iw w 30 30 == 0)
    && [0, 1].all fun scb =>
      let w := tWord [(56, 0x38), (39, scb)]
      tStands (tCore w) w 0x38 vecMask && (tCore w).unitFree 0 2 []) = true := by decide +kernel

theorem witness_reductionsAndBroadcastsComplete :
    (reductionRows.all (fun r =>
      let w := tWord [(56, r.2.1), (37, 127)]
      tStands (tCore w) w r.2.1 redMask && (tCore w).unitFree 0 2 [])
    && broadcastRows.all fun r =>
      let w := tWord [(56, r.2.1), (55, 1)]
      tStands (tCore w) w r.2.1 bcastMask && (tCore w).unitFree 0 2 []) = true := by decide +kernel

/-- VLD and VST of the scratchpad's last 512 bytes, VLD of its last 128, VVOP 11 and 12. -/
theorem witness_vectorRegistersComplete :
    let ld := fun b8 => tWord [(56, 0x49), (55, b8), (43, 1)]
    let st := tWord [(56, 0x4A), (43, 1)]
    let s := fun w (a : Dword) => tCore w fun x => { x with d := [(1, a)] }
    let vv := fun n => tWord [(56, 0x4B), (30, n)]
    (tStands (s (ld 0) 0x5FFE00) (ld 0) 0x49 (bitsMask [(55, 52), (47, 43)])
    && badRange 4 [(0x5FFE00, 512)] == none && (s (ld 0) 0x5FFE00).unitFree 0 2 [(0x5FFE00, 512)]
    && tStands (s (ld 1) 0x5FFF80) (ld 1) 0x49 (bitsMask [(55, 52), (47, 43)])
    && badRange 1 [(0x5FFF80, 128)] == none && (s (ld 1) 0x5FFF80).unitFree 0 2 [(0x5FFF80, 128)]
    && tStands (s st 0x5FFE00) st 0x4A (bitsMask [(54, 52), (47, 43)])
    && [11, 12].all (fun n => tStands (tCore (vv n)) (vv n) 0x4B (bitsMask [(54, 30)])
      && (tCore (vv n)).unitFree 0 2 [])
    && [0x4C, 0x4D].all (fun op => tStands (tCore (tWord [(56, op)])) (tWord [(56, op)]) op redMask)
    && tStands (tCore (tWord [(56, 0x63)])) (tWord [(56, 0x63)]) 0x63 (bitsMask [(54, 43)])) = true := by
  decide +kernel

/-- CVLD and CVST of FP32 and of a reserved format word, CVT in each mode and in a reserved one, CVCTX. -/
theorem witness_convertsComplete :
    let c1 := fun x : Core => { x with ctx := { cols := 1 } }
    let ld := fun f => tWord [(56, 0x51), (12, f)]
    let st := fun f => tWord [(56, 0x50), (12, f)]
    let cv := fun m f => tWord [(56, 0x52), (12, f), (8, m)]
    let cx := tWord [(56, 0x53)]
    ([0, 15].all (fun f =>
        tStands (tCore (ld f) c1) (ld f) 0x51 (bitsMask [(51, 33), (27, 5)])
        && tStands (tCore (st f) c1) (st f) 0x50 (bitsMask [(51, 4)])
        && (FmtWord.of (BitVec.ofNat 16 f)).reserved true == (f == 15))
    && (cvMove (tCore (ld 0) c1) 0 (ld 0)).bad == none
    && (cvMove (tCore (st 0) c1) 0 (st 0)).cols == 1
    && (tCore (ld 0) c1).unitFree 0 2 ((cvMove (tCore (ld 0) c1) 0 (ld 0)).dataRanges)
    && [(0, 0), (0, 15), (1, 0), (2, 0), (3, 0), (3, 1), (4, 0)].all (fun e =>
      tStands (tCore (cv e.1 e.2)) (cv e.1 e.2) 0x52 (bitsMask [(55, 37), (27, 8)])
      && iw (cv e.1 e.2) 11 8 == e.1 && iw (cv e.1 e.2) 27 12 == e.2)
    && tStands (tCore cx) cx 0x53 (bitsMask [(52, 38), (16, 10), (2, 0)]) && (tCore cx).unitFree 0 2 []) =
    true := by decide +kernel

theorem witness_soundingsInstructionsComplete :
    let w := fun op => tWord [(56, op), (0, 7)]
    let s := fun op b => tCore (w op) fun x => { x with slots := [(7, { bound := b })] }
    (tStands (s 0x60 false) (w 0x60) 0x60 (bitsMask [(52, 48), (2, 0)])
    && [false, true].all fun b => tStands (s 0x61 b) (w 0x61) 0x61 (bitsMask [(51, 48), (2, 0)])
      && tStands (s 0x62 b) (w 0x62) 0x62 (bitsMask [(2, 0)])
      && (sndSlot ((s 0x62 b).core 0) 7).bound == b && (s 0x62 b).unitFree 0 2 []) = true := by
  decide +kernel

/-- The answer of an access is data. -/
def tOk {α : Type} (x : State × XR α) : Bool := match x.2 with | .ok _ => true | _ => false

/-- What holds of the command that a row finds. -/
def tRow (s : State) (kind : Cmd → Bool) (f : Cmd → Bool) : Bool :=
  match s.rowCmd 0 0 0 kind with | some c => f c | none => false

/-- Partition 0 with queue 0 as given. -/
def tQueue (x : Queue) (cmds : List Cmd := []) : State :=
  tState { tPart with queues := [(0, x)], cmds := cmds }

/-- The last free place of a ring of 16, a ring outside memory, and a queue that is full. -/
theorem witness_descriptorFetchComplete :
    let q : Queue := { en := true, state := 1, base := 0x10000, tail := 1 }
    let c : Nat → Cmd := fun i => { tCmd [(0, 0x7F)] with idx := i }
    let s := tQueue q ((List.range 15).map c)
    let far := tQueue { q with base := 0x80000000 }
    (s.canFetch 0 0 && tOk (s.xread (s.helmReq 0) 0x10000 64)
    && far.canFetch 0 0 && !tOk (far.xread (far.helmReq 0) 0x80000000 64)
    && (tQueue q ((List.range 16).map c)).inflightOf 0 0 + unconsumed q == q.n) = true := by decide +kernel

/-- A NOP, and a descriptor that failed its validation. -/
theorem witness_commandDispatchComplete :
    let s := fun bad => tQueue { en := true, state := 1 } [{ tCmd [(0, 0x7F)] with dispatched := false, bad := bad }]
    ([none, some 0x201].all fun b => (s b).mayDispatch 0
      && (s b).pickQueue 0 ((s b).queueReady 0) == some 0
      && (match (s b).nextOf 0 0 with
        | some c => c.bad == b && (match (s b).turnOf 0 c with | .go _ => b.isNone | _ => b.isSome)
        | none => false)) = true := by decide +kernel

/-- A record that can be written and one that cannot; a KERNEL with a faulted core. -/
theorem witness_commandCompleteComplete :
    let e : CmdEnd := endDone 0
    let c := { tCmd [(0, 0x7F)] with outcome := some e }
    let s := fun at_ => tQueue { en := true, state := 1, cpl := at_ } [c]
    let k : Kernel := { cores := [0], faults := [(0, endWith stDeviceFault 1)] }
    let f := tRun [(0, 1)] (.kernel k)
    let settled := fun (s : State) => s.pickCmd 0 fun c => c.q == 0 && cmdSlot (s.part 0) c == 0 && c.held == 0
      && c.outcome.isSome
    (settled (s 0x20000) == some c && !(s 0x20000).unmerged 0 c && (s 0x20000).heldCmds 0 0 == []
    && ((s 0x20000).heldBack c).isEmpty
    && tOk ((s 0x20000).xwrite ((s 0x20000).helmReq 0) 0x20000 (recordFields (s 0x20000) 0 c e))
    && !tOk ((s 0x80000000).xwrite ((s 0x80000000).helmReq 0) 0x80000000 (recordFields (s 0x80000000) 0 c e))
    && settled f == none && f.heldCmds 0 0 == [] && tRow f cmdFaulted (fun c => c.prog == .kernel k)
    && lowestFault k == some (endWith stDeviceFault 1)) = true := by decide +kernel

/-- Tails 15, 16, 17 and 32 of a ring of 16 whose tail is 1, and a disabled queue. -/
theorem witness_doorbellRule :
    let s := tQueue { en := true, state := 1, tail := 1 }
    (s.hasAccess (.host 0) (qBase 0 0 + 0x14) && s.enabled 0 && !s.quarantined (.host 0)
    && ((s.part 0).queue 0).n == 16 && ((s.part 0).queue 0).state == 1
    && ((tQueue {}).part 0).queue 0 == {}) = true := by decide +kernel

theorem witness_queueRegistersComplete :
    let ok := tQueue { base := 0x10000, cpl := 0x20000 }
    let bad := tQueue { base := 0x80000000, cpl := 0x20000 }
    let on := tQueue { en := true, state := 1 }
    let busy := tQueue { en := true, state := 1 } [tCmd [(0, 0x7F)]]
    let stop := tQueue { en := true, state := 2, tail := 16 }
    ([ok, bad, on, busy, stop].all (fun s => s.hasAccess (.host 0) (qBase 0 0 + 0x10)
      && s.hasAccess (.host 0) (qBase 0 0 + 0x18) && s.parOpen 0)
    && (queueFields ok (.host 0) 0 0 9).ringsOk 0 0 && !(queueFields bad (.host 0) 0 0 9).ringsOk 0 0
    && !((on.part 0).cmds.any fun c => c.q == 0 && !cmdReturns 0 c)
    && (busy.part 0).cmds.any (fun c => c.q == 0 && !cmdReturns 0 c)
    && ((on.part 0).queue 0).log2n.toNat == 9 / 2 % 32
    && [0, 31].all fun h => decide ((16 + 32 - h) % 32 ≤ 16) == (h == 0)) = true := by decide +kernel

/-- A counter that comes to 2⁶⁴ − 1 exactly, and one that would pass it. -/
theorem witness_eventCountersSaturate :
    let s := fun v => tState { tPart with evc := [(4095, v)], evcIdx := 4095 }
    ([BitVec.allOnes 64 - 1, BitVec.allOnes 64].all fun v => (s v).hasAccess (.host 0) (parBase 0 + 0x60C)
      && (s v).parOpen 0 && (s v).evc 0 4095 == v) = true := by decide +kernel

/-- FENCE, SIGNAL_ADD, SIGNAL_SET, WAIT at its value, NOP, MARK; COPY of 64 bytes, and one whose source is
not mapped; FILL and SCRUB. -/
theorem witness_queueCommandsComplete :
    let sig := fun sub => tRun [(0, 0x40), (0x18, sub), (0x1A, 5)]
    let cp := fun src => tRun [(0, 2), (1, 2), (0x18, src), (0x20, 0x2000), (0x28, 64)]
    let copy := fun (s : State) (c : Cmd) => moveGo 0 c (cDst c) (fun s off n =>
      s.xread (s.moverReq 0 (cSrc c + off)) (cSrc c + off) n) (piecesOf (cDst c) (cLen c)) s
    let fl := fun scrub => tRun [(0, 3), (0x18, 0x1000), (0x20, 64), (0x28, 7), (0x30, scrub)]
    let fill := fun (s : State) (c : Cmd) (w : Nat) => moveGo 0 c (fDst c) (fun s off n =>
      (s, .ok ((List.range n).map fun i => (leBytes 8 w).getD ((off + i) % 8) 0)))
      (piecesOf (fDst c) (fLen c)) s
    let one := fun (s : State) (kind : Cmd → Bool) (f : Cmd → Bool) =>
      match s.rowCmd 0 0 0 kind with | some c => f c | none => false
    ([0, 1, 2, 3].all (fun k => one (sig k) (isFence k) fun c => decide (sValue c ≤ ((sig k).evc 0 5).toNat)
      && (((sig k).part 0).cmds.find? fun y => y.q == c.q) == some c)
    && one (tRun [(0, 0x7F)]) (·.op == opNop) (fun _ => true)
    && one (tRun [(0, 0x41)]) (·.op == opMark) (fun _ => true)
    && one (cp 0x1FC0) (fun c => c.op == opCopy && !isMigrate c)
      (fun c => tOk (copy (cp 0x1FC0) c) && decide (cSrc c + cLen c ≤ cDst c))
    && one (cp 0x80000000) (fun c => c.op == opCopy && !isMigrate c)
      (fun c => !tOk (copy (cp 0x80000000) c) && staged c)
    && one (fl 0) (fun c => c.op == opFill && !fScrub c) (fun c => tOk (fill (fl 0) c (fPattern c)))
    && one (fl 1) (fun c => c.op == opFill && fScrub c) (fun c => tOk (fill (fl 1) c 0))) = true := by
  decide +kernel

/-- One core that is there with an image of one instruction, one with a bad magic, and one absent. -/
theorem witness_kernelStartComplete :
    let s := fun (magic : Nat) (core : Nat) =>
      { tState { tPart with index := [0], cmds := [tCmd [(0, 1), (0x18, 0x4FC0), (0x20, 0x6000), (0x28, core)]] }
          [(0x4FC0, magic + 2 ^ 32 + 2 ^ 48), (0x4FC8, 1)] with mod := { lcores := 1, lmap := [(0, 1)] } }
    let one := fun (s : State) (f : Cmd → Bool) =>
      match s.rowCmd 0 0 0 (fun c => c.op == opKernel && c.prog == .none) with | some c => f c | none => false
    let image := fun (s : State) (c : Cmd) (good : Bool) => (kCores c).length == 1
      && ((kCores c).filterMap (s.coreAt 0)).length == 1
      && (match (s.readImage 0 c).2 with | .ok x => imageOk x.1 == good | _ => false)
    (one (s 0x50544B5A 1) (fun c => image (s 0x50544B5A 1) c true)
    && one (s 0 1) (fun c => image (s 0 1) c false)
    && one (s 0 2) (fun c => (kCores c).length == 1 && ((kCores c).filterMap ((s 0 2).coreAt 0)).isEmpty)) =
    true := by decide +kernel

/-- Accesses to the translation registers, an invalidation that runs; a route table outside memory and one of
one entry; a Pilot that runs. -/
theorem witness_translationAndPilotRegisters :
    let inv := tState { tPart with xlt := { tPart.xlt with invBusy := true } }
    let run := tState { tPart with plt := { en := true } }
    let on := fun va => tState { tPart with plt := { tableVa := va } }
    let set := fun va => ((on va).updPart 0 fun x => { x with plt := { x.plt with entries := 0, ctr := 0 } }).touchTables
      0 va.toNat 32
    ([tState tPart, inv, run, on 0x4000, on 0x80000000].all (fun s => s.parOpen 0
      && [0x400, 0x404, 0x408, 0x414, 0x500].all fun o => s.hasAccess (.host 0) (parBase 0 + o))
    && decide (12 ≤ 56 % 64)
    && !(set 0x80000000).pinnedRange 0 0x80000000 32 false && (set 0x4000).pinnedRange 0 0x4000 32 false
    && (match (set 0x4000).peek 0 0x4000 32 with
      | (t, some bs) => regionOk (t.part 0) && !routeBad 1 bs
      | _ => false)) = true := by decide +kernel

/-- The enable without a descriptor, and the bytes of one whose fields, rings, template and extent are as they
must be; the disable in both forms, PARK in both, a doorbell in and out of range. -/
theorem witness_servingControlComplete :
    let s := fun (g : Gen) => tState { tPart with gen := g, queues := [(0, { en := true, state := 1 })] }
    let st : GenStep := { no := 0, rows := [], left := 0 }
    let on : Gen := { en := true, state := 1 }
    let num := fun (fs : List (Nat × Nat)) => fs.foldl (fun a f => a + f.2 * 2 ^ (8 * f.1)) 0
    let b := leBytes 256 (num [(0, 1), (2, 1), (3, 4), (4, 64), (6, 1), (8, 24), (0x0C, 1), (0x19, 1), (0x1A, 256),
      (0x1C, 256), (0x20, 0x8000), (0x28, 0x9000), (0x30, 0xA000), (0x4C, 1), (0x58, 0xB000), (0x60, 1), (0x62, 4),
      (0x63, 4), (0x68, 0x10000), (0x70, 0x11000)])
    let tpl := leBytes 64 (num [(0, 0x11), (0x20, 0x9000), (0x28, 0xA000)])
    let pool := leBytes 16 (num [(0, 0x80000000), (8, 0x10000)])
    let d := genDescOf b
    let good := s { descVa := 0x4000 }
    ([s {}, s on, s { on with step := some st }, s { on with park := true }, good].all (fun s => s.parOpen 0
      && s.hasAccess (.host 0) (parBase 0 + 0x900) && s.hasAccess (.host 0) (parBase 0 + 0x90C)
      && !s.quarantined (.host 0))
    && !((s { descVa := 0x80000000 }).touchTables 0 0x80000000 256).pinnedRange 0 0x80000000 256 false
    && !({} : Gen).active && on.active
    && (good.touchTables 0 0x4000 256).pinnedRange 0 0x4000 256 false && (good.peek 0 0x4000 64).2.isSome
    && !(good.genTouch 0 d).genRingsBad 0 d && !genFieldsBad b && !stepQueueBad (good.part 0) d.stepQ
    && !templateBad d tpl && d.poolN == 1 && !good.extentBad d pool
    && tailOk on.reqN 0 0 1 && !tailOk on.reqN 0 0 (2 * on.reqN)) = true := by decide +kernel

/-- SIZE 6 and 16; a partition disabled, in its enable, and enabled. -/
theorem witness_soundingsAndPartitionControlComplete :
    let s := fun (st : BitVec 2) => tState { tPart with state := st }
    ((s 2).parOpen 0 && [0, 1, 2].all (fun st => (s st).hasAccess (.host 0) (parBase 0)
      && (s st).hasAccess (.host 0) (parBase 0 + 0xA00) && ((s st).part 0).state == st)
    && [6, 16].all fun n => 2 * n / 2 % 32 == n) = true := by decide +kernel

/-- A reset of the host running and none; a core and partition 0 there, partition 1 not; a core reset
inside a cluster reset and alone. -/
theorem witness_resetsComplete :
    let r : ResetKind → Nat → RunningReset := fun k t => ⟨k, t, false, 0xC000, true⟩
    let s := fun rs : List RunningReset =>
      { tState tPart with rst := { running := rs }, cht := { units := [(uCore 191, { role := 1 })] } }
    ((s []).hasAccess (.host 0) 0x210 && (s [r .core 0]).hasAccess (.host 0) 0x210
    && resetBusy (s [r .core 0]) && !resetBusy (s []) && (s []).reachedS9
    && !(s []).resetAbsent 0 191 && !(s []).resetAbsent 1 31 && !(s []).resetAbsent 2 0 && (s []).resetAbsent 2 1
    && (s [r .core 0, r .cluster 0]).rst.running.any (fun x =>
      (s []).resetCovers x (r .core 0) && !(s []).resetCovers (r .core 0) x)
    && !((s [r .core 0]).rst.running.any fun x =>
      (s []).resetCovers x (r .core 0) && !(s []).resetCovers (r .core 0) x)) = true := by decide +kernel

theorem witness_securityRequestsComplete :
    let s := fun busy w => { tState tPart with
      sec := { busy := busy, fwState := 1, fwSlot := true, svnRun := 5, waiting := w } }
    ([false, true].all (fun b => (s b []).sec.busy == b
      && [0x60004, 0x60008, 0x60014].all fun a => (s b []).hasAccess (.host 0) a)
    && !(s false []).idExhausted && (s false []).enabled 0 && (s false []).svnMin == 0
    && (s false []).reachedS9
    && ((s false [.keyDestroy 0]).sec.waiting.find? fun o => opTurn o == 0 && (s false []).opReady o)
      == some (.keyDestroy 0)) = true := by decide +kernel

/-- Words 2,048 and 4,095, one below its wear and one worn, a spare left and none, both floors. -/
theorem witness_persistentStoreAndLogComplete :
    let s := fun n k => { tState tPart with
      prs := { held := [(8190, 5)], count := [(4095, n)], idx := 4095, sparesUsed := k } }
    ([0x40000 + 8 * 2048, 0x40004 + 8 * 4095, 0x48008, 0x50010].all (fun a => (s 0 0).hasAccess (.host 0) a)
    && SMap.get 0 (s 999998 0).prs.count 4095 == 999998 && SMap.get 0 (s 1000000 0).prs.count 4095 == 1000000
    && (s 0 511).prs.sparesUsed == 511 && (s 0 512).prs.sparesUsed == 512) = true := by decide +kernel

/-- Link 0 and host-link port 1 in service, disabled, and in quarantine; a module past S8, and one before it; a
link without a neighbour. -/
theorem witness_linkControlRegistersComplete :
    let s := fun (k : Link) (u : UlPort) => { tState tPart with
      links := [(0, k), (63, k)], ul := [(0, { state := 2, lanes := 4 }), (1, u)] }
    let on := s { state := 2, lanes := 2 } { state := 2, lanes := 4 }
    let off := s { disable := true } { disable := true }
    let quar := s { state := 4, lanes := 2, quar := true } { state := 4, lanes := 4, quar := true }
    let early := { on with bu := { done := 7, busy := false } }
    ([on, off, quar, early].all (fun s => s.hasAccess (.host 0) (plBase 0 + 4) && s.hasAccess (.host 0) (ulBase 1 + 4)
      && (s.link 0).ceLog2.toNat == 24 && !s.tileCut 3)
    && !(on.link 0).disable && (off.link 0).disable && (quar.link 0).quar && !(on.link 0).quar
    && on.stepDone 8 && on.connected 0 && !early.stepDone 8 && !(on.port 1).disable && (off.port 1).disable
    && (quar.port 1).quar && !(on.port 1).quar && { on with mod := { tileCut := 8 } }.tileCut 3) = true := by
  decide +kernel

theorem witness_snapshotReadsComplete :
    ([coreBase 191 + 0x18, parBase 0 + 0x604, parBase 0 + 0x92C, parBase 0 + 0x818, loomBase 3 + 4, 0x6000C,
      0x50000, 0x50008, 0x50018, 0x50028].all fun a => (tState tPart).hasAccess (.host 0) a)
    && (tState tPart).enabled 0 = true := by decide +kernel

/-- Values at both ends of the ranges, and an address that a helm core does not reach. -/
theorem witness_registerWriteComplete :
    let h := tState { tPart with helm := 0 }
    (([0x104, 0x10008, 0x30004, 0x48000, parBase 0 + 0x600].all fun a => h.hasAccess (.host 0) a)
    && h.parOpen 0 && h.agentLive (.helm 0) && !h.agentReaches (.helm 0) 0x210) = true := by decide +kernel

/-- A pinned page, a poisoned one, an unpinned one with room and without, one that an atomic command writes to;
a page whose copy ends, its leaf as it was marked and changed since. -/
theorem witness_migrationComplete :
    let fs := fun len => [(0, 2), (0x18, 0), (0x20, 0x40000000), (0x28, 4096), (0x30, len), (0x38, 1)]
    let cmd := fun len => [tCmd (fs len)]
    let with_ := fun (leaf : Nat) (cs : List Cmd) => { tState { tPart with cmds := cs } with
      mem := { bd := tDram [(0x1000, 0x2001), (0x2000, 0x3001), (0x3000, leaf)] } }
    let free_ := 0x4800000040000003
    let s := fun len => with_ free_ (cmd len)
    let pages := fun (s : State) (f : List PageRef → Bool) =>
      tRow s (fun c => isMigrate c && c.prog == .none) fun c =>
        match (s.touchTables 0 (cSrc c) (cLen c)).pages 0 (cSrc c) (cLen c) with | .ok gs => f gs | .err _ => false
    let free := fun (gs : List PageRef) => (gs.find? fun g => leafPin g.leaf).isNone
      && (gs.find? fun g => leafPsn g.leaf).isNone
    let atm : Cmd := { tCmd [(0, 3), (1, 2), (0x18, 0), (0x20, 64)] with q := 1, dst := [(0, 64)] }
    let page : MigPage := { va := 0, size := 4096, frame := 0x50000000, slot := 0x3000 }
    let run := fun leaf => with_ leaf [tCmd (fs 0x40000000) (.migrate [page] 0 (some (BitVec.ofNat 64 (setMig free_))))]
    let cd := fun (s : State) => (s.frameOf 0 (setMig free_), s.frameOf 0 (leafAt (setMig free_) 1 0x50000000))
    (pages (with_ 0x4800000040000007 (cmd 0x40000000)) (fun gs => (gs.find? fun g => leafPin g.leaf).isSome)
    && pages (with_ (free_ + 64) (cmd 0x40000000)) (fun gs => (gs.find? fun g => leafPin g.leaf).isNone
      && (gs.find? fun g => leafPsn g.leaf).isSome)
    && pages (s 0x3FFFFFFF) (fun gs => free gs && placeGo gs 0x40000000 0x7FFFFFFF == none)
    && pages (s 0x40000000) (fun gs => free gs
      && placeGo gs 0x40000000 0x80000000 == some [{ va := 0, size := 0x40000000, frame := 0x40000000 }]
      && !(s 0x40000000).atomicHolds 0 0 0x40000000 && ((s 0x40000000).markMig 0 0).isSome)
    && (with_ free_ (cmd 0x40000000 ++ [atm])).atomicHolds 0 0 0x40000000
    && [setMig free_, free_].all (fun leaf => tRow (run leaf) isMigrate (fun c => c.prog ==
        .migrate [page] 0 (some (BitVec.ofNat 64 (setMig free_)))) && !(run leaf).hostHeld
      && (run leaf).copyAsleep (cd (run leaf)).1 (cd (run leaf)).2 4096 == none
      && ((run leaf).leafHeld 0 0 (setMig free_)).isSome == (leaf == setMig free_))) = true := by
  decide +kernel

/-- A RELEASE and a STAGE whose turn it is, one that four copies hold back, none; a copy that ends, its leaf as
it was marked and changed since; a scrubbed line; a response through the port and over a relay in each form. -/
theorem witness_pilotScrubAndHostMemory :
    let leaf := 0x4800000040000003
    let page : MigPage := { va := 0, size := 4096, frame := 0x50000000, slot := 0x3000 }
    let copy : StageRun := ⟨0, 0, [], some (page, BitVec.ofNat 64 leaf), 0, none, false⟩
    let s := fun (route : List RouteEntry) (n : Nat) (now : Nat) => { tState
      { tPart with plt := { run := true, route := route, active := List.replicate n copy } } with
      links := [(0, { state := 2 })]
      mem := { bd := tDram [(0x1000, 0x2001), (0x2000, 0x3001), (0x3000, now)] } }
    let next := fun (release : Bool) n => ((s [⟨0, 4096, 0, 0, release⟩] n (setMig leaf)).pilotDeadlines 0).nextOccurrence 0
    let one := fun now => (s [] 1 now).pilotDeadlines 0
    (((next true 0).map fun e => e.2.2.release) == some true
    && [0, 4].all (fun n => ((next false n).map fun e => e.2.2.release) == some false
      && pilotCopies ((s [] n 0).part 0).plt == n)
    && ((s [] 0 0).pilotDeadlines 0).nextOccurrence 0 == none
    && [setMig leaf, leaf].all (fun now => (((one now).part 0).plt.active[0]?.bind (·.cur)) == copy.cur && !(one now).hostHeld
      && (one now).copyAsleep ((one now).frameOf 0 leaf) ⟨.bd, page.frame, 0⟩ 4096 == none
      && ((one now).leafHeld 0 0 (setMig leaf)).isSome == (now == setMig leaf))
    && (s [] 0 0).bu.ready && (lineOfUnit 31 (3 * 2 ^ 31 + 448)).2 && (s [] 0 0).frameOk .bd ((3 * 2 ^ 31 + 448) * 64)
    && portLive ((s [] 0 0).port 0) && ((s [] 0 0).port 0).state != 4 && ulReasons.contains 0x0F
    && linkRuns ((s [] 0 0).link 0)) = true := by
  decide +kernel

/-- ATTEND without an engine, and with one over an empty batch; a batch whose window comes twice, and one past
POSMAX; SAMPLE at the ends of V; VERIFY_HEADS; SOUND_READ without a table and of no entry, with and without
CLEAR. -/
theorem witness_rowCommandsComplete :
    let at_ := tRun [(0, 0x10)]
    let prof := (0x3F800000 * 2 ^ 64) + 5 * 2 ^ 96 + 1 + 2 ^ 16 + 2 ^ 32
    let d : GenDesc := { layers := 1, hkv := 1, klog := 4, hdim := 64, kvFmt := 1, lstride := 24, profN := 1, profVa := 0x5000 }
    let run := tState { tPart with cmds := [tCmd [(0, 0x10), (0x28, 0x4000), (0x20, 0x6000)]], gen := { state := 1, desc := d } }
      [(0x5000, prof % 2 ^ 64), (0x5008, prof / 2 ^ 64)]
    let sa := fun head v => tRun [(0, 0x11), (0x20, 0x4000), (0x38, v), (0x3C, head)]
    let ve := tRun [(0, 0x12), (0x18, 0x4000)]
    let so := fun en fl => tState { tPart with cmds := [tCmd [(0, 0x21), (1, 2 * fl), (0x28, fl)]], snd := { en := en } }
    let rows := fun (s : State) (va : Nat) => match s.readBatch 0 va with | (_, .ok r) => r.isEmpty | _ => false
    let r : Nat → GenRow := fun w => { rowOf (List.replicate 16 0) with win := w }
    (tRow at_ (·.op == opAttend) (fun _ => !(at_.gen 0).active)
    && tRow run (·.op == opAttend) (fun c => (match run.attendProfile 0 c with
      | (t, .inl x) => x.hq == 1 && rows t (c.va 0x28)
      | _ => false))
    && rowsBroken [] [r 1, r 2, r 1] == some 2 && rowsBroken [] [r 1] == none
    && decide (d.posMax < { r 1 with pos := 2 ^ 24 }.pos)
    && [(5, 2), (0, 1), (0, 1048577)].all (fun e => tRow (sa e.1 e.2) (·.op == opSample) fun c =>
      decide (4 < saHead c ∨ saV c < 2 ∨ 1048576 < saV c))
    && [2, 1048576].all (fun v => tRow (sa 4 v) (·.op == opSample) fun c => saV c == v && rows (sa 4 v) (c.va 0x20)
      && (sampleGo 0 c [] 0 (sa 4 v)).2 == .ok 0)
    && tRow ve (·.op == opVerify) (fun c => rows ve (c.va 0x18))
    && tRow (so false 0) (·.op == opSoundRead) (fun _ => true)
    && [0, 1].all fun fl => tRow (so true fl) (·.op == opSoundRead) fun c => (sndClear c && staged c) == (fl == 1)
      && (sndReadGo 0 c [] (so true fl)).2 == .ok 0) = true := by decide +kernel

/-- An UPDATE that its checks stop and one that runs, over no layer; a LOOM_MOVE over a group, a LOCAL one whose
descriptors fail and one of no tensor; a record with the table off, and with an entry of its tensor and without. -/
theorem witness_updateLoomAndRecordsComplete :
    let up := tRun [(0, 0x20)]
    let run := tState { tPart with cmds := [tCmd [(0, 0x20)]], upd := { ctN := 1, ctVa := 0x4000 } }
    let lm := tRun [(0, 0x38)]
    let loc := fun n => tRun [(0, 0x38), (0x18, 0x4FC0), (0x20, 0x6FC0), (0x30, n), (0x34, 1)]
    let rec_ : SndRec := { bound := true, tensor := 9, elems := 1 }
    let s := fun (snd : Soundings) (w : Nat) => { tState { tPart with clMask := 1, snd := snd } [(0x4FC0, 9), (0x4FC8, w)] with
      cores := [(0, { emitted := [rec_] })] }
    let on : Soundings := { en := true, base := 0x4B40 }
    let t := fun (s : State) => s.updCore 0 fun x => { x with emitted := [] }
    let va := on.entryVa (9 % on.n)
    (tRow up (·.op == opUpdate) (fun c => match (up.updCheck 0 c).2 with | .stop _ => true | _ => false)
    && tRow run (·.op == opUpdate) (fun c => match run.updCheck 0 c with
      | (s1, .run js clip eta) => (match layersGo 0 c clip eta js s1 with
        | (s2, .ok r) => tOk (tailsGo (s2.helmReq 0) r.1 s2)
        | _ => false)
      | _ => false)
    && tRow lm (·.op == opLoomMove) (fun c => c.prog == .none && !loomLocal c)
    && tRow (loc 1) (·.op == opLoomMove) (fun c => c.prog == .none && loomLocal c
      && (match ((loc 1).loomOpen 0 c).2 with | .fail _ _ _ _ => true | _ => false))
    && tRow (loc 0) (·.op == opLoomMove) (fun c => c.prog == .none && loomLocal c
      && (match (loc 0).loomOpen 0 c with
        | (t, .ok ts _) => ts.isEmpty
          && (let l : LoomRun := { coll := { group := 0, ordinal := 0, hash := 0, phase := .data }, tensors := ts }
            let t1 := (t.loomsTake 0 c (t.moveTiles 0 ts)).updCmd 0 c fun y => { y with prog := .loom l }
            (t1.cmdNow 0 c).prog == .loom l && !t1.loomYields 0 c && loomComplete l 1 0)
        | _ => false))
    && va == 0x4FC0 && ((s on 0).core 0).emitted == [rec_] && (s on 0).ownerOf (clusterOf 0) == some 0
    && !((s {} 0).part 0).snd.en
    && [0, 2 ^ 48].all (fun w => match (t (s on w)).xreadNow ((t (s on w)).helmReq 0) va 128 with
      | (_, .ok b) => (bit (bAt b 0x0E 2) 0 && bAt b 0 4 == 9) == (w != 0)
      | _ => false)) = true := by
  decide +kernel

/-- A table of two members and an empty one; a group in use and not; rank 1 of 2. -/
theorem witness_groupsComplete :
    let ms : List Member := [⟨0, 0⟩, ⟨1, 0⟩]
    let fm : Forming := ⟨5, 0, ms, 0, 77, false, []⟩
    let s := fun (mode n : Nat) (g : Group) (prog : Prog) =>
      { tRun [(0, 0x31), (0x18, 0x4000), (0x20, 5), (0x22, n), (0x24, mode)] prog [(0x4000, 2 ^ 32)] with
        groups := if g.members = [] then [] else [(5, g)] }
    let g : Group := { members := ms, state := .formed }
    let table := fun (s : State) (n : Nat) => match s.xread (s.helmReq 0) 0x4000 (4 * n) with
      | (t, .ok bs) => (List.range n).map (fun i => bAt bs (4 * i) 4) == (List.range n)
        && t.tableBad 0 (List.range n) == (n == 0)
      | _ => false
    ([0, 2].all (fun n => tRow (s 0 n {} .none) (fun c => isForm 0 c && c.prog == .none) (fun _ => true)
        && table (s 0 n {} .none) n && table (s 0 n g .none) n)
    && tRow (s 1 2 g .none) (fun c => isForm 1 c && c.prog == .none) (fun _ => true) && (s 1 2 g .none).groupFor 0 5
    && table ((s 1 2 g .none).breakGroup 5 0x1012 0xFFFF) 2 && ms.isSublist g.members
    && tRow (s 1 2 {} .none) (fun c => isForm 1 c && c.prog == .none) (fun _ => !(s 1 2 {} .none).groupFor 0 5)
    && tRow (s 2 0 g .none) (fun c => isForm 2 c && c.prog == .none) (fun _ => (s 2 0 g .none).groupFor 0 5)
    && tRow (s 2 0 {} .none) (fun c => isForm 2 c && c.prog == .none) (fun _ => !(s 2 0 {} .none).groupFor 0 5)
    && tRow (s 0 2 {} (.form fm)) (·.op == opGroupForm) (fun c => c.prog == .form fm
      && (List.range fm.members.length).find? (formWants fm) == some 1)
    && ((s 0 0 g .none).group 5).n == 2 && ((s 0 0 g .none).group 5).rank == 0
    && (match (s 0 2 {} (.form fm)).formingCmd 5 with
      | some (p, c, f) => p == 0 && f == fm && ((s 0 2 {} (.form fm)).cmdNow 0 c).prog == .form fm
      | none => false)
    && decide (4096 ≤ ({ s 0 2 {} .none with groups := (List.range 4096).map fun i => (i, g) } : State).groupsUsed)
    && formRank fm 1 == 1 && formWants fm 1 && fm.got.length + 2 == fm.members.length) = true := by decide +kernel

/-- One COLLECTIVE of each operation; the admission of one whose group is not there, broken, formed, whose size
the group does not divide, whose ordinal has passed, whose staging core is full and which has been abandoned, and
of a LOAD. -/
theorem witness_collectivesStart :
    let row := fun k => tRun [(0, 0x30), (0x2F, 16 * k)]
    let st : ColRegs := { stage0 := { core := 0, slots := 1 } }
    let coll := fun (root : Nat) => tCmd [(0, 0x30), (0x2E, 5 + 4096 * (if root = 0 then 0 else 3)), (0x28, 3),
      (0x30, 1), (0x3C, root * 2 ^ 20)] (.coll { group := 5, ordinal := 3, hash := 0 })
    let busy := { coll 0 with q := 1, prog := .coll { group := 5, ordinal := 2, hash := 0, phase := .data } }
    let load := tCmd [(0, 0x39), (0x20, 3), (0x26, 5)]
      (.load ⟨0, { group := 5, ordinal := 3, hash := 0 }, [], 0, 0, false, [], [], [], 0, [], false, 0, false, [], none, []⟩)
    let of := fun (g : Option GroupState) (last : Nat) (col : ColRegs) (c : Cmd) (gone : List (Nat × Nat × Nat)) (more : List Cmd) =>
      { tState { tPart with index := [0], col := { col with last := BitVec.ofNat 48 last, any := true }
                            cmds := c :: more, abandoned := gone } with
        mod := { lcores := 1, lmap := [(0, 1)] }
        groups := match g with
          | some x => [(5, { members := [⟨0, 0⟩, ⟨1, 0⟩], state := x })]
          | none => [] }
    let s := fun g last col => of g last col (coll 0) [] []
    let adm := fun (s : State) (f : State → Cmd → Bool) =>
      s.enabled 0 && match (s.resumeGroups 0).nextAdmit 0 with
        | some c => c.coll.isSome && gGroup c == 5 && gOrd c == 3 && f (s.resumeGroups 0) c
        | none => false
    ([0, 1, 2, 3, 4, 5].all (fun k =>
      tRow (row k) (fun c => c.op == opCollective && colOp c == k && c.prog == .none) fun _ => true)
    && adm (s none 2 st) (fun t _ => !t.groupFor 0 5)
    && adm (s (some .broken) 2 st) (fun t _ => t.groupFor 0 5 && (t.group 5).state == .broken)
    && adm (s (some .formed) 3 st) (fun t c => t.groupFor 0 5 && !collSizeBad c 2 && decide (gOrd c ≤ (t.part 0).col.last.toNat))
    && adm (s (some .formed) 2 {}) (fun t c => !collSizeBad c 2 && t.stagingBad 0)
    && adm (s (some .formed) 2 st) (fun t c => !collSizeBad c 2 && !t.stagingBad 0 && !t.stagingFull 0)
    && adm (of (some .formed) 2 st (coll 2) [] []) (fun _ c => collSizeBad c 2)
    && adm (of (some .formed) 2 st (coll 0) [] [busy]) (fun t c =>
      !collSizeBad c 2 && !t.stagingBad 0 && t.stagingFull 0)
    && adm (of (some .formed) 2 st (coll 0) [(5, 0, 3)] []) (fun t c => !collSizeBad c 2 && !t.stagingBad 0
      && !t.stagingFull 0 && (t.part 0).abandoned.contains (5, (t.group 5).epoch.toNat, 3))
    && [2, 3].all (fun last => [[], [(5, 0, 3)]].all fun gone => adm (of (some .formed) last {} load gone []) fun t c =>
      t.groupFor 0 5 && c.op != opCollective && isLoad c)) = true := by
  decide +kernel

/-- A COLLECTIVE not there, ahead and behind, in its header phase and in its data phase; a LOOM_MOVE in its data
phase; another epoch; a header and an ABANDON that are kept once. -/
theorem witness_collectiveMessagesComplete :
    let s := fun (k : Option CollPhase) (last : Nat) =>
      { tState { tPart with col := { last := BitVec.ofNat 48 last, any := true }, cmds := match k with
          | some ph => [tCmd [(0, 0x30), (0x2E, 5), (0x28, 3), (0x30, 1)]
            (.coll { group := 5, ordinal := 3, hash := 0, phase := ph })]
          | none => [] } with
        groups := [(5, { members := [⟨0, 0⟩, ⟨1, 0⟩], state := .formed })] }
    let loom := { s none 2 with parts := [(0, { tPart with cmds := [tCmd [(0, 0x38), (0x2E, 5), (0x28, 3)]
      (.loom { coll := { group := 5, ordinal := 3, hash := 0, phase := .data }, tensors := [] })] })] }
    let named := fun ph f => ((s ph 2).epochCmd 0 ⟨5, 0⟩ 3 f).isSome
    ((s none 2).epochCmd 0 ⟨5, 0⟩ 3 cmdAdmitted == none && (s none 2).ordAhead 0 3 && !(s none 3).ordAhead 0 3
    && (s none 2).epochCmd 0 ⟨5, 0⟩ 3 (fun _ => true) == none && ((s none 2).part 0).early.isEmpty
    && ((s none 2).part 0).abandoned.isEmpty && ((s none 2).group 5).epoch != 1
    && named (some .header) (fun c => cmdAdmitted c && cmdPhase c == .header
      && (((s (some .header) 2).collNow 0 c).map fun k => k.headers.isEmpty && k.phase == .header) == some true)
    && named (some .data) (fun c => cmdAdmitted c && isSumRed c && c.op == opCollective
      && cmdPhase c == .data && !isLoad c)
    && named (some .header) (fun c => cmdAdmitted c && isSumRed c && c.op == opCollective && cmdPhase c != .data)
    && ((s none 2).group 5).n == 2 && ((s none 2).group 5).rank == 0
    && (loom.groupCmd 0 5 3 fun c => isLoomGroup c && cmdPhase c == .data).isSome) = true := by decide +kernel

theorem witness_chunkSumsDoNotDependOnOrder :
    (∀ r ∈ [1], r ∉ [2]) ∧ (∀ r ∈ [1] ++ [2], r ∉
      (SMap.get ([], []) ({ group := 5, ordinal := 3, hash := 0 } : Coll).partials 0).1) := by decide

/-- LOAD, ADOPT and RETIRE of a set in each state that they refuse, and of one that they take; the messages
of a LOAD in its data phase, this member the second of three. -/
theorem witness_weightLoadsComplete :
    let row := fun mode (st : BitVec 3) =>
      tState { tPart with cmds := [tCmd [(0, 0x39), (0x18, 0x4000), (0x28, mode)]], ws := [(0, { state := st })] }
        [(0x4000, 0x4D4E5357 + 2 ^ 32), (0x4008, 1), (0x4010, 0x8000), (0x4018, 0x100000)]
    let ent := fun (n : Nat) => leBytes 128 (n + 2 ^ 32 + 64 * 2 ^ 64 + 0x6000 * 2 ^ 448)
    let e : ManEntry := ⟨1, false, 3, [], 0, [0x5000], [], 0⟩
    let run := fun (f : LoadRun → LoadRun) (rank : Nat) (more : List Cmd) =>
      { tState { tPart with cmds := [{ tCmd [(0, 0x39), (0x20, 3), (0x26, 5)] (.load (f
          { set := 0, coll := { group := 5, ordinal := 3, hash := 0, phase := .data }, entries := [e]
            crcVa := 0x6000, retVa := 0x7000, genFlag := false })) with looms := [0] }] ++ more } with
        groups := [(5, { members := [⟨0, 0⟩, ⟨1, 0⟩, ⟨2, 0⟩], state := .formed, rank := rank })] }
    let tack : Cmd := { tCmd [(0, 0x38), (0x34, 2)] (.loom { coll := { group := 6, ordinal := 3, hash := 0, phase := .data }, tensors := [] }) with q := 1, looms := [0] }
    let here := fun (s : State) (f : Cmd → LoadRun → Bool) =>
      s.groupCmd 0 5 3 (fun c => isLoad c && cmdPhase c == .header) == none
      && match s.groupCmd 0 5 3 fun c => isLoad c && cmdPhase c == .data with
        | some c => (match s.loadOf 0 c with | some l => l.coll.group == 5 && f c l | none => false)
        | none => false
    let bytes : List Byte := [1, 2, 3]
    ([(0, 1), (1, 1), (2, 1), (2, 3), (2, 0), (0, 0), (0, 4), (1, 0)].all (fun m =>
      tRow (row m.1 m.2) (fun c => isWeight m.1 c && c.prog == .none) fun c =>
        (((row m.1 m.2).part 0).wset (loadSet c)).state == m.2
        && (match ((row m.1 m.2).xread ⟨0, (row m.1 m.2).loomFor 0 0x4000⟩ 0x4000 64).2 with
          | .ok h => !manHeaderBad 0 h
          | _ => false))
    && manEntryBad true 0 (ent 9) && !manEntryBad true 0 (ent 0)
    && (row 0 0).pinned 0 0x4000 192 && (row 0 0).pinnedRange 0 0x100000 retBytes false
    && here (run id 1 []) (fun c l => loadRuns l && !l.good.contains (0, 0) && decide (0 < manChunks e)
      && bytes.length == chunkLen e 0 && l.entries[0]? == some e && !l.ended && l.failure.isNone
      && !(run id 1 []).loomYields 0 c
      && (match ((run id 1 []).loomsAct 0 ((run id 1 []).cmdNow 0 c)).loadTake 0 c 0 0 bytes (crc64 bytes) with | .on _ => true | .wait _ => false)
      && (heldShards l).find? (fun x => !shardComplete l x.2 x.1) == some (e, 0))
    && here (run id 1 [tack]) (fun c _ => (run id 1 [tack]).loomYields 0 c)
    && here (run (fun l => { l with kept := [(0, 0, 0)] }) 1 []) (fun _ l => tOk ((run id 1 []).xread ⟨0, (run id 1 []).loomFor 0 l.retVa⟩ l.retVa 3))
    && here (run id 0 []) (fun _ l => l.kept.isEmpty && tOk ((run id 0 []).headChunk 0 l 0 0))
    && here (run (fun l => { l with good := [(0, 0)] }) 1 []) fun _ l =>
      (heldShards l).find? (fun x => !shardComplete l x.2 x.1) == none) = true := by decide +kernel

/-- A set that is EMPTY; one that is RESIDENT with a shard of one line, whose copy is there and whose CRC table
agrees; a recovery that waits for an answer. -/
theorem witness_recoveryMessagesComplete :
    let r : Recovery := ⟨1, 2, 0, 0⟩
    let e : ManEntry := ⟨1, false, 64, [], 0, [0x5000], [], 0⟩
    let crc := (crc64 (List.replicate 64 0)).toNat
    let s := fun (st : BitVec 3) => tState { tPart with ws := [(15, { state := st, recoveries := [r] })] }
    let full := tState { tPart with ws := [(15, { state := 2, entries := [e], crcVa := 0x6000, recoveries := [⟨0, 0, 0, 0⟩] })] } [(0x6000, crc)]
    let none_ := tState { tPart with ws := [(15, { state := 2, entries := [{ e with copies := 0 }], crcVa := 0x6000 })] }
    ((((s 0).part 0).wset 15).state == 0 && (s 3).askedRecovery 0 15 1 2 == some r
    && decide (0 < manChunks e) && manEntry ((full.part 0).wset 15) 0 == e
    && (copyGo 0 15 0 0 (List.range e.copies) full []).2.1.isSome
    && (copyGo 0 15 0 0 (List.range 0) none_ []).2.1.isNone
    && full.askedRecovery 0 15 0 0 == some ⟨0, 0, 0, 0⟩ && (full.tableCrc 0 15 0 0).2.1.isSome
    && (full.offerChunk 0 15 ⟨0, 0, 0, 0⟩ crc (List.replicate 64 0)).2
    && !(full.offerChunk 0 15 ⟨0, 0, 0, 0⟩ crc [1]).2
    && ((((s 3).part 0).wset 15).recoveries.find? fun r => r.shard == 1 && r.chunk == 2) == some r) = true := by
  decide +kernel

theorem witness_abortsComplete :
    ([0, 1, 2, 3].all fun k => tRow (tRun [(0, 0x7E), (0x18, k)]) (fun c => c.op == opAbort && aScope c == k)
      fun c => decide (c.q < 64)) = true := by decide +kernel

/-- A single free window is found whatever the pick. -/
theorem witness_oneWindow (pick : Nat → Nat) (a : Nat) : (pickFrames pick 1 [a]).length = 1 := by
  simp [pickFrames, Nat.mod_one]

/-- A request ring that holds a SUBMIT of FANOUT 0, a CANCEL, a PAUSE and a RESUME of request 9, not live, and
live, running and paused; a SUBMIT of one token that finds a window and a page, no window, no page, its id used;
steps that start with no row and with one, the event ring not full and full; a step that has run, in an engine that
stops and in one that goes on, failed and not. -/
theorem witness_servingComplete :
    let d : GenDesc := { layers := 1, hkv := 1, klog := 4, hdim := 64, kvFmt := 1, lstride := 24, windows := 1
                         chunk := 256, rowsMax := 256, tplN := 1, reqVa := 0x4000, evtVa := 0x6000, reqLog2 := 4
                         evtLog2 := 4, poolN := 1, outVa := 0x7000, batchVa := 0x8000 }
    let g : Gen := { en := true, state := 1, reqTail := 1, desc := d }
    let pool := poolOf d (leBytes 16 (0x80000000 + 0x10000 * 2 ^ 64))
    let r : GenReq := ⟨9, 0, 0, 0, false, false, false, false, 0, [7], 1, 0, 0, 0, 0, 0, 0, 0, none, 0, 0, 0, none, [],
      0, false, none, false, false, false, false⟩
    let s := fun kind rs => tState { tPart with gen := { g with reqs := rs } } [(0x4000, kind + 9 * 2 ^ 32)]
    let sub := fun w rs => tState { tPart with gen := { g with extents := w, reqs := rs } }
      [(0x4000, 1 + 2 ^ 16 + 9 * 2 ^ 32), (0x4010, 0x5000), (0x4018, 1 + 2 ^ 32)]
    let st : GenStep := { no := 1, rows := [], left := 0 }
    let run := fun stop f => tState { tPart with
      gen := { g with step := some { st with failed := f }, stopping := stop } }
    let entry := fun (s : State) (f : State → List Byte → Bool) => match s.nextEntry 0 with
      | .on (t, b) => f t b | .wait _ => false
    let want := fun (s : State) (f : State → Gen → List Byte → Bool) => entry s fun t b =>
      !submitBad d b && decide (submitRoom (s.gen 0) b ≤ (t.gen 0).evtRoom)
      && (match t.xread (t.helmReq 0) (bVa b 0x10) 4 with
        | (v, .ok _) => f v (t.gen 0) b
        | _ => false)
    let pages := fun (v : State) => (v.reclaim 0 0 (admitNeed d false 1 0 1)).2
    ([1, 2, 3, 4].all (fun k => entry (s k []) fun t b => eKind b == k && eId b == 9 && submitBad d b
      && decide (2 ≤ (t.gen 0).evtRoom) && ((t.gen 0).live 9).isNone)
    && [none, some 1].all (fun p => [2, 3, 4].all fun k => entry (s k [{ r with paused := p }]) fun t b => eKind b == k
      && (((t.gen 0).live 9).map fun r => r.paused == p && !r.pausing) == some true && (t.gen 0).step.isNone)
    && want (sub pool []) (fun v g _ => (g.live 9).isNone && ((List.range g.desc.windows).filter fun w => (g.byWin w).isNone).length == 1
      && pages v)
    && want (sub [] []) (fun v _ _ => !pages v)
    && want (sub pool [r]) (fun _ g _ => (g.live 9).isSome)
    && want (sub pool [{ r with id := 8 }]) (fun v g _ => (g.live 9).isNone
      && (pickWindows g (Config.freePick v.free) 1).isEmpty)
    && (s 1 []).mayStep 0 && ((s 1 []).planStep 0 []).2.isEmpty
    && ((sub pool [r]).gen 0).choose.length == 1 && !evtShort ((sub pool [r]).gen 0) ((sub pool [r]).gen 0).choose
    && evtShort { (sub pool [r]).gen 0 with evtTail := 16 } ((sub pool [r]).gen 0).choose
    && [(true, none), (false, some (1, 2)), (false, none)].all fun e =>
      ((run e.1 e.2).gen 0).step == some { st with failed := e.2 } && (run e.1 e.2).enabled 0
        && ((run e.1 e.2).gen 0).stopping == e.1
        && (match (run e.1 e.2).outputs 0 st with
          | (_, .ok os) => os.isEmpty
          | _ => false)) = true := by decide +kernel

theorem witness_powerSequenceAndOffers :
    let s := fun (i : InputState) => { State.reset with pwr := { input := i } }
    let m := fun off => { s .good with bu := { done := 0, busy := false, descBad := true, offering := off } }
    ((s .off).pwr.input == .off && State.reset.pwr.input == .standby
    && [false, true].all (fun o => (m o).atS0End && (m o).hostPort == none && (m o).bu.offering == o)
    && coordsLegal (coordFields (m true).mod (0x3F * 2 ^ 16)) && !coordsLegal (coordFields (m true).mod 0)) = true := by
  decide +kernel

/-- Each step of bring-up as it runs; a firmware image that is there and one that is not; a row that fails its
test and one that does not; units good, one without a spare bad, the active engine bad; an outcome that completes
and one that fails. -/
theorem witness_bringUpComplete :
    let s := fun (n : BitVec 4) (o : Option (Nat × Nat)) => { State.reset with
      pwr := { input := .good, railsOn := true }, bu := { run := n, busy := true, outcome := o } }
    let fw := { s 2 none with
      mem := { host := { base := 0 } }, bu := { run := 2, busy := true, fwLen := 256, hostDir := some 0 } }
    let bad := fun u => { s 7 none with cht := { units := [(u, { testBad := true })] } }
    let z : Option Nat → State := fun dir => { s 0 none with bu := { done := 0, busy := false, hostDir := dir } }
    ([2, 3, 4, 5, 6, 7, 8, 9, 10].all (fun n => (s (BitVec.ofNat 4 n) none).stepRuns n)
    && (z none).atS0End && (z (some (dirOf 63))).hostPort == none && decide (1 < (z none).dimSize 0)
    && !(s 2 none).hostHeld && (s 2 none).readFirmware == none
    && (s 3 none).board.fusedMapOk && (clusterOfIsland 8).isNone && (clusterOfIsland 7).isSome
    && (s 4 none).deadTile 0xFFFFFF00 == some 0 && (s 4 none).deadTile 0x01010101 == none
    && (match fw.readFirmware with | some f => fw.checkFirmware f == .inl 1 | none => false)
    && [([[2]], true), ([[1], [1]], true), ([[1], [], [1]], true), ([[1], []], false)].all (fun e =>
      rowFails ⟨⟨false, 0, 0, 0, 0⟩, e.1⟩ (testPhases 0) == e.2)
    && !rowFails ⟨⟨false, 0, 0, 0, 0⟩, [[1], [], [1]]⟩ (testPhases 1)
    && (testedUnits.foldl State.reconcile (s 7 none)).fatalUnit == none
    && (testedUnits.foldl State.reconcile (bad 0x8000)).fatalUnit == some (0x70, 0x8000)
    && (testedUnits.foldl State.reconcile (bad 0x4000)).fatalUnit == some (0x71, 0x4000)
    && (s 3 (some (0, 0))).stepMayEnd && (s 3 (some (0x30, 0))).stepMayEnd) = true := by decide +kernel

/-- With the T0 management core bad and T1 in use, a bad Loom, and the T1 security engine good (R463). -/
theorem test_singleRoles :
    let s : State := { State.reset with
      mod := { mgmtT1 := true }, cht := { units := [(0x4000, { fusedBad := true }), (0x9002, { testBad := true })] } }
    let t := s.assignSingles
    ([0x4000, 0x4001, 0x5000, 0x5001, 0x8000, 0x9001, 0x9002].map fun u => (t.unit u).role.toNat)
      = [0, 3, 1, 2, 1, 1, 0] := by decide +kernel

/-- The module's own word at its last commit takes a spare; without one it is worn, and the next commit is
discarded (R504, R505). -/
theorem test_ownWordWears :
    let r : Nat → PrsState := fun k => { count := [(7, 999999)], sparesUsed := k }
    let a := (r 511).commitOwn 7 5
    let b := (r 512).commitOwn 7 5
    (!a.worn 7 && a.sparesUsed == 512 && b.worn 7 && b.words == [(7, 5)]
      && (b.commitOwn 7 6).words == [(7, 5)]) = true := by decide +kernel

/-- A bucket with one record to spend and with none; the mirror before and after; times on both sides. -/
theorem witness_logbookRowsComplete :
    let s := fun b mir => { State.reset with
      pwr := { input := .good }, log := { pwait := [{}], bucket := b, mirror := mir, optime := 8 } }
    ((s 0 false).log.pwait == [{}] && (s 1 true).log.bucket == 1 && (s 1 true).log.mirror
    && (s 0 false).pwr.input == .good && decide ((8 : BitVec 40).toNat ≤ (s 0 false).log.optime.toNat)
    && decide ((7 : BitVec 40).toNat < (s 0 false).log.optime.toNat)) = true := by decide +kernel

theorem witness_i3cComplete :
    (State.reset.i3cUp && !({ State.reset with pwr := { mgmtVio := false } } : State).i3cUp
      && !({ State.reset with pwr := { input := .off } } : State).i3cUp) = true := by decide +kernel

/-- The input at 45.999, 43.999, 41.999 and 47 V, each phase of the droop; rail 24 with its spares and
without. -/
theorem witness_droopAndRailsComplete :
    let s := fun (v : BitVec 16) (d : DroopPhase) =>
      { tState tPart with pwr := { input := .good, railsOn := true, vin := v, droop := d } }
    ((s 45999 .none).pastS0 && (s 43999 (.held 8)).pastS0 && (s 41999 (.restoring 15)).pastS0
    && decide (45999 < 46000) && (s 47000 (.held 4)).pwr.vin.toNat == 47000
    && (s 0 .none).railIsOn 24 && (s 0 .none).railIsOn 0 && decide (0 < railN 24 + 2)
    && !((s 0 .none).rail 24).retired.contains (railN 24 + 1)
    && (s 0 .none).awake (islandOfCluster 31) && !((s 0 .none).island (islandOfCluster 31)).local_) = true := by
  decide +kernel

/-- The window at the cap, above it and below 95 %; sensors at 839, 840, 919 and 920 eighths; a stopped
island, one that runs, and two slots of a wake. -/
theorem witness_powerCapHeatAndStops :
    let s := fun hold => { tState tPart with
      pwr := { input := .good, railsOn := true, tripHold := hold }
      clk := { islands := [(24, { state := 2 })], wakes := [(0, [(24, 2), (3, 1)])] } }
    ((s true).pwr.tripHold && (s false).pwr.input == .good
    && [(839, false), (840, true), (919, true)].all (fun e =>
      decide (840 ≤ (BitVec.ofNat 16 e.1).toInt ∧ (BitVec.ofNat 16 e.1).toInt < 920) == e.2)
    && decide (920 ≤ (920 : BitVec 16).toInt) && (s false).pwr.capW == 3600
    && (s false).railIsOn 0 && (s false).awake (islandOfCluster 0) && (s false).clusterQuiet 0
    && !(s false).sealedIsland (islandOfCluster 0) && !(s false).sealedMemory 0 && (s false).awake (memIsland 0)
    && SMap.get [] (s false).clk.wakes 0 == [(24, 2), (3, 1)] && ((s false).island 24).state == 2) = true := by
  decide +kernel

/-- A module in service and one that enables a partition; the second bridge that fails cuts two tiles off. -/
theorem witness_failuresComplete :
    let s := { tState tPart with
      cht := { units := [(uCore 0, { role := 1 }), (uHelm 0, { role := 1 }), (uHelm 5, { role := 1 })] }
      mod := { bridgeUp := 15 } }
    let en := tState { tPart with state := 1 }
    let chain := { s with mod := { bridgeUp := 13 } }
    (s.stepDone 7 && s.coreServes 0 && s.helmRole 0 != 0 && s.helmPart 0 == some 0 && s.helmRole 5 != 0
    && s.helmPart 5 == none && !s.sec.failed && noSpare 0x8000 && noSpare 0xE063 && s.mod.bridgeUp.getLsbD 3
    && !s.enabling && en.enabling && s.cht.lost.isEmpty && { s with sec := { failed := true } }.sec.failed
    && s.cutBy 7 &&& ~~~s.mod.tileCut == 0 && chain.cutBy 5 &&& ~~~chain.mod.tileCut != 0 && chain.mod.bridgeUp.getLsbD 3
    && portLive (s.port 0) && (s.port 1).state == 0) = true := by
  decide +kernel

/-- Link 0 active with a flit to acknowledge and with its eighth replay, retraining, down, in management mode;
packets in order, repeated, ahead of their turn, an idle one, one of a reserved TYPE, one with a bad CRC; a lane's
window at its limit and past it; trainings cabled rightly and wrongly, on both lanes, one and none, the third that
fails; another module's states. -/
theorem witness_peerLinksComplete :
    let f : Flit := ⟨1, 0, 0, 0, 0, 1, 0, 0, 0, 1, 0, 0, [0]⟩
    let g := fun (f : Flit) => readFlit (flitBody f)
    let s := fun st n => { tState tPart with links := [(0, { state := st, lanes := 2, sent := [f], replayCount := n })] }
    let m := { tState tPart with links := [(0, { state := 2, lanes := 2, mgmtMode := true })] }
    let r := fun n => { tState tPart with links := [(0, { state := 1, fails := n })] }
    let t := fun (lanes : BitVec 4) ok right mgmt => (⟨0, lanes, ok, 0, mgmt, BitVec.ofNat 8
      (if right then (r 0).neighbour (r 0).coord (dirOf 0) else 255), BitVec.ofNat 6 (partnerLink 0)⟩ : LinkTraining)
    let a := s 2 0
    (linkRuns ((s 2 7).link 0) && ((s 2 8).link 0).replayCount == 8 && ((s 1 0).link 0).state == 1
    && ((s 0 0).link 0).state == 0 && (s 0 0).stepDone 8 && !(a.link 0).mgmtMode && (m.link 0).mgmtMode
    && bodyOk (flitBody f) (crc32 (flitBody f)) && !bodyOk (List.replicate 252 1) 1 && a.flitBad 0 (g f) true == none
    && sequenced (g f) && (g f).seq == ((a.ackThrough 0 (g f).ack).commitAcked.link 0).rxNext
    && !sequenced (g { f with kind := 0 }) && a.flitBad 0 (g { f with kind := 0 }) true == none
    && a.flitBad 0 (g { f with kind := 7 }) true == some 2 && a.flitBad 0 (g f) false == some 6
    && a.flitBad 0 (g { f with seq := 0xFFF }) true == none
    && repeats ((a.ackThrough 0 0).commitAcked.link 0) (g { f with seq := 0xFFF })
    && (let d := { a with links := [(0, { state := 2, lanes := 2, rxDiscard := true })] }
      d.flitBad 0 (g { f with seq := 2 }) true == none && !repeats ((d.ackThrough 0 0).commitAcked.link 0) (g { f with seq := 2 }))
    && m.flitBad 0 (g { f with kind := 7 }) true == some 2
    && decide (2 ^ (a.link 0).ceLog2.toNat < (BitVec.ofNat 32 (2 ^ 24 + 1)).toNat) && !(a.link 0).lane0Bad
    && [(0, 1), (2, 3)].all (fun n => (((r n.1).link 0).fails + 1 == n.2)) && (r 0).connected 0
    && !((r 0).link 0).disable && (t 3 true true false).partner.coord.toNat == (r 0).neighbour (r 0).coord (dirOf 0)
    && (t 3 true false false).partner.coord.toNat != (r 0).neighbour (r 0).coord (dirOf 0)
    && (t 0 false true false).lanes == 0 && (t 1 true true true).partner.mgmt && a.stepDone 1
    && a.coordOk 1 && a.coord == 0 && SMap.get 0 a.remote 1 != 5
    && !a.tileCut (tileOfPort 1) && (a.port 1).state == 0 && !(a.port 1).disable) = true := by
  decide +kernel

end
end

section
/-! SUPPORT. The register accesses of the scope chapter (R17, R20, R61): which register stands at the tile
addresses, that an update of one part, core or Loom looks only at its present value, and the next state of
a row whose agent has the access. -/

namespace Sys2Proof.Machine

/-! Updates look only at the present value. -/

theorem State.updPart_congr {s : State} {p : Nat} {f g : Part → Part} (h : f (s.part p) = g (s.part p)) :
    s.updPart p f = s.updPart p g := by
  unfold State.part at h
  simp only [State.updPart, SMap.modify, h]

theorem State.updCore_congr {s : State} {c : Nat} {f g : Core → Core} (h : f (s.core c) = g (s.core c)) :
    s.updCore c f = s.updCore c g := by
  unfold State.core at h
  simp only [State.updCore, SMap.modify, h]

theorem State.updLoom_congr {s : State} {t : Nat} {f g : Loom → Loom} (h : f (s.loom t) = g (s.loom t)) :
    s.updLoom t f = s.updLoom t g := by
  unfold State.loom at h
  simp only [State.updLoom, SMap.modify, h]

/-! The blocks of the tiles (R58). -/

theorem regAt_tile {t o : Nat} (ht : t < 4) (ho : o < 0x100000) (h4 : o % 4 = 0) :
    regAt (0x200000 + t * 0x100000 + o) = tileRegAt t o := by
  have hal : (0x200000 + t * 0x100000 + o) % 4 = 0 := by omega
  have htile : (0x200000 + t * 0x100000 + o - 0x200000) / 0x100000 = t := by omega
  have hoff : (0x200000 + t * 0x100000 + o) % 0x100000 = o := by omega
  obtain ⟨b, hb, hlo, hhi⟩ : ∃ b, (0x200000 + t * 0x100000 + o) / 0x10000 = b ∧ 0x20 ≤ b ∧ b < 0x60 :=
    ⟨_, rfl, by omega, by omega⟩
  unfold regAt
  rw [hal, hb, htile, hoff]
  interval_cases b <;> rfl

/-- A core's registers (R156). -/
theorem regAt_core (c : Fin 192) {o : Nat} (ho : o < 0x1000) (h4 : o % 4 = 0) :
    regAt (coreBase c + o) = (lookup coreMap o).map (Reg.core c) := by
  have hc := c.isLt
  have haddr : coreBase c + o = 0x200000 + c.val / 48 * 0x100000
      + (c.val % 48 / 6 * 0x8000 + (c.val % 6 + 1) * 0x1000 + o) := by unfold coreBase; omega
  have hslot : (c.val % 48 / 6 * 0x8000 + (c.val % 6 + 1) * 0x1000 + o) % 0x8000 / 0x1000 = c.val % 6 + 1 := by
    omega
  have hoff : (c.val % 48 / 6 * 0x8000 + (c.val % 6 + 1) * 0x1000 + o) % 0x1000 = o := by omega
  have hnum : 48 * (c.val / 48)
      + 6 * ((c.val % 48 / 6 * 0x8000 + (c.val % 6 + 1) * 0x1000 + o) / 0x8000) + (c.val % 6 + 1 - 1) = c := by
    omega
  rw [haddr, regAt_tile (by omega) (by omega) (by omega)]
  unfold tileRegAt
  rw [if_pos (by omega)]
  dsimp only
  rw [hslot, if_pos (by omega), hoff, hnum]

/-- A Loom's byte count (R383). -/
theorem regAt_loomLo (t : Fin 4) : regAt (loomBase t + 4) = some (.loomLo t) :=
  regAt_tile (o := 0x60004) t.isLt (by decide) (by decide)

/-! Reads of the LO halves (R17): the snapshot that each takes, and the word that then goes out. -/

/-- A read whose agent has access answers with the register's word in the state that the snapshot left. -/
theorem State.readAddr_snapshot {s t : State} {g : Agent} {a : Nat} {r : Reg} {w : Word}
    (h : s.hasAccess g a = true) (hr : regAt a = some r) (ht : s.snapshot r = t) (hw : t.readReg r = w) :
    s.readAddr g a = t.emit (.read g a w) := by
  rw [State.readAddr_hasAccess h hr, ht, hw]

/-- A snapshot register of an enabled partition: `f` is its snapshot, which leaves PAR_STATE alone. -/
theorem State.readAddr_parSnapshot {s : State} {g : Agent} {p : Fin 16} {o : Nat} {r : ParReg} {w : Word}
    {f : Part → Part} (hen : s.enabled p = true) (h : s.hasAccess g (parBase p + o) = true)
    (ho : o < 0x8000) (h4 : o % 4 = 0) (hr : parRegAt o = some r)
    (hs : s.snapshot (.par p r) = s.updPart p f) (hst : (f (s.part p)).state = (s.part p).state)
    (hc : (s.updPart p f).readComp p r = none) (hw : (s.updPart p f).readOwn p r = w) :
    s.readAddr g (parBase p + o) = (s.updPart p f).emit (.read g (parBase p + o) w) := by
  have hen' : (s.updPart p f).enabled p = true := by
    simpa [State.enabled, hst] using hen
  refine State.readAddr_snapshot h (by rw [regAt_par p ho h4, hr]; rfl) hs ?_
  simp only [State.readReg, State.readPar, hc, hen', if_true, hw]

theorem State.countCycles_cycles (s : State) (c : Nat) :
    ((s.countCycles c).core c).regs.cycles.toNat
      = ((s.core c).regs.cycles.toNat + s.freeVal) % 2 ^ 64 := by
  simp [State.countCycles, BitVec.toNat_add]

/-- The cycle count goes on (R156, log entry 11), and the read answers what it then is. -/
theorem exec_coreCyclesRead {a : Agent} {s : State} {c : Fin 192}
    (h : s.hasAccess a (coreBase c + 0x18) = true) :
    let n := (s.core c).regs.cycles.toNat + s.freeVal
    exec (.coreCyclesRead a c) s = .next (((s.countCycles c).updCore c fun x => { x with
      regs := { x.regs with cyclesHi := BitVec.ofNat 32 (n % 2 ^ 64 / 2 ^ 32) } }).emit
        (.read a (coreBase c + 0x18) (BitVec.ofNat 32 n))) := by
  intro n
  refine congrArg Host.Outcome.next (State.readAddr_snapshot h (regAt_core c (by decide) (by decide)) ?_ ?_)
  · refine State.updCore_congr ?_
    rw [hiWord, State.countCycles_cycles]
  · simp only [State.readReg, State.readCore, State.updCore_core, if_true, State.countCycles_cycles, loWord]
    apply BitVec.eq_of_toNat_eq
    simp only [BitVec.toNat_ofNat]
    omega

/-- The counter that PAR_EVC_SEL selects (R218). -/
theorem exec_evcValRead {a : Agent} {s : State} {p : Fin 16} (hen : s.enabled p = true)
    (h : s.hasAccess a (parBase p + 0x604) = true) :
    exec (.evcValRead a p) s = .next ((s.updPart p fun x => { x with
      evcHi := BitVec.ofNat 32 ((s.evc p (s.part p).evcIdx.toNat).toNat / 2 ^ 32) }).emit
        (.read a (parBase p + 0x604) (BitVec.ofNat 32 (s.evc p (s.part p).evcIdx.toNat).toNat))) := by
  refine congrArg Host.Outcome.next
    (State.readAddr_parSnapshot hen h (by decide) (by decide) rfl ?_ rfl rfl ?_)
  · rw [State.snapshot, if_pos hen]
    exact State.updPart_congr rfl
  · simp [State.readOwn, State.evc, loWord]

/-- The serving engine's step number (R290). -/
theorem exec_genStepRead {a : Agent} {s : State} {p : Fin 16} (hen : s.enabled p = true)
    (h : s.hasAccess a (parBase p + 0x92C) = true) :
    exec (.genStepRead a p) s = .next ((s.updPart p fun x => { x with
      gen := { x.gen with stepHi := BitVec.ofNat 32 ((s.gen p).stepNo.toNat / 2 ^ 32) } }).emit
        (.read a (parBase p + 0x92C) (BitVec.ofNat 32 (s.gen p).stepNo.toNat))) := by
  refine congrArg Host.Outcome.next
    (State.readAddr_parSnapshot hen h (by decide) (by decide) rfl ?_ rfl rfl ?_)
  · rw [State.snapshot, if_pos hen]
    exact State.updPart_congr rfl
  · simp [State.readOwn, State.gen, loWord]

/-- The ordinal of the last collective (R280). -/
theorem exec_colLastRead {a : Agent} {s : State} {p : Fin 16} (hen : s.enabled p = true)
    (h : s.hasAccess a (parBase p + 0x818) = true) :
    exec (.colLastRead a p) s = .next ((s.updPart p fun x => { x with
      col := { x.col with lastHi := BitVec.ofNat 16 ((s.part p).col.last.toNat / 2 ^ 32) } }).emit
        (.read a (parBase p + 0x818) (BitVec.ofNat 32 (s.part p).col.last.toNat))) := by
  refine congrArg Host.Outcome.next
    (State.readAddr_parSnapshot hen h (by decide) (by decide) rfl ?_ rfl rfl ?_)
  · rw [State.snapshot, if_pos hen]
    exact State.updPart_congr rfl
  · simp [State.readOwn, loWord]

theorem exec_loomBytesRead {a : Agent} {s : State} {t : Fin 4}
    (h : s.hasAccess a (loomBase t + 4) = true) :
    exec (.loomBytesRead a t) s = .next ((s.updLoom t fun x => { x with
      bytesHi := BitVec.ofNat 32 ((s.loom t).bytes.toNat / 2 ^ 32) }).emit
        (.read a (loomBase t + 4) (BitVec.ofNat 32 (s.loom t).bytes.toNat))) := by
  refine congrArg Host.Outcome.next (State.readAddr_snapshot h (regAt_loomLo t) ?_ ?_)
  · exact State.updLoom_congr rfl
  · simp [State.readReg, loWord]

/-- The identity leaf (R443): SEC_LEAF_HI holds its top eight bits. -/
theorem exec_secLeafRead {a : Agent} {s : State} (h : s.hasAccess a 0x6000C = true) :
    exec (.secLeafRead a) s = .next (({ s with sec := { s.sec with
      leafHi := BitVec.ofNat 8 (s.sec.leaf / 2 ^ 32) } } : State).emit
        (.read a 0x6000C (BitVec.ofNat 32 s.sec.leaf))) :=
  congrArg Host.Outcome.next
    (State.readAddr_snapshot (r := .sec .leafLo) h rfl rfl rfl)

/-- One of the four Logbook values (R516), whose snapshot changes the Logbook's registers alone. -/
theorem exec_logValueRead {a : Agent} {s : State} {i : Fin 4} {r : LogReg} {l : LogState} {w : Word}
    (h : s.hasAccess a (logValueAddr i) = true) (hr : regAt (logValueAddr i) = some (.log r))
    (hs : s.snapshot (.log r) = { s with log := l }) (hw : ({ s with log := l } : State).readLog r = w) :
    exec (.logValueRead a i) s =
      .next (({ s with log := l } : State).emit (.read a (logValueAddr i) w)) :=
  congrArg Host.Outcome.next (State.readAddr_snapshot h hr hs hw)

/-- Settles O39: each LO half's snapshot and answer, one row at a time. -/
theorem snapshotReadsComplete : Obligations.SnapshotReadsComplete := by
  unfold Obligations.SnapshotReadsComplete
  intro a s
  refine ⟨fun c h => exec_coreCyclesRead h, fun p hen => ⟨exec_evcValRead hen, exec_genStepRead hen,
    exec_colLastRead hen⟩, fun t h => exec_loomBytesRead h, exec_secLeafRead, ?head, ?oldest, ?pfloor, ?optime⟩
  case head => exact fun h => exec_logValueRead (r := .headLo) h rfl rfl rfl
  case oldest => exact fun h => exec_logValueRead (r := .oldestLo) h rfl rfl rfl
  case pfloor => exact fun h => exec_logValueRead (r := .pfloorLo) h rfl rfl rfl
  case optime => exact fun h => exec_logValueRead (r := .optimeLo) h rfl rfl rfl

/-! REGISTER_WRITE (R17, R20, R61). -/

/-- A field that is given a value in range takes it. -/
theorem State.field_ok {s : State} {g : Agent} {P : Prop} [Decidable P] (h : P) (f : State → State) :
    s.field g (decide P) f = f s := by
  simp [State.field, h]

/-- A field that is given a reserved value keeps its own, and 0x8021 is recorded (R20). -/
theorem State.field_reserved {s : State} {g : Agent} {P : Prop} [Decidable P] (h : ¬ P)
    (f : State → State) : s.field g (decide P) f = s.event 0x8021 (s.uid g) := by
  simp [State.field, h]

/-- A write beyond the agent's reach is recorded with 0x6002 and has no other effect (R61). -/
theorem State.writeAddr_unreached {s : State} {g : Agent} {a : Nat} (hl : s.agentLive g = true)
    (hr : s.agentReaches g a = false) (v : Word) : s.writeAddr g a v = s.event 0x6002 (s.uid g) := by
  simp [State.writeAddr, hl, hr]

/-- The row writes the register that stands at its address. -/
theorem exec_registerWrite {a : Agent} {addr : BitVec 24} {s : State} {r : Reg}
    (h : s.hasAccess a addr.toNat = true) (hr : regAt addr.toNat = some r) (v : Word) :
    exec (.registerWrite a addr v) s = .next (s.writeReg a v.toNat r) :=
  congrArg Host.Outcome.next (State.writeAddr_hasAccess h hr v)

/-- The same where the address is given as a number of the 16 MiB space (R57). -/
theorem exec_registerWrite_ofNat {a : Agent} {n : Nat} {s : State} {r : Reg} (hn : n < 2 ^ 24)
    (h : s.hasAccess a n = true) (hr : regAt n = some r) (v : Word) :
    exec (.registerWrite a (BitVec.ofNat 24 n) v) s = .next (s.writeReg a v.toNat r) := by
  have hto : (BitVec.ofNat 24 n).toNat = n := by simpa using hn
  exact exec_registerWrite (hto.symm ▸ h) (hto.symm ▸ hr) v

theorem fld_zero (w n : Nat) : fld w 0 n = w % 2 ^ n := by
  simp [fld]

/-- PAR_EVC_SEL of an open partition takes what is written (R218). -/
theorem State.writeReg_evcSel {s : State} {p : Nat} (h : s.parOpen p = true) (g : Agent) (v : Nat) :
    s.writeReg g v (.par p .evcSel) = s.updPart p fun x => { x with evcIdx := BitVec.ofNat 12 v } :=
  State.writePar_parOpen (r := .evcSel) h g v rfl nofun nofun nofun nofun

/-- MOD_LCORE_SEL keeps its value when a number above 191 is written (R34). -/
theorem State.writeReg_lcoreSel (s : State) (g : Agent) (v : Nat) :
    s.writeReg g v (.mod .lcoreSel) = s.field g (decide (v % 256 ≤ 191)) fun s =>
      { s with mod := { s.mod with lcoreSel := BitVec.ofNat 8 v } } := by
  rw [show v % 256 = fld v 0 8 from (fld_zero v 8).symm]
  rfl

/-- PWR_CAP_W takes 1,500 W to 3,600 W (R486). -/
theorem State.writeReg_cap (s : State) (g : Agent) (v : Nat) :
    s.writeReg g v (.pwr .cap) = s.field g (decide (1500 ≤ v % 65536 ∧ v % 65536 ≤ 3600)) fun s =>
      { s with pwr := { s.pwr with capW := BitVec.ofNat 16 v } } := by
  rw [show v % 65536 = fld v 0 16 from (fld_zero v 16).symm]
  rfl

/-- Settles O40: the address gives the register, and the register's field decides. -/
theorem registerWriteComplete : Obligations.RegisterWriteComplete := by
  unfold Obligations.RegisterWriteComplete
  intro a v s
  refine ⟨?unreached, ?lcoreSel, ?cap, ?chtSel, ?prsSel, ?evcSel⟩
  case unreached =>
    exact fun addr hl hr => congrArg Host.Outcome.next (State.writeAddr_unreached hl hr v)
  case lcoreSel =>
    intro h
    rw [exec_registerWrite (r := .mod .lcoreSel) h rfl v, State.writeReg_lcoreSel]
    exact ⟨fun hv => by rw [State.field_ok hv], fun hv => by rw [State.field_reserved (by omega)]⟩
  case cap =>
    intro h
    rw [exec_registerWrite (r := .pwr .cap) h rfl v, State.writeReg_cap]
    exact ⟨fun hlo hhi => by rw [State.field_ok ⟨hlo, hhi⟩],
      fun hv => by rw [State.field_reserved (by omega)]⟩
  case chtSel => exact fun h => exec_registerWrite (r := .chtSel) h rfl v
  case prsSel => exact fun h => exec_registerWrite (r := .prsSel) h rfl v
  case evcSel =>
    intro p hopen h
    have hp : parBase p + 0x600 < 2 ^ 24 := by unfold parBase; omega
    rw [exec_registerWrite_ofNat (r := .par p .evcSel) hp h (regAt_par p (by decide) (by decide)) v,
      State.writeReg_evcSel hopen]

end Sys2Proof.Machine
end

section
/-! SUPPORT. Accesses of a reserved address (R60): what the two accessors do at an address where no register
stands, and the rows that go through them. -/

namespace Sys2Proof.Machine

/-- A write of a reserved address is recorded; in the persistent store's block it lets go of the held halves,
as any write there does (R503). -/
theorem State.writeAddr_reserved {s : State} {g : Agent} {a : Nat} (hl : s.agentLive g = true)
    (hr : s.agentReaches g a = true) (hn : regAt a = none) (v : Word) :
    s.writeAddr g a v = (if a / 0x10000 = 4 then s.dropHalves else s).event 0x8020 (s.uid g) := by
  simp [State.writeAddr, hl, hr, hn]

/-- A read of a reserved address is recorded and answers zero. -/
theorem State.readAddr_reserved {s : State} {g : Agent} {a : Nat} (hl : s.agentLive g = true)
    (hr : s.agentReaches g a = true) (hn : regAt a = none) :
    s.readAddr g a = (s.event 0x8020 (s.uid g)).emit (.read g a 0) := by
  simp [State.readAddr, hl, hr, hn]

/-- The row of a reserved address, read. -/
theorem exec_reservedAddressAccess_read {a : Agent} {addr : BitVec 24} {s : State}
    (hn : regAt addr.toNat = none) :
    exec (.reservedAddressAccess a addr none) s = .next (s.readAddr a addr.toNat) := by
  simp [exec, execReservedAddressAccess, hn]

/-- The row of a reserved address, written. -/
theorem exec_reservedAddressAccess_write {a : Agent} {addr : BitVec 24} {s : State}
    (hn : regAt addr.toNat = none) (v : Word) :
    exec (.reservedAddressAccess a addr (some v)) s = .next (s.writeAddr a addr.toNat v) := by
  simp [exec, execReservedAddressAccess, hn]

/-- Settles O10: each row is the accessor at its address, and both accessors record 0x8020 there. -/
theorem reservedAddressRule : Obligations.ReservedAddressRule := by
  unfold Obligations.ReservedAddressRule
  intro a addr v s hl hr hn t
  have hwrite : s.writeAddr a addr.toNat v = t.event 0x8020 (s.uid a) :=
    State.writeAddr_reserved hl hr hn v
  refine ⟨?read, ?write, congrArg Host.Outcome.next hwrite⟩
  case read => rw [exec_reservedAddressAccess_read hn, State.readAddr_reserved hl hr hn]
  case write => rw [exec_reservedAddressAccess_write hn, hwrite]

end Sys2Proof.Machine
end

section
/-! SUPPORT. UPDATE (R342 to R360): how the command ends, by what its checks, its layers and their tails
answer. -/

namespace Sys2Proof.Machine

/-- A row of a command that it names runs that command. -/
theorem State.onCmd_rowCmd {s : State} {p : Fin 16} {q : Fin 64} {slot : BitVec 16} {kind : Cmd → Bool}
    {c : Cmd} (h : s.rowCmd p q slot.toNat kind = some c) (f : Cmd → State) :
    s.onCmd p q slot kind f = .next (f c) := by
  simp [State.onCmd, h]

theorem exec_update {p : Fin 16} {q : Fin 64} {slot : BitVec 16} {s : State} {c : Cmd}
    (h : s.rowCmd p q slot.toNat (·.op == opUpdate) = some c) :
    exec (.update p q slot) s = .next (s.runUpdate p c) :=
  State.onCmd_rowCmd h _

/-- An UPDATE that its checks stop ends as they say (R355). -/
theorem State.runUpdate_stop {s t : State} {p : Nat} {c : Cmd} {e : CmdEnd}
    (h : s.updCheck p c = (t, .stop e)) : s.runUpdate p c = t.finish p c e := by
  simp [State.runUpdate, h]

section
variable {s s1 s2 : State} {p : Nat} {c : Cmd} {js : List LayerJob} {clip : Option Word} {eta : Word}

/-- One whose layers and tails all go through ends DONE (R353, R358). -/
theorem State.runUpdate_done {s3 : State} {r : List (Nat × List Byte) × Nat × Bool}
    (hc : s.updCheck p c = (s1, .run js clip eta)) (hl : layersGo p c clip eta js s1 = (s2, .ok r))
    (ht : tailsGo (s2.helmReq p) r.1 s2 = (s3, .ok ())) :
    s.runUpdate p c = s3.finish p c (endDone (r.2.1 % 2 ^ 40 + b2n r.2.2 * 2 ^ 40)) := by
  simp [State.runUpdate, hc, hl, ht]

/-- One that meets a line which cannot be read ends there, its readable blocks new by free picks (R359,
R360). -/
theorem State.runUpdate_fail {st : Nat} {m : Miss}
    (hc : s.updCheck p c = (s1, .run js clip eta)) (hl : layersGo p c clip eta js s1 = (s2, .fail st m)) :
    s.runUpdate p c = (partialGo p c clip eta js { readAll p c js s1 with free := s2.free }).finish p c
      (endAt st m) := by
  simp [State.runUpdate, hc, hl]

end

end Sys2Proof.Machine
end

section
/-! SUPPORT. LOOM_MOVE (R374 to R382): the start of one, over a group or LOCAL, and the data phase of a LOCAL
one that owes nothing and finds every element. -/

namespace Sys2Proof.Machine

theorem exec_loomMove {p : Fin 16} {q : Fin 64} {slot : BitVec 16} {s : State} {c : Cmd}
    (h : s.rowCmd p q slot.toNat (·.op == opLoomMove) = some c) :
    exec (.loomMove p q slot) s = .next (s.startLoom p c) :=
  State.onCmd_rowCmd h _

/-- The run of a LOCAL LOOM_MOVE as it starts: in its data phase, with nothing moved. -/
def localRun (ts : List (Layout × Layout)) : LoomRun :=
  { coll := { group := 0, ordinal := 0, hash := 0, phase := .data }, tensors := ts }

/-- A LOCAL LOOM_MOVE is rank 0 of one. -/
theorem State.loomRank_local {c : Cmd} (h : loomLocal c = true) (s : State) : s.loomRank c = (0, 1) := by
  simp [State.loomRank, h]

section
variable {s t : State} {p : Nat} {c : Cmd}

/-- One over a group waits for its admission (R379). -/
theorem State.startLoom_group (hp : c.prog = .none) (hg : loomLocal c = false) :
    s.startLoom p c = s.updCmd p c fun y => { y with
      prog := .loom { coll := { group := colGroup c, ordinal := colOrd c, hash := 0 }, tensors := [] } } := by
  simp [State.startLoom, hp, hg]

variable (hp : c.prog = .none) (hloc : loomLocal c = true)
include hp hloc

theorem State.startLoom_fail {st detail result : Nat} {tell : Bool}
    (h : s.loomOpen p c = (t, .fail st detail result tell)) :
    s.startLoom p c = t.finish p c (endWith st detail result true) := by
  simp [State.startLoom, hp, hloc, h]

theorem State.startLoom_miss {st : Nat} {m : Miss} (h : s.loomOpen p c = (t, .miss st m)) :
    s.startLoom p c = t.finish p c (endAt st m true) := by
  simp [State.startLoom, hp, hloc, h]

/-- Its descriptors hold: it takes the Looms of its tiles and goes on (R51). -/
theorem State.startLoom_ok {ts : List (Layout × Layout)} {hashed : List Byte}
    (h : s.loomOpen p c = (t, .ok ts hashed)) :
    s.startLoom p c = ((t.loomsTake p c (t.moveTiles p ts)).updCmd p c fun y => { y with
      prog := .loom (localRun ts) }).loomStep p c := by
  simp [State.startLoom, hp, hloc, h, localRun]

end

section
variable {s t u : State} {p : Nat} {c : Cmd} {l : LoomRun}

/-- A data phase that owes nothing reads what the member needs, then writes (R377). -/
theorem State.loomStep_read {l' : LoomRun} (hp : (s.cmdNow p c).prog = .loom l) (hd : l.coll.phase = .data)
    (hy : s.loomYields p c = false) (ho : l.owed = []) (hw : l.waits = false)
    (hr : loomRead p c l.tensors.zipIdx (s.loomsAct p (s.cmdNow p c)) l = (t, l', .none)) :
    s.loomStep p c = (t.updCmd p c fun y => { y with prog := .loom l' }).loomWriteAll p c l' := by
  have hsame : { l with owed := [], waits := false } = l := by
    cases l
    simp_all
  simp [State.loomStep, hp, hd, hy, ho, serveGo, hsame, hr]

/-- Every element there, a LOCAL run writes its destinations and ends DONE with their bytes (R381). -/
theorem State.loomWriteAll_done (hloc : loomLocal c = true) (hn : l.coll.committed = none)
    (hall : loomComplete l 1 0 = true) (ho : l.owed = [])
    (hw : loomWrites p (loomOutput l 1 0) s = (u, .ok ())) :
    s.loomWriteAll p c l = u.finish p c (endDone (writesBytes (loomOutput l 1 0))) := by
  simp [State.loomWriteAll, State.loomRank_local hloc, hn, hall, hw, State.loomDone, ho]

end

end Sys2Proof.Machine
end

section
/-! SUPPORT. A core's Soundings records (R335 to R338): what a merge does to the entry of the record's tensor,
what a record without an entry does, and the row that takes the oldest one. -/

namespace Sys2Proof.Machine

/-- The entry is in use and is this tensor's (R335). -/
def entryFits (b : List Byte) (r : SndRec) : Bool := bit (bAt b 0x0E 2) 0 && bAt b 0 4 == r.tensor.toNat

/-- The thresholds of an entry that a record trips (R338). -/
def entryTrips (b : List Byte) (r : SndRec) : List Nat := newTrips b (mergeRec (totalsOf b) r)

/-- The engine's part of an entry after a record has been merged. -/
def mergedTotals (b : List Byte) (r : SndRec) : SndTotals :=
  { mergeRec (totalsOf b) r with
    trips := (entryTrips b r).foldl (fun a i => a + 2 ^ i) (mergeRec (totalsOf b) r).trips }

/-- The kernel that the core runs commits, if nothing else was left (R150). -/
def State.commitKernelOf (s : State) (c : Nat) : State :=
  match s.kernelOf c with
  | some (p, cmd, k) => s.tryCommit p cmd k
  | none => s

section
variable {s t u : State} {p : Nat} {r : SndRec} {b : List Byte}

/-- A record merges into the entry of its tensor, and each threshold that it reaches trips (R337, R338). -/
theorem State.sndMerge_entry
    (hr : s.xreadNow (s.helmReq p) ((s.part p).snd.entryVa (r.tensor.toNat % (s.part p).snd.n)) 128 = (t, .ok b))
    (hb : entryFits b r = true)
    (hw : t.xwriteNow (s.helmReq p) ((s.part p).snd.entryVa (r.tensor.toNat % (s.part p).snd.n) + 16)
      (totalsBytes (mergedTotals b r)) = (u, .ok ())) :
    s.sndMerge p r = (entryTrips b r).foldl (fun s i => s.sndTrip p r (bit (bAt b 0x0E 2) 1) i) u := by
  unfold entryFits at hb
  unfold mergedTotals entryTrips at hw
  unfold State.sndMerge entryTrips
  simp only [hr, hb, if_true, hw]

/-- A record without an entry is counted (R335). -/
theorem State.sndMerge_absent
    (hr : s.xreadNow (s.helmReq p) ((s.part p).snd.entryVa (r.tensor.toNat % (s.part p).snd.n)) 128 = (t, .ok b))
    (hb : entryFits b r = false) : s.sndMerge p r = t.sndDrop p r := by
  unfold entryFits at hb
  unfold State.sndMerge
  simp only [hr, hb, Bool.false_eq_true, if_false]

end

/-- Without a record, or without a partition that owns the core, nothing happens. -/
theorem exec_soundingsRecord_idle {c : Fin 192} {s : State}
    (h : (s.core c).emitted = [] ∨ s.ownerOf (clusterOf c) = none) :
    exec (.soundingsRecord c) s = .next s := by
  refine congrArg Host.Outcome.next ?_
  split
  next r rs p he ho => simp [he, ho] at h
  next => rfl

/-- The oldest record leaves the core and is merged where the table is on; the kernel may then commit. -/
theorem exec_soundingsRecord_taken {c : Fin 192} {s : State} {p : Nat} {r : SndRec} {rs : List SndRec}
    (he : (s.core c).emitted = r :: rs) (ho : s.ownerOf (clusterOf c) = some p) :
    let t := s.updCore c fun x => { x with emitted := rs }
    exec (.soundingsRecord c) s = .next
      ((if (s.part p).snd.en then t.sndMerge p r else t).commitKernelOf c) := by
  refine congrArg Host.Outcome.next ?_
  rw [he, ho]
  rfl

end Sys2Proof.Machine
end

section
/-! The three kinds of rows together (O44). -/

namespace Sys2Proof.Machine

/-- Settles O44: each row's meaning, by what its checks and reads answer. -/
theorem updateLoomAndRecordsComplete : Obligations.UpdateLoomAndRecordsComplete := by
  unfold Obligations.UpdateLoomAndRecordsComplete
  intro s
  refine ⟨fun p q slot c => ⟨fun hrow => ?update, fun hrow => ?loom⟩, fun c => ⟨exec_soundingsRecord_idle, ?records⟩⟩
  case update =>
    rw [exec_update hrow]
    refine ⟨fun t e h => by rw [State.runUpdate_stop h], fun s1 js clip eta hc => ⟨?done, ?fail⟩⟩
    case done => exact fun s2 r s3 hl ht => by rw [State.runUpdate_done hc hl ht]
    case fail => exact fun s2 st m hl => by rw [State.runUpdate_fail hc hl]
  case loom =>
    rw [exec_loomMove hrow]
    refine ⟨fun hp hg => by rw [State.startLoom_group hp hg], fun hp hloc => ⟨?fail, ?miss, ?moves⟩⟩
    case fail => exact fun t st detail result tell h => by rw [State.startLoom_fail hp hloc h]
    case miss => exact fun t st m h => by rw [State.startLoom_miss hp hloc h]
    case moves =>
      intro t ts hashed h l t1 t2 hprog hy t3 l' u hread hall hn ho hw
      rw [State.startLoom_ok hp hloc h]
      exact congrArg Host.Outcome.next
        ((State.loomStep_read hprog rfl hy rfl rfl hread).trans (State.loomWriteAll_done hloc hn hall ho hw))
  case records =>
    intro p r rs he ho t va fits put done
    have hdone : ∀ u, (if (s.part p).snd.en then t.sndMerge p r else t) = u → done u :=
      fun u hu => hu ▸ exec_soundingsRecord_taken he ho
    refine ⟨?off, ?entry, ?absent⟩
    case off => exact fun hen => hdone _ (by simp [hen])
    case entry =>
      exact fun t1 b t2 hen hr hb hw => hdone _ (by rw [if_pos hen]; exact State.sndMerge_entry hr hb hw)
    case absent =>
      exact fun t1 b hen hr hb => hdone _ (by rw [if_pos hen]; exact State.sndMerge_absent hr hb)

end Sys2Proof.Machine
end

section
/-! SUPPORT. An instruction of a unit at its word: what it does where the unit has room and its checks pass
(R137, R142), and where it faults (R151). -/

namespace Sys2Proof.Machine

section
variable {s t : State} {c : Nat} {w : Dword} {op : Nat} {mask : Dword} {f : State → IRes}

/-- An instruction of a unit with room, at its word: its effect, and its place in the unit's queue. -/
theorem State.issue_unitOp {unit : Nat} {e : UEntry} {g : State → IRes}
    (h : s.standsAt c w op mask = true) (hf : f s = s.unitOp c unit e g)
    (hu : s.unitFree c unit e.srd = true) (hg : g s = .go t)
    (hop : listedOps.contains op = true := by decide) :
    (.next (s.issue c w op mask f) : Ans) = .next (s.queued c unit e t) := by
  rw [State.issue_standsAt h hop, hf, State.unitOp_unitFree hu, hg]
  rfl

/-- An instruction that faults at its word. -/
theorem State.issue_fault {cause u a : Nat}
    (h : s.standsAt c w op mask = true) (hf : f s = .fault s cause u a)
    (hop : listedOps.contains op = true := by decide) :
    (.next (s.issue c w op mask f) : Ans) = .next (s.coreFault c cause u a) := by
  rw [State.issue_standsAt h hop, hf]

end

end Sys2Proof.Machine
end

section
/-! SUPPORT. The elementwise instructions (R127): all of them are one operation on a function of three words. -/

namespace Sys2Proof.Machine

section
variable {onInt : Option (Word → Word → Word → Word)} {f g : Word → Word → Word → Word} {w : Dword}

theorem vecPick_fp (h : iw w 30 30 = 0) : vecPick w onInt f = some f := by simp [vecPick, h]

theorem vecPick_int (h : iw w 30 30 = 1) : vecPick w onInt f = onInt := by simp [vecPick, h]

variable {s : State} {c : Nat} {op : Nat} {mask : Dword} {srcs : List Nat} {i : State → IRes}

/-- An elementwise instruction with a function for its INT flag. -/
theorem State.issue_vecOp (h : s.standsAt c w op mask = true) (hi : i s = s.vecOp c w srcs onInt f)
    (hp : vecPick w onInt f = some g) (hu : s.unitFree c 2 [] = true)
    (hop : listedOps.contains op = true := by decide) :
    (.next (s.issue c w op mask i) : Ans) = .next (elementwiseNext s c w srcs g) :=
  State.issue_unitOp (e := { rd := srcs, wr := [rX (iw w 55 52)] }) h
    (hi.trans (by rw [State.vecOp, hp])) hu rfl hop

/-- An elementwise instruction without one (R127). -/
theorem State.issue_vecOp_reserved (h : s.standsAt c w op mask = true)
    (hi : i s = s.vecOp c w srcs onInt f) (hp : vecPick w onInt f = none)
    (hop : listedOps.contains op = true := by decide) :
    (.next (s.issue c w op mask i) : Ans) = .next (s.coreFault c 0x01 0 0) :=
  State.issue_fault h (hi.trans (by rw [State.vecOp, hp])) hop

end

/-- Each row of the table is the shared operation on the row's functions. -/
theorem exec_elementwiseRow {r : ElementwiseRow} (hr : r ∈ elementwiseRows) (c : Fin 192) (w : Dword)
    (s : State) : exec (r.instr c w) s = .next (s.issue c w r.op vecMask fun s =>
      s.vecOp c w (vecSources w r.useA r.useB r.useC) r.onInt r.onFp) := by
  revert r
  simp only [elementwiseRows, List.cons_append, List.nil_append, List.forall_mem_cons]
  exact ⟨rfl, rfl, rfl, rfl, rfl, rfl, rfl, rfl, rfl, rfl, rfl, rfl, rfl, rfl, nofun⟩

theorem elementwiseRow_listed {r : ElementwiseRow} (hr : r ∈ elementwiseRows) :
    listedOps.contains r.op = true := by
  have hall : (elementwiseRows.all fun r => listedOps.contains r.op) = true := by decide
  exact List.all_eq_true.1 hall r hr

/-- Settles O18: one operation for all rows, whose function the INT flag picks. -/
theorem elementwiseComplete : Obligations.ElementwiseComplete := by
  unfold Obligations.ElementwiseComplete
  intro r hr c w s hst
  have hop := elementwiseRow_listed hr
  rw [exec_elementwiseRow hr]
  refine ⟨fun h0 hu => State.issue_vecOp hst rfl (vecPick_fp h0) hu hop, fun h1 => ?int⟩
  case int =>
    cases hint : r.onInt with
    | none => exact State.issue_vecOp_reserved hst rfl (vecPick_int h1) hop
    | some f => exact fun hu => State.issue_vecOp hst rfl (vecPick_int h1) hu hop

/-- VMOV moves the word as it is with INT, and makes a NaN canonical without (R96). -/
theorem vecPick_moved (w : Dword) (f : Word → Word → Word → Word) :
    vecPick w (some f) (fun a b k => fcanon (f a b k)) =
      some fun a b k => if iw w 30 30 = 1 then f a b k else fcanon (f a b k) := by
  by_cases h : iw w 30 30 = 1
  · simp [vecPick_int h, h]
  · simp [vecPick, h]

/-- VMOV takes one source, operand a or Ds as SCB says. -/
theorem exec_vmov {c : Fin 192} {w : Dword} {s : State} {scb : Bool}
    (hst : s.standsAt c w 0x38 vecMask = true) (hu : s.unitFree c 2 [] = true)
    (hscb : (iw w 39 39 == 1) = scb) :
    exec (.vmov c w) s = .next (elementwiseNext s c w (vecSources w (!scb) scb false) fun a b _ =>
      if iw w 30 30 = 1 then (if scb then b else a) else fcanon (if scb then b else a)) := by
  subst hscb
  exact State.issue_vecOp hst rfl (vecPick_moved w _) hu

/-- Settles O19: VCMP is elementwise below CND 6, and VMOV picks the operand that SCB names. -/
theorem compareAndMoveComplete : Obligations.CompareAndMoveComplete := by
  unfold Obligations.CompareAndMoveComplete
  intro c w s
  refine ⟨fun hst h0 => ⟨fun hc => ?reserved, fun hc hu => ?compares⟩,
    fun hst hu => ⟨fun hscb => ?tile, fun hscb => ?scalar⟩⟩
  case reserved => exact State.issue_fault hst (if_pos hc)
  case compares => exact State.issue_vecOp hst (if_neg (by omega)) (vecPick_fp h0) hu
  case tile => exact exec_vmov (scb := false) hst hu (by simp [hscb])
  case scalar =>
    have hsrc : vecSources w false true false = [rD (iw w 38 34)] := by simp [vecSources, hscb]
    rw [← hsrc]
    exact exec_vmov (scb := true) hst hu (by simp [hscb])

end Sys2Proof.Machine
end

section
/-! SUPPORT. Reductions, broadcasts and vector registers (R128, R129, R135). -/

namespace Sys2Proof.Machine

theorem exec_reductionRow {r : (Fin 192 → Dword → Instr) × Nat × (List Word → Word)}
    (hr : r ∈ reductionRows) (c : Fin 192) (w : Dword) (s : State) :
    exec (r.1 c w) s = .next (s.issue c w r.2.1 redMask fun s => s.redOp c w r.2.2) := by
  revert r
  simp only [reductionRows, List.forall_mem_cons]
  exact ⟨rfl, rfl, rfl, nofun⟩

theorem exec_broadcastRow {r : (Fin 192 → Dword → Instr) × Nat × (Word → Word → Word)}
    (hr : r ∈ broadcastRows) (c : Fin 192) (w : Dword) (s : State) :
    exec (r.1 c w) s = .next (s.issue c w r.2.1 bcastMask fun s => s.bcastOp c w r.2.2) := by
  revert r
  simp only [broadcastRows, List.forall_mem_cons]
  exact ⟨rfl, rfl, rfl, rfl, rfl, nofun⟩

theorem reductionRow_listed {r : (Fin 192 → Dword → Instr) × Nat × (List Word → Word)}
    (hr : r ∈ reductionRows) : listedOps.contains r.2.1 = true := by
  have hall : (reductionRows.all fun r => listedOps.contains r.2.1) = true := by decide
  exact List.all_eq_true.1 hall r hr

theorem broadcastRow_listed {r : (Fin 192 → Dword → Instr) × Nat × (Word → Word → Word)}
    (hr : r ∈ broadcastRows) : listedOps.contains r.2.1 = true := by
  have hall : (broadcastRows.all fun r => listedOps.contains r.2.1) = true := by decide
  exact List.all_eq_true.1 hall r hr

/-- Settles O20: one operation for the reductions, one for the broadcasts. -/
theorem reductionsAndBroadcastsComplete : Obligations.ReductionsAndBroadcastsComplete := by
  unfold Obligations.ReductionsAndBroadcastsComplete
  refine ⟨fun r hr c w s hst hu => ?line, fun r hr c w s hst hu => ?element⟩
  case line =>
    rw [exec_reductionRow hr]
    exact State.issue_unitOp hst rfl hu rfl (reductionRow_listed hr)
  case element =>
    rw [exec_broadcastRow hr]
    exact State.issue_unitOp hst rfl hu rfl (broadcastRow_listed hr)

/-- Settles O21: each instruction is an operation of the vector unit; VLD and VST have their range in the
scratchpad, and VVOP its SUB below 12. -/
theorem vectorRegistersComplete : Obligations.VectorRegistersComplete := by
  unfold Obligations.VectorRegistersComplete
  intro c w s
  dsimp only
  refine ⟨fun hst hr hu => ?vld, fun hst hr hu => ?vst,
    fun hst => ⟨fun hsub => ?reserved, fun hsub hu => ?vvop⟩, fun hst hu => ?vext, fun hst hu => ?vins, fun hst hu => ?stlp⟩
  case vld => exact State.issue_unitOp hst (by dsimp only; rw [hr]) hu rfl
  case vst => exact State.issue_unitOp hst (by dsimp only; rw [hr]) hu rfl
  case reserved => exact State.issue_fault hst (if_pos hsub)
  case vvop => exact State.issue_unitOp hst (if_neg (by omega)) hu rfl
  case vext => exact State.issue_unitOp hst rfl hu rfl
  case vins => exact State.issue_unitOp hst rfl hu rfl
  case stlp => exact State.issue_unitOp hst rfl hu rfl

end Sys2Proof.Machine
end

section
/-! SUPPORT. The convert class (R130 to R132, R334). -/

namespace Sys2Proof.Machine

/-- CVT makes two checks before its effect. -/
theorem ite_ite_neg {α : Type} {P Q : Prop} [Decidable P] [Decidable Q] {x y z : α} (hP : ¬ P) (hQ : ¬ Q) :
    (if P then x else if Q then y else z) = z := by
  rw [if_neg hP, if_neg hQ]

/-- Settles O22: each instruction is an operation of the vector unit once its format word, its slot and its
ranges are right. -/
theorem convertsComplete : Obligations.ConvertsComplete := by
  unfold Obligations.ConvertsComplete
  dsimp only
  refine ⟨fun c w s => ⟨fun hst => ⟨fun hres => ?cvldReserved, fun hres hbad hu => ?cvld⟩,
      fun hst => ⟨fun hmode => ?cvtReserved, fun h0 hf => ?cvtFormat, fun h0 hf hu => ?quantised,
        fun h1 hf hu => ?toInt, fun h2 hf hu => ?ofInt, fun h3 hf hu => ?dequant⟩,
      fun hst hu => ?cvctx⟩,
    fun c w s hst => ⟨fun hres => ?cvstReserved, fun hres hslot hbad hcols hu => ?cvst⟩⟩
  case cvldReserved => exact State.issue_fault hst (if_pos hres)
  case cvld =>
    exact State.issue_unitOp hst (by dsimp only; rw [if_neg (by simp [hres]), hbad]) hu rfl
  case cvtReserved => exact State.issue_fault hst (if_pos hmode)
  case cvtFormat =>
    exact State.issue_fault hst (by dsimp only; rw [if_neg (by omega), if_pos ⟨h0, hf⟩])
  case quantised =>
    exact State.issue_unitOp hst (ite_ite_neg (by omega) (by simp [hf])) hu (by simp only [h0])
  case toInt =>
    exact State.issue_unitOp hst (ite_ite_neg (by omega) (by omega)) hu (by simp only [h1])
  case ofInt =>
    exact State.issue_unitOp hst (ite_ite_neg (by omega) (by omega)) hu (by simp only [h2])
  case dequant =>
    exact State.issue_unitOp hst (ite_ite_neg (by omega) (by omega)) hu (by simp only [h3])
  case cvctx => exact State.issue_unitOp hst rfl hu rfl
  case cvstReserved => exact State.issue_fault hst (if_pos hres)
  case cvst =>
    have hbound : ¬ (iw w 4 4 == 1 && !(sndSlot (s.core c) (s.core c).ctx.slot.toNat).bound) = true := by
      simpa using hslot
    simp only [Bool.or_eq_true, decide_eq_true_eq]
    exact State.issue_unitOp hst
      (by dsimp only; rw [if_neg (by simp [hres]), if_neg hbound, hbad]; simp only [beq_iff_eq]; rfl) hu
      (by rw [if_neg hcols]; rfl)

end Sys2Proof.Machine
end

section
/-! SUPPORT. Partial results of a chunk (R99, R278): what adding one does, and why the sum of R100 does not
depend on the order of its parts. -/

namespace Sys2Proof

/-! Of the class tags of R100, 0 is neutral, 3 absorbs, and 1 and 2 together give 3. -/

theorem collTag_comm (a b : Nat) : collTag a b = collTag b a := by
  grind [collTag]

theorem collTag_right_comm (a b c : Nat) : collTag (collTag a b) c = collTag (collTag a c) b := by
  grind [collTag]

theorem collAdd_comm (a b : CollElem) : collAdd a b = collAdd b a := by
  simp [collAdd, Int.add_comm, collTag_comm]

theorem collAdd_right_comm (a b c : CollElem) :
    collAdd (collAdd a b) c = collAdd (collAdd a c) b := by
  simp [collAdd, Int.add_right_comm, collTag_right_comm a.tag]

end Sys2Proof

namespace Sys2Proof.Machine

/-- Of a SUM, elements are added place by place (R100). -/
theorem combine_sum (a b : List CollElem) : combine 0 a b = List.zipWith collAdd a b := by
  simp [combine]

theorem combine_sum_comm (a b : List CollElem) : combine 0 a b = combine 0 b a := by
  rw [combine_sum, combine_sum]
  exact List.zipWith_comm_of_comm collAdd_comm

theorem combine_sum_right_comm (a b c : List CollElem) :
    combine 0 (combine 0 a b) c = combine 0 (combine 0 a c) b := by
  simp only [combine_sum]
  induction a generalizing b c with
  | nil => simp
  | cons x xs ih =>
    cases b with
    | nil => cases c <;> rfl
    | cons y ys =>
      cases c with
      | nil => rfl
      | cons z zs => simp [collAdd_right_comm x y z, ih]

/-- What a collective has of a chunk: the ranks that are in, and the elements. -/
def chunkParts (x : Coll) (k : Nat) : List Nat × List CollElem := SMap.get ([], []) x.partials k

section
variable {red k : Nat} {ranks : List Nat} {es : List CollElem} {x : Coll}

theorem addPartial_repeated {r : Nat} (hr : r ∈ ranks) (hin : r ∈ (chunkParts x k).1) :
    addPartial red k ranks es x = x := by
  unfold chunkParts at hin
  unfold addPartial
  dsimp only
  rw [if_pos (List.any_eq_true.2 ⟨r, hr, by simpa using hin⟩)]

theorem chunkParts_addPartial (h : ∀ r ∈ ranks, r ∉ (chunkParts x k).1) :
    chunkParts (addPartial red k ranks es x) k = ((chunkParts x k).1 ++ ranks,
      if (chunkParts x k).1 = [] then es else combine red (chunkParts x k).2 es) := by
  unfold chunkParts at h ⊢
  have hnew : ¬ (ranks.any ((SMap.get ([], []) x.partials k).1.contains ·)) = true := by simpa using h
  unfold addPartial
  dsimp only
  rw [if_neg hnew]
  simp

end

/-- A part of a SUM that brings a new rank, then another: the sum of what was there and of both. -/
theorem chunkParts_addPartial_addPartial {k : Nat} {ra rb : List Nat} {ea eb : List CollElem} {x : Coll}
    (hra : ra ≠ []) (hab : ∀ r ∈ ra, r ∉ rb) (ha : ∀ r ∈ ra, r ∉ (chunkParts x k).1)
    (hb : ∀ r ∈ rb, r ∉ (chunkParts x k).1) :
    (chunkParts (addPartial 0 k rb eb (addPartial 0 k ra ea x)) k).2 =
      if (chunkParts x k).1 = [] then combine 0 ea eb
      else combine 0 (combine 0 (chunkParts x k).2 ea) eb := by
  have hfirst := chunkParts_addPartial (red := 0) (es := ea) ha
  have hnew : ∀ r ∈ rb, r ∉ (chunkParts (addPartial 0 k ra ea x) k).1 := by
    intro r hr
    rw [hfirst]
    simpa using ⟨hb r hr, fun h => hab r h hr⟩
  rw [chunkParts_addPartial hnew, hfirst]
  by_cases he : (chunkParts x k).1 = [] <;> simp [he, hra]

/-- Settles O48: integer sums and class tags commute, and a part whose rank is in is left out. -/
theorem chunkSumsDoNotDependOnOrder : Obligations.ChunkSumsDoNotDependOnOrder := by
  unfold Obligations.ChunkSumsDoNotDependOnOrder
  intro k ra rb ea eb x hra hrb hab there hnew sums
  have ha : ∀ r ∈ ra, r ∉ (chunkParts x k).1 := fun r hr => hnew r (List.mem_append_left _ hr)
  have hb : ∀ r ∈ rb, r ∉ (chunkParts x k).1 := fun r hr => hnew r (List.mem_append_right _ hr)
  refine ⟨?order, ?again⟩
  case order =>
    have hba : ∀ r ∈ rb, r ∉ ra := fun r hr h => hab r h hr
    calc sums (addPartial 0 k rb eb (addPartial 0 k ra ea x))
        = if (chunkParts x k).1 = [] then combine 0 ea eb
          else combine 0 (combine 0 (chunkParts x k).2 ea) eb :=
          chunkParts_addPartial_addPartial hra hab ha hb
      _ = if (chunkParts x k).1 = [] then combine 0 eb ea
          else combine 0 (combine 0 (chunkParts x k).2 eb) ea := by
          rw [combine_sum_comm ea eb, combine_sum_right_comm _ ea eb]
      _ = sums (addPartial 0 k ra ea (addPartial 0 k rb eb x)) :=
          (chunkParts_addPartial_addPartial hrb hba hb ha).symm
  case again =>
    obtain ⟨r, hr⟩ := List.exists_mem_of_ne_nil ra hra
    refine addPartial_repeated hr ?_
    rw [chunkParts_addPartial ha]
    exact List.mem_append_right _ hr

end Sys2Proof.Machine
end

section
/-! SUPPORT. Issue of an instruction (R142, R144): its checks in their order, and that every instruction of a
core goes through them. -/

namespace Sys2Proof.Machine

/-- The core runs a kernel and its clock is up. -/
def State.coreRuns (s : State) (c : Nat) : Bool :=
  (s.kernelOf c).isSome && (s.core c).regs.state == 1 && s.awake (islandOfCluster (clusterOf c))

section
variable {s : State} {c : Nat} {w : Dword} {op : Nat} {mask : Dword} {f : State → IRes}

/-- The first check of issue is `coreRuns`. -/
theorem State.waits_eq_not_coreRuns : ((s.kernelOf c).isNone || (s.core c).regs.state != 1
    || !s.awake (islandOfCluster (clusterOf c))) = !s.coreRuns c := by
  unfold State.coreRuns
  cases s.kernelOf c <;> simp [bne]

theorem State.issue_waiting (h : s.coreRuns c = false) : s.issue c w op mask f = s := by
  unfold State.issue
  dsimp only
  rw [State.waits_eq_not_coreRuns, h]
  rfl

/-- A core that runs makes the other checks. -/
theorem State.issue_running (h : s.coreRuns c = true) : s.issue c w op mask f =
    if (s.core c).count ≤ (s.core c).regs.pc.toNat then s.coreFault c 0x08 0 0
    else if SMap.get 0 (s.core c).ibuf (s.core c).regs.pc.toNat ≠ w then s
    else if !listedOps.contains (iOp w) then s.coreFault c 0x01 0 0
    else if iOp w ≠ op then s
    else if w &&& ~~~(mask ||| bitsMask [(63, 56)]) ≠ 0 then s.coreFault c 0x01 0 0
    else match f s with
      | .go s' => s'.updCore c (corePast (s.core c).regs.pc.toNat)
      | .jump s' t => s'.updCore c (coreJump t)
      | .stall => s
      | .wait w => s.waking w
      | .fault s' cause u a => s'.coreFault c cause u a := by
  unfold State.issue
  dsimp only
  rw [State.waits_eq_not_coreRuns, h]
  rfl

theorem State.issue_pastEnd (h : s.coreRuns c = true) (hpc : (s.core c).count ≤ (s.core c).regs.pc.toNat) :
    s.issue c w op mask f = s.coreFault c 0x08 0 0 := by
  rw [State.issue_running h, if_pos hpc]

variable (h : s.coreRuns c = true) (hpc : (s.core c).regs.pc.toNat < (s.core c).count)
  (hw : SMap.get 0 (s.core c).ibuf (s.core c).regs.pc.toNat = w)
include h hpc hw

theorem State.issue_unlisted (hl : listedOps.contains (iOp w) = false) :
    s.issue c w op mask f = s.coreFault c 0x01 0 0 := by
  rw [State.issue_running h, if_neg (by omega), if_neg (not_not.2 hw), if_pos (by rw [hl]; rfl)]

theorem State.issue_otherOp (hl : listedOps.contains (iOp w) = true) (ho : iOp w ≠ op) :
    s.issue c w op mask f = s := by
  rw [State.issue_running h, if_neg (by omega), if_neg (not_not.2 hw), if_neg (by rw [hl]; simp), if_pos ho]

theorem State.issue_reservedBits (hl : listedOps.contains op = true) (ho : iOp w = op)
    (hm : w &&& ~~~(mask ||| bitsMask [(63, 56)]) ≠ 0) :
    s.issue c w op mask f = s.coreFault c 0x01 0 0 := by
  rw [State.issue_running h, if_neg (by omega), if_neg (not_not.2 hw), if_neg (by rw [ho, hl]; simp),
    if_neg (not_not.2 ho), if_pos hm]

end

/-- Each row of the table is the issue of its opcode and its bits, with some meaning. -/
theorem exec_coreRow {r : (Fin 192 → Dword → Instr) × Nat × Dword} (hr : r ∈ coreRows) (c : Fin 192)
    (w : Dword) (s : State) : ∃ f, exec (r.1 c w) s = .next (s.issue c w r.2.1 r.2.2 f) := by
  revert r
  simp only [coreRows, List.map_cons, List.map_nil, List.cons_append, List.nil_append, List.forall_mem_cons]
  repeat refine ⟨⟨_, rfl⟩, ?_⟩
  exact nofun

theorem coreRow_listed {r : (Fin 192 → Dword → Instr) × Nat × Dword} (hr : r ∈ coreRows) :
    listedOps.contains r.2.1 = true := by
  have hall : (coreRows.all fun r => listedOps.contains r.2.1) = true := by decide
  exact List.all_eq_true.1 hall r hr

/-- Settles O7: every row goes through the checks of issue. -/
theorem encodingFaults : Obligations.EncodingFaults := by
  unfold Obligations.EncodingFaults
  intro r hr c w s x pc runs
  obtain ⟨f, hf⟩ := exec_coreRow hr c w s
  rw [hf]
  refine ⟨fun h => ?waits, fun h hpc => ?pastEnd, fun h hpc hw =>
    ⟨fun hl => ?unlisted, fun hl ho => ?otherOp, fun ho hm => ?reserved⟩⟩
  case waits => rw [State.issue_waiting h]
  case pastEnd => rw [State.issue_pastEnd h hpc]
  case unlisted => rw [State.issue_unlisted h hpc hw hl]
  case otherOp => rw [State.issue_otherOp h hpc hw hl ho]
  case reserved => rw [State.issue_reservedBits h hpc hw (coreRow_listed hr) ho hm]

end Sys2Proof.Machine
end

section
/-! SUPPORT. An instruction of the sequencer itself at its word: it goes on, jumps, stalls, or sets a scalar
register that no unit holds back (R137, R138, R142). -/

namespace Sys2Proof.Machine

section
variable {s t : State} {c : Nat} {w : Dword} {op : Nat} {mask : Dword} {f : State → IRes}
  (h : s.standsAt c w op mask = true)
include h

theorem State.issue_go (hf : f s = .go t) (hop : listedOps.contains op = true := by decide) :
    (.next (s.issue c w op mask f) : Ans) = .next (s.wentPast c t) := by
  rw [State.issue_standsAt h hop, hf]

theorem State.issue_jump {n : Nat} (hf : f s = .jump t n)
    (hop : listedOps.contains op = true := by decide) :
    (.next (s.issue c w op mask f) : Ans) = .next (t.updCore c (coreJump n)) := by
  rw [State.issue_standsAt h hop, hf]

theorem State.issue_stall (hf : f s = .stall) (hop : listedOps.contains op = true := by decide) :
    (.next (s.issue c w op mask f) : Ans) = .next s := by
  rw [State.issue_standsAt h hop, hf]

/-- An instruction that writes a scalar register. -/
theorem State.issue_setReg {r : Nat} {v : State → Dword} {rd : List Nat} (hf : f s = setReg c r v rd t)
    (hr : t.regsFree c rd [r] = true) (hop : listedOps.contains op = true := by decide) :
    (.next (s.issue c w op mask f) : Ans) = .next (s.wentPast c (t.setD c r (v t))) :=
  State.issue_go h (hf.trans (State.seqOp_regsFree hr _)) hop

end

/-! Scalar registers (R107). -/

theorem State.dreg_zero (s : State) (c : Nat) : s.dreg c 0 = 0 := rfl

theorem coreSetD_zero (x : Core) (v : Dword) : coreSetD x 0 v = x := rfl

theorem coreD_coreSetD_same {r : Nat} (hr : r ≠ 0) (x : Core) (v : Dword) : coreD (coreSetD x r v) r = v := by
  simp [coreD, coreSetD, hr]

theorem coreD_coreSetD_other {r q : Nat} (hq : q ≠ r) (x : Core) (v : Dword) :
    coreD (coreSetD x r v) q = coreD x q := by
  by_cases hr : r = 0 <;> simp [coreD, coreSetD, hr, hq]

theorem State.setD_core (s : State) (c r : Nat) (v : Dword) :
    (s.setD c r v).core c = coreSetD (s.core c) r v := by
  simp [State.setD]

/-- The cycle count holds no register back. -/
theorem State.countCycles_regsFree (s : State) (c : Nat) (rd wr : List Nat) :
    (s.countCycles c).regsFree c rd wr = s.regsFree c rd wr := by
  simp [State.regsFree, State.countCycles, regBusy]

theorem State.countCycles_core_cycles (s : State) (c : Nat) :
    ((s.countCycles c).core c).regs.cycles = (s.core c).regs.cycles + BitVec.ofNat 64 s.freeVal := by
  simp [State.countCycles]

/-! ARG (R149). -/

/-- Settles O9: the word of the argument block, or the fault beyond the last. -/
theorem argRule : Obligations.ArgRule := by
  unfold Obligations.ArgRule
  intro c w s hst
  refine ⟨fun v hv hr => ?word, fun hlen => ?beyond⟩
  case word => exact State.issue_setReg (v := fun _ => v) hst (by rw [hv]) hr
  case beyond => exact State.issue_fault hst (by rw [List.getElem?_eq_none hlen])

/-! ALU and ALUI (R144). -/

theorem aluOp_reserved {op : Nat} (h : 12 < op) (a b : Dword) : aluOp op a b = none :=
  match op, h with
  | _ + 13, _ => rfl

theorem aluOp_eq_aluValue {op : Nat} (h : op ≤ 12) (a b : Dword) :
    aluOp op a b = some (aluValue op a b) := by
  interval_cases op <;> rfl

/-- Settles O11: an OP up to 12 writes its value, any other is reserved. -/
theorem aluComplete : Obligations.AluComplete := by
  unfold Obligations.AluComplete
  refine fun c w s => ⟨fun hst => ⟨fun hop => ?alu_reserved, fun hop hr => ?alu_value⟩,
    fun hst => ⟨fun hop => ?alui_reserved, fun hop hr => ?alui_value⟩⟩
  case alu_reserved => exact State.issue_fault hst (by rw [aluOp_reserved hop])
  case alui_reserved => exact State.issue_fault hst (by rw [aluOp_reserved hop])
  case alu_value =>
    exact State.issue_setReg hst
      (v := fun s => aluValue (iw w 55 52) (s.dreg c (iw w 46 42)) (s.dreg c (iw w 41 37)))
      (by simp only [aluOp_eq_aluValue hop, Option.getD_some]; rfl) hr
  case alui_value =>
    exact State.issue_setReg hst
      (v := fun s => aluValue (iw w 55 52) (s.dreg c (iw w 46 42)) (sext 32 (iw w 31 0)))
      (by simp only [aluOp_eq_aluValue hop, Option.getD_some]; rfl) hr

/-! NOP, LI, LIH and SYS (R144). -/

/-- Settles O12: each instruction sets Dd to its value; D0 takes none. -/
theorem scalarRegistersAndMoves : Obligations.ScalarRegistersAndMoves := by
  unfold Obligations.ScalarRegistersAndMoves
  refine ⟨fun c w s => ⟨fun hst => ?nop, fun hst hr => ?li, fun hst hr => ?lih, fun p cmd k hst hr hk =>
      ⟨fun hi => ?rank, fun hi => ?count, fun hi => ?index, fun hi => ?cycles, fun hi => ?args⟩⟩,
    fun s c r v => ⟨State.dreg_zero _ _, ?discards, fun hr => ?same, fun q hq => ?other⟩⟩
  case nop => exact State.issue_go hst rfl
  case li => exact State.issue_setReg (v := fun _ => sext 48 (iw w 47 0)) hst rfl hr
  case lih =>
    exact State.issue_setReg (v := fun s => BitVec.ofNat 64
      ((s.dreg c (iw w 52 48)).toNat % 2 ^ 48 + iw w 15 0 * 2 ^ 48)) hst rfl hr
  case rank =>
    exact State.issue_setReg (v := fun _ => BitVec.ofNat 64 (rankIn k c)) hst (by simp only [hk, hi]) hr
  case count =>
    exact State.issue_setReg (v := fun _ => BitVec.ofNat 64 k.cores.length) hst (by simp only [hk, hi]) hr
  case index =>
    exact State.issue_setReg (v := fun _ => BitVec.ofNat 64 (coreIndex cmd (rankIn k c))) hst
      (by simp only [hk, hi]) hr
  case cycles =>
    rw [← State.countCycles_core_cycles]
    exact State.issue_setReg (v := fun s => (s.core c).regs.cycles) hst (by simp only [hk, hi])
      ((State.countCycles_regsFree s c _ _).trans hr)
  case args =>
    exact State.issue_setReg (v := fun s => BitVec.ofNat 64 (s.core c).argVa) hst (by simp only [hk, hi]) hr
  case discards => rw [State.setD_core, coreSetD_zero]
  case same => rw [State.dreg, State.setD_core, coreD_coreSetD_same hr]
  case other => rw [State.dreg, State.setD_core, coreD_coreSetD_other hq, State.dreg]

/-! JMP, BR and LOOP (R142, R144). -/

theorem State.branchTo_inside {s : State} {c t : Nat} (h : t < (s.core c).count) :
    s.branchTo c t = .jump s t := if_neg (by omega)

theorem State.branchTo_beyond {s : State} {c t : Nat} (h : (s.core c).count ≤ t) :
    s.branchTo c t = .fault s 0x08 0 0 := if_pos h

/-- Settles O13: JMP and BR go to their target or fault there; LOOP checks LAST, then its stack, then its
count. -/
theorem controlFlowComplete : Obligations.ControlFlowComplete := by
  unfold Obligations.ControlFlowComplete
  refine fun c w s => ⟨fun hst => ⟨fun ht => ?jump, fun ht => ?jumpBeyond⟩, fun hst hr hcnd =>
    ⟨fun hn => ?falls, fun hy ht => ?branch, fun hy ht => ?branchBeyond⟩,
    fun hst hr => ⟨fun hlast => ?badLast, fun hlo hhi hfull => ?full, fun hlo hhi hroom hn => ?enters,
      fun hlo hhi hroom hn => ?skips⟩⟩
  case jump => exact State.issue_jump hst (State.branchTo_inside ht)
  case jumpBeyond => exact State.issue_fault hst (State.branchTo_beyond ht)
  case falls =>
    exact State.issue_go hst ((if_neg (by omega)).trans
      ((State.seqOp_regsFree hr _).trans (if_neg (by simp [hn]))))
  case branch =>
    exact State.issue_jump hst ((if_neg (by omega)).trans
      ((State.seqOp_regsFree hr _).trans ((if_pos hy).trans (State.branchTo_inside ht))))
  case branchBeyond =>
    exact State.issue_fault hst ((if_neg (by omega)).trans
      ((State.seqOp_regsFree hr _).trans ((if_pos hy).trans (State.branchTo_beyond ht))))
  case badLast =>
    exact State.issue_fault hst ((State.seqOp_regsFree hr _).trans (if_pos hlast))
  case full =>
    exact State.issue_fault hst
      ((State.seqOp_regsFree hr _).trans (by dsimp only; rw [if_neg (by omega), if_pos hfull]))
  case enters =>
    exact State.issue_go hst ((State.seqOp_regsFree hr _).trans (by
      dsimp only; rw [if_neg (by omega), if_neg (by omega), if_neg hn]))
  case skips =>
    exact State.issue_jump hst ((State.seqOp_regsFree hr _).trans (by
      dsimp only; rw [if_neg (by omega), if_neg (by omega), if_pos hn]))

end Sys2Proof.Machine
end

section
/-! SUPPORT. END and the sync instructions (R141, R143, R144, R150). -/

namespace Sys2Proof.Machine

/-! The commit point of a KERNEL (R150). -/

theorem State.tryCommit_all {s : State} {p : Nat} {c : Cmd} {k : Kernel}
    (h : (k.cores.all fun i => k.ended.contains (k.cores.idxOf i) && (s.core i).emitted.isEmpty) = true) :
    s.tryCommit p c k = s.endKernel p c k (endDone 0) := if_pos h

theorem State.tryCommit_open {s : State} {p : Nat} {c : Cmd} {k : Kernel}
    (h : (k.cores.any fun i => !(k.ended.contains (k.cores.idxOf i) && (s.core i).emitted.isEmpty)) = true) :
    s.tryCommit p c k = s := by
  have hnot : (k.cores.all fun i =>
      k.ended.contains (k.cores.idxOf i) && (s.core i).emitted.isEmpty) = false := by
    rw [List.all_eq_not_any_not, h]
    rfl
  exact if_neg (ne_true_of_eq_false hnot)

/-- END at its word in a quiet core: the core is idle and past END, and the kernel may commit. -/
theorem exec_coreEnd {c : Fin 192} {w : Dword} {s : State} {p : Nat} {cmd : Cmd} {k : Kernel}
    (hst : s.standsAt c w 0x01 0 = true) (hk : s.kernelOf c = some (p, cmd, k))
    (hq : coreQuiet (s.core c) = true) :
    let k' := { k with ended := k.ended ++ [k.cores.idxOf c.val] }
    exec (.coreEnd c w) s = .next (s.wentPast c (((s.updKernel p cmd fun _ => k').updCore c fun x =>
      { x with regs := { x.regs with state := 0 } }).tryCommit p cmd k')) :=
  State.issue_go hst (by rw [hk, hq]; rfl)

/-! What a sync instruction waits for. -/

/-- FENCE does not wait for a queue that its field leaves out, or that is empty. -/
theorem fence_passes {α : Type} {n i : Nat} {q : List α} (h : n / 2 ^ i % 2 = 1 → q = []) :
    (bit n i && !q.isEmpty) = false := by
  by_cases hb : n / 2 ^ i % 2 = 1
  · simp [h hb]
  · simp [bit, fld, hb]

theorem any_eq_false_of_all_not {α : Type} {l : List α} {f : α → Bool} (h : (l.all fun x => !f x) = true) :
    l.any f = false := by
  rw [List.any_eq_not_all_not, h]
  rfl

/-- CRPOST to a rank of the kernel, with no DMAPEER to it outstanding: to a failed core it faults, beyond what
the counter holds too, else the credits are there (R143). -/
theorem exec_crpost {c : Fin 192} {w : Dword} {s : State} {p t : Nat} {cmd : Cmd} {k : Kernel}
    (hst : s.standsAt c w 0x74 (bitsMask [(52, 32), (3, 0)]) = true) (hk : s.kernelOf c = some (p, cmd, k))
    (hr : s.regsFree c [iw w 52 48] [] = true) (ht : k.cores[(s.dreg c (iw w 52 48)).toNat]? = some t)
    (hpeer : ((s.core c).dmas.any fun d =>
      d.kind == .peer && d.rank == (s.dreg c (iw w 52 48)).toNat) = false) :
    exec (.crpost c w) s = .next (
      if (s.core t).regs.state = 3 then s.coreFault c 0x13 0 0
      else if 65535 < SMap.get 0 (s.core t).cc (iw w 3 0) + iw w 47 32 then s.coreFault c 0x0E 0 0
      else s.wentPast c (s.updCore t fun x =>
        { x with cc := SMap.modify 0 x.cc (iw w 3 0) (· + iw w 47 32) })) := by
  have hr' : s.regsFree c [rD (iw w 52 48)] [] = true := hr
  refine congrArg Host.Outcome.next ?_
  rw [State.issue_standsAt hst (by decide), hk]
  dsimp only
  rw [State.seqOp_regsFree hr', ht]
  dsimp only
  rw [hpeer, if_neg (by decide)]
  simp only [beq_iff_eq]
  split_ifs with hdead hover
  · rfl
  · rfl
  · exact congrArg (s.wentPast c) (State.updCore_congr rfl)

/-- Settles O14: each instruction at its word, by what it would wait for. -/
theorem syncAndEndComplete : Obligations.SyncAndEndComplete := by
  unfold Obligations.SyncAndEndComplete
  refine ⟨fun c w s p cmd k hst hk => ⟨fun hq => ?endWaits, fun hq hopen => ?ends, fun hq hall => ?commits⟩,
    fun c w s p cmd k hk => ⟨fun hst ha hb hv hd => ?fence, fun hst hnone hmany => ?arrives,
      fun there hst hbar hme hlast => ?releases, fun hst hout => ?evinc, fun hst hr hle => ?evwait,
      fun t hst hr ht hlive hpeer hfit => ?crpost, fun hst hle => ?crwait⟩⟩
  case endWaits => exact State.issue_stall hst (by rw [hk, hq]; rfl)
  case ends => rw [exec_coreEnd hst hk hq, State.tryCommit_open hopen]
  case commits => rw [exec_coreEnd hst hk hq, State.tryCommit_all hall]
  case fence =>
    exact State.issue_go hst (by
      dsimp only
      rw [fence_passes (i := 0) (by simpa using ha), fence_passes (i := 1) hb, fence_passes (i := 2) hv,
        fence_passes (i := 3) hd]
      rfl)
  case arrives =>
    exact State.issue_jump hst (by rw [hk]; dsimp only; rw [hnone]; exact if_pos hmany)
  case releases =>
    have hmine : there.contains (rankIn k c) = false := by simpa [rankIn] using hme
    exact State.issue_go hst (by
      rw [hk]
      dsimp only
      rw [hbar]
      dsimp only
      rw [hmine, if_neg (by decide), if_neg (by simp), if_neg (by omega)])
  case evinc =>
    have hnone : ((s.core c).dmas.any fun d => d.kind == .out) = false := any_eq_false_of_all_not hout
    exact State.issue_go hst (by
      rw [hk]
      dsimp only
      rw [hnone, if_neg (by decide)]
      exact (apply_ite IRes.go _ _ _).symm)
  case evwait =>
    exact State.issue_go hst (by rw [hk]; exact (State.seqOp_regsFree hr _).trans (if_neg (by omega)))
  case crpost =>
    rw [exec_crpost hst hk hr ht (any_eq_false_of_all_not hpeer), if_neg hlive, if_neg (by omega)]
  case crwait =>
    refine State.issue_go hst ((if_neg (by omega)).trans ?_)
    exact congrArg IRes.go (State.updCore_congr rfl)

end Sys2Proof.Machine
end

section
/-! SUPPORT. DMAs (R137, R139, R145): when there is room for one, what the checks of its operands answer, and
the effect of each kind. -/

namespace Sys2Proof.Machine

theorem State.dmaFull_of_lt_16 {s : State} {c : Nat} (h : (s.core c).dmas.length < 16) :
    s.dmaFull c = false := by
  have h32 : ¬ maxDma ≤ (s.core c).dmas.length := by unfold maxDma; omega
  have h16 : ¬ 16 ≤ (s.core c).dmas.length := by omega
  simp [State.dmaFull, h32, h16]

theorem scrIn_of_le {a n : Nat} (h : a + n ≤ scratchBytes) : scrIn a n = true := decide_eq_true h

section
variable {s : State} {c : Nat} {w : Dword} {rd : List Nat} {f : State → Nat → Nat → Nat → IRes}
  (hr : s.regsFree c ([iw w 52 48, iw w 47 43, iw w 42 38] ++ rd) [] = true) (hfull : s.dmaFull c = false)
include hr hfull

theorem State.dmaOp_ok (hok : dmaOk (s.dreg c (iw w 52 48)).toNat (s.dreg c (iw w 47 43)).toNat
      (s.dreg c (iw w 42 38)).toNat = true) :
    s.dmaOp c w rd f = f s (s.dreg c (iw w 52 48)).toNat (s.dreg c (iw w 47 43)).toNat
      (s.dreg c (iw w 42 38)).toNat :=
  (State.seqOp_regsFree hr _).trans (by dsimp only; rw [hfull, hok]; rfl)

/-- Operands that R145 does not allow are cause 0x05 of the DMA engine. -/
theorem State.dmaOp_bad (hbad : dmaOk (s.dreg c (iw w 52 48)).toNat (s.dreg c (iw w 47 43)).toNat
      (s.dreg c (iw w 42 38)).toNat = false) :
    s.dmaOp c w rd f = .fault s 0x05 4 ((s.dreg c (iw w 52 48)).toNat % 2 ^ 56) :=
  (State.seqOp_regsFree hr _).trans (by dsimp only; rw [hfull, hbad]; rfl)

end

/-- Settles O15: completions as they are; a DMA by its checks, its access and its place among the
outstanding ones. -/
theorem unitsAndDmaComplete : Obligations.UnitsAndDmaComplete := by
  unfold Obligations.UnitsAndDmaComplete
  refine ⟨fun c s => ⟨fun u => rfl, rfl⟩, fun c w s p cmd k hk =>
    ⟨State.dmaFull_of_lt_16, fun hfull hok => ⟨fun s' bs hst hr hin hread => ?dmain,
      fun s' hst hr hatomic hin hu hwrite => ?dmaout, fun t hst hr hin hin' ht hlive hu => ?dmapeer⟩,
    fun hst hnone => ?dmawait⟩⟩
  case dmain =>
    refine State.issue_go hst ?_
    rw [hk]
    refine (State.dmaOp_ok hr hfull hok).trans ?_
    dsimp only
    rw [scrIn_of_le hin, if_neg (by decide), hread]
  case dmaout =>
    refine State.issue_go hst ?_
    rw [hk]
    refine (State.dmaOp_ok hr hfull hok).trans ?_
    dsimp only
    rw [scrIn_of_le hin, if_neg (by decide), State.dmaSource_clean hu, hatomic, Bool.false_and,
      if_neg (by decide), if_neg (by decide), hwrite]
    rfl
  case dmapeer =>
    refine State.issue_go hst ?_
    rw [hk]
    refine (State.dmaOp_ok hr hfull hok).trans ?_
    dsimp only
    rw [scrIn_of_le hin, if_neg (by decide), scrIn_of_le hin', if_neg (by decide), ht]
    dsimp only
    rw [if_neg (by simpa using hlive), State.dmaSource_clean hu]
  case dmawait =>
    exact State.issue_go hst (if_neg (ne_true_of_eq_false (any_eq_false_of_all_not hnone)))

end Sys2Proof.Machine
end

section
/-! SUPPORT. Instructions of the vector unit and the arrays whose checks pass: TLD, TST, SLD and SST (R125,
R126), AFDSET, AMM and ADRAIN (R109 to R119), and the Soundings slots (R133). -/

namespace Sys2Proof.Machine

theorem coreD_core (s : State) (c r : Nat) : coreD (s.core c) r = s.dreg c r := rfl

/-- SLD and SST at a word of the scratchpad. -/
theorem atWord_inside {s : State} {c : Nat} {w : Dword} (h : badRange 8 [(wordAddr s c w, 8)] = none)
    (f : Nat → IRes) : atWord s c w f = f (wordAddr s c w) := by
  rw [atWord, h]

/-- Settles O16: each is an operation of the vector unit once its ranges are right. -/
theorem loadStoreComplete : Obligations.LoadStoreComplete := by
  unfold Obligations.LoadStoreComplete
  intro c w s
  dsimp only
  refine ⟨fun hst hin hu => ?tld, fun hst hin hu => ?tst, fun hst hin hu => ?sld, fun hst hin hu => ?sst⟩
  case tld => exact State.issue_unitOp hst (by dsimp only; rw [hin]) hu rfl
  case tst => exact State.issue_unitOp hst (by dsimp only; rw [hin]) hu rfl
  case sld => exact State.issue_unitOp hst (atWord_inside hin _) hu rfl
  case sst => exact State.issue_unitOp hst (atWord_inside hin _) hu rfl

/-- Settles O17: AFDSET is the sequencer's, AMM and ADRAIN are operations of their array. -/
theorem arraysComplete : Obligations.ArraysComplete := by
  unfold Obligations.ArraysComplete
  intro c w s
  dsimp only
  refine ⟨fun hst => ⟨fun hbad => ?badFormat, fun hgood hr => ?afdset⟩,
    fun hst => ⟨fun cause hcause => ?ammFaults, fun hnone hin hu => ?amm⟩,
    fun hst => ⟨fun hdq hfp => ?floatingDq, fun hint hslot hu => ?adrain⟩⟩
  case badFormat => exact State.issue_fault hst (if_pos hbad)
  case afdset =>
    exact State.issue_go hst ((if_neg (by simp [hgood])).trans
      ((State.seqOp_regsFree hr _).trans (congrArg IRes.go (State.updCore_congr rfl))))
  case ammFaults => exact State.issue_fault hst (by dsimp only; rw [coreD_core, hcause])
  case amm =>
    exact State.issue_unitOp hst (by dsimp only; rw [coreD_core, hnone]; dsimp only; rw [hin]) hu rfl
  case floatingDq => exact State.issue_fault hst (if_pos (by simp [hdq, hfp]))
  case adrain =>
    exact State.issue_unitOp hst (ite_ite_neg (by simpa using hint) (by simpa using hslot)) hu rfl

/-- Settles O23: each is an operation of the vector unit once its slot is bound. -/
theorem soundingsInstructionsComplete : Obligations.SoundingsInstructionsComplete := by
  unfold Obligations.SoundingsInstructionsComplete
  intro c w s
  dsimp only
  refine ⟨fun hst hu => ?stbind, fun hst => ⟨fun hfree => ?staccUnbound, fun hbound hu => ?stacc⟩,
    fun hst => ⟨fun hfree => ?stemitUnbound, fun hbound hu => ?stemit⟩⟩
  case stbind => exact State.issue_unitOp hst rfl hu rfl
  case staccUnbound => exact State.issue_fault hst (if_pos (by simp [hfree]))
  case stacc => exact State.issue_unitOp hst (if_neg (by simp [hbound])) hu rfl
  case stemitUnbound => exact State.issue_fault hst (if_pos (by simp [hfree]))
  case stemit => exact State.issue_unitOp hst (if_neg (by simp [hbound])) hu rfl

end Sys2Proof.Machine
end

section
/-! SUPPORT. Operands that an instruction cannot take (R151): the check that fails, instruction by
instruction. -/

namespace Sys2Proof.Machine

/-- Registers are free to be read when no uncompleted instruction writes one (R138). -/
theorem State.regsFree_reads {s : State} {c : Nat} {rd : List Nat} : s.regsFree c rd [] = true ↔
    ∀ e ∈ (s.core c).qa ++ (s.core c).qb ++ (s.core c).qv, ∀ r ∈ rd, r ≠ 0 → r ∉ e.wr := by
  unfold State.regsFree regBusy
  generalize (s.core c).qa ++ (s.core c).qb ++ (s.core c).qv = es
  simp

theorem State.regsFree_append {s : State} {c : Nat} {rd rd' : List Nat} (h : s.regsFree c rd [] = true)
    (h' : s.regsFree c rd' [] = true) : s.regsFree c (rd ++ rd') [] = true := by
  rw [State.regsFree_reads] at h h' ⊢
  intro e he r hr
  rcases List.mem_append.1 hr with hr | hr
  · exact h e he r hr
  · exact h' e he r hr

theorem atWord_outside {s : State} {c a : Nat} {w : Dword} (h : badRange 8 [(wordAddr s c w, 8)] = some a)
    (f : Nat → IRes) : atWord s c w f = .fault s 0x05 3 a := by
  rw [atWord, h]

/-- SYS gives no meaning to an IDX above 4. -/
theorem exec_sys_reserved {c : Fin 192} {w : Dword} {s : State} {p : Nat} {cmd : Cmd} {k : Kernel}
    (hst : s.standsAt c w 0x0C (bitsMask [(52, 48), (7, 0)]) = true) (hk : s.kernelOf c = some (p, cmd, k))
    (hi : 4 < iw w 7 0) : exec (.sys c w) s = .next (s.coreFault c 0x01 0 0) := by
  obtain ⟨n, hn⟩ := Nat.exists_eq_add_of_le' hi
  exact State.issue_fault hst (by rw [hk]; dsimp only; rw [hn]; rfl)

/-- A core at another KBAR than the one that its kernel waits at. -/
theorem exec_kbar_other {c : Fin 192} {w : Dword} {s : State} {p b : Nat} {cmd : Cmd} {k : Kernel}
    {there : List Nat} (hst : s.standsAt c w 0x71 (bitsMask [(3, 0)]) = true)
    (hk : s.kernelOf c = some (p, cmd, k)) (hbar : k.barrier = some (b, there)) (hb : b ≠ iw w 3 0)
    (hme : k.cores.idxOf c.val ∉ there) : exec (.kbar c w) s = .next (s.coreFault c 0x0F 0 0) := by
  have hmine : there.contains (rankIn k c) = false := by simpa [rankIn] using hme
  refine State.issue_fault hst ?_
  rw [hk]
  dsimp only
  rw [hbar]
  dsimp only
  rw [hmine, if_neg (by decide), if_pos (by simpa using hb)]

/-- CRPOST to a rank that the kernel does not have. -/
theorem exec_crpost_absent {c : Fin 192} {w : Dword} {s : State} {p : Nat} {cmd : Cmd} {k : Kernel}
    (hst : s.standsAt c w 0x74 (bitsMask [(52, 32), (3, 0)]) = true) (hk : s.kernelOf c = some (p, cmd, k))
    (hr : s.regsFree c [iw w 52 48] [] = true) (hnone : k.cores[(s.dreg c (iw w 52 48)).toNat]? = none) :
    exec (.crpost c w) s = .next (s.coreFault c 0x0E 0 0) := by
  refine State.issue_fault hst ?_
  rw [hk]
  refine (State.seqOp_regsFree hr _).trans ?_
  dsimp only
  rw [hnone]

/-- Settles O8: in each instruction the check that the operand fails. -/
theorem operandFaults : Obligations.OperandFaults := by
  unfold Obligations.OperandFaults
  intro c w s p cmd k hk
  dsimp only
  refine ⟨fun hst hi => exec_sys_reserved hst hk hi, fun hst hcnd => ?br, fun hst hint => ?vcmp,
    fun cause hst hcause => ?amm,
    fun hst => ⟨fun hdq hfp => ?drainFloat, fun hdq hsnd hfree => ?drainUnbound⟩,
    fun a hbad => ⟨fun hst => ?tld, fun hst => ?tst⟩, fun a hbad => ⟨fun hst => ?sld, fun hst => ?sst⟩,
    fun hr hfull hbad => ⟨fun hst => ?dmain, fun hst => ?dmaout, fun hst hr' => ?dmapeer⟩,
    fun b there hst hbar hb hme => exec_kbar_other hst hk hbar hb hme,
    fun hst hr => ⟨exec_crpost_absent hst hk hr, fun t ht hpeer =>
      ⟨fun hdead => ?failed, fun hlive hover => ?overflow⟩⟩⟩
  case br => exact State.issue_fault hst (if_pos hcnd)
  case vcmp =>
    by_cases hcnd : 6 ≤ iw w 33 31
    · exact State.issue_fault hst (if_pos hcnd)
    · exact State.issue_vecOp_reserved hst (if_neg hcnd) (vecPick_int hint)
  case amm => exact State.issue_fault hst (by dsimp only; rw [coreD_core, hcause])
  case drainFloat => exact State.issue_fault hst (if_pos (by simp [hdq, hfp]))
  case drainUnbound =>
    exact State.issue_fault hst ((if_neg (by simp [hdq])).trans (if_pos (by simp [hsnd, hfree])))
  case tld => exact State.issue_fault hst (by dsimp only; rw [hbad])
  case tst => exact State.issue_fault hst (by dsimp only; rw [hbad])
  case sld => exact State.issue_fault hst (atWord_outside hbad _)
  case sst => exact State.issue_fault hst (atWord_outside hbad _)
  case dmain => exact State.issue_fault hst (by rw [hk]; exact State.dmaOp_bad hr hfull hbad)
  case dmaout => exact State.issue_fault hst (by rw [hk]; exact State.dmaOp_bad hr hfull hbad)
  case dmapeer =>
    exact State.issue_fault hst (by rw [hk]; exact State.dmaOp_bad (State.regsFree_append hr hr') hfull hbad)
  case failed => rw [exec_crpost hst hk hr ht hpeer, if_pos hdead]
  case overflow => rw [exec_crpost hst hk hr ht hpeer, if_neg hlive, if_pos hover]

end Sys2Proof.Machine
end

section
/-! SUPPORT. Dispatch, completion records and the start of a KERNEL (R147, R148, R219 to R238). -/

namespace Sys2Proof.Machine

/-! Dispatch. -/

section
variable {p : Fin 16} {s : State} {q : Nat} {c : Cmd} (hmay : s.mayDispatch p = true)
  (hq : s.pickQueue p (s.queueReady p) = some q) (hc : s.nextOf p q = some c)
include hmay hq hc

/-- The command whose turn it is takes its queue's turn and is dispatched, where its checks let it. -/
theorem exec_commandDispatch_go {need : Nat} (ht : s.turnOf p c = .go need) :
    exec (.commandDispatch p) s = .next ((s.takeTurn p q).dispatchCmd p c need) := by
  refine congrArg Host.Outcome.next ?_
  rw [hmay, if_neg (by decide), hq]
  dsimp only
  rw [hc]
  dsimp only
  rw [ht]

/-- One that ends without a dispatch takes the turn too. -/
theorem exec_commandDispatch_idle {st d : Nat} {u : Option Nat} (ht : s.turnOf p c = .idle st d u) :
    exec (.commandDispatch p) s = .next ((s.takeTurn p q).finishIdle p c st d u) := by
  refine congrArg Host.Outcome.next ?_
  rw [hmay, if_neg (by decide), hq]
  dsimp only
  rw [hc]
  dsimp only
  rw [ht]

end

/-- A descriptor that failed its validation is not dispatched. -/
theorem State.turnOf_bad {s : State} {p d : Nat} {c : Cmd} (h : c.bad = some d) :
    s.turnOf p c = .idle stDeviceFault d none := by
  rw [State.turnOf, h]

/-- Settles O25: the dispatch is `dispatchCmd`, the failed descriptor's end `finishIdle`. -/
theorem commandDispatchComplete : Obligations.CommandDispatchComplete := by
  unfold Obligations.CommandDispatchComplete
  intro p s q c hmay hq hc
  refine ⟨fun need hgo => ?dispatched, fun d hbad => ?failed⟩
  case dispatched => exact exec_commandDispatch_go hmay hq hc hgo
  case failed => exact exec_commandDispatch_idle hmay hq hc (State.turnOf_bad hbad)

/-! Completion. -/

/-- A record is the fields of R229, at the next completion slot. -/
theorem State.writeRecord_eq (s : State) (p : Nat) (c : Cmd) (e : CmdEnd) :
    s.writeRecord p c e = s.xwrite (s.helmReq p) (((s.part p).queue c.q).cpl.toNat
      + 32 * (((s.part p).queue c.q).cplTail.toNat % ((s.part p).queue c.q).n)) (recordFields s p c e) := rfl

/-- Without held records nothing goes first. -/
theorem State.flushFirst_none {s : State} {p q : Nat} (h : s.heldCmds p q = []) : s.flushFirst p q = s := by
  simp [State.flushFirst, h]

theorem State.recordsWait_none {s : State} {p q : Nat} (h : s.heldCmds p q = []) :
    s.recordsWait p q = false := by
  simp [State.recordsWait, h]

section
variable {s s' : State} {p : Nat} {c : Cmd} {e : CmdEnd} (hheld : s.heldCmds p c.q = [])
  (hback : (s.heldBack c).isEmpty = true)
include hheld hback

/-- A record that is written: the counter, the interrupt and the stop follow it (R228). -/
theorem State.completeCmd_written (hw : (s.applyRest p c).writeRecord p c e = (s', .ok ())) :
    s.completeCmd p c e =
      (if endStops c e && (((s'.afterRecord p c e).part p).queue c.q).state == 1
        then (s'.afterRecord p c e).stopQueue p c.q 1 else s'.afterRecord p c e).genAfter p c.q := by
  rw [State.completeCmd, hback, hheld, if_neg (by decide), if_neg (by decide), hw]

/-- A record that cannot be written is held (R231). -/
theorem State.completeCmd_failed {st : Nat} {m : Miss}
    (hw : (s.applyRest p c).writeRecord p c e = (s', .fail st m)) :
    s.completeCmd p c e = s'.holdRecord p c := by
  rw [State.completeCmd, hback, hheld, if_neg (by decide), if_neg (by decide), hw]

end

section
variable {p : Fin 16} {q : Fin 64} {slot : BitVec 16} {s : State} (hheld : s.heldCmds p q = [])
include hheld

/-- The settled command of the row's slot is completed. -/
theorem exec_commandComplete_settled {c : Cmd} {e : CmdEnd}
    (hc : (s.pickCmd p fun c => c.q == q && cmdSlot (s.part p) c == slot.toNat && c.held == 0
      && c.outcome.isSome) = some c) (he : c.outcome = some e) (hm : s.unmerged p c = false) :
    exec (.commandComplete p q slot) s = .next (s.completeCmd p c e) := by
  refine congrArg Host.Outcome.next ?_
  rw [State.flushFirst_none hheld]
  dsimp only
  rw [hc]
  dsimp only
  rw [he]
  dsimp only
  rw [hm, State.recordsWait_none hheld]
  rfl

/-- A KERNEL with a faulted core takes its end when no command of the slot is settled. -/
theorem exec_commandComplete_faulted {c : Cmd}
    (hnone : (s.pickCmd p fun c => c.q == q && cmdSlot (s.part p) c == slot.toNat && c.held == 0
      && c.outcome.isSome) = none) (hc : s.rowCmd p q slot.toNat cmdFaulted = some c) :
    exec (.commandComplete p q slot) s = .next (s.settle p c) := by
  refine congrArg Host.Outcome.next ?_
  rw [State.flushFirst_none hheld]
  dsimp only
  rw [hnone]
  dsimp only
  rw [hc]

end

/-- The end of a KERNEL is the fault of its lowest-ranked core (R152). -/
theorem State.settle_kernel {s : State} {p : Nat} {c : Cmd} {k : Kernel} {e : CmdEnd}
    (hk : c.prog = .kernel k) (he : lowestFault k = some e) : s.settle p c = s.endKernel p c k e := by
  rw [State.settle, hk]
  dsimp only
  rw [he]

/-- Settles O26: the settled command's record is written or held; a faulted KERNEL settles. -/
theorem commandCompleteComplete : Obligations.CommandCompleteComplete := by
  unfold Obligations.CommandCompleteComplete
  intro p q slot s c hheld settled
  refine ⟨fun e hc he hm hback => ?record, fun k e hnone hc hk he => ?faulted⟩
  case record =>
    have hpicked := List.find?_some hc
    simp only [Bool.and_eq_true, beq_iff_eq] at hpicked
    obtain ⟨⟨⟨hq, -⟩, -⟩, -⟩ := hpicked
    have hheld' : s.heldCmds p c.q = [] := by rw [hq, hheld]
    rw [exec_commandComplete_settled hheld hc he hm]
    refine ⟨fun s' hw => ?written, fun s' st m hw => ?failed⟩
    case written => rw [State.completeCmd_written hheld' hback ((State.writeRecord_eq _ p c e).trans hw)]
    case failed => rw [State.completeCmd_failed hheld' hback ((State.writeRecord_eq _ p c e).trans hw)]
  case faulted => rw [exec_commandComplete_faulted hheld hnone hc, State.settle_kernel hk he]

/-! KERNEL (R147, R148). -/

theorem exec_kernel {p : Fin 16} {q : Fin 64} {slot : BitVec 16} {s : State} {c : Cmd}
    (h : s.rowCmd p q slot.toNat (fun c => c.op == opKernel && c.prog == .none) = some c) :
    exec (.kernel p q slot) s = .next (s.startKernel p c) :=
  State.onCmd_rowCmd h _

section
variable {s t : State} {p : Nat} {c : Cmd} {h : List Byte} {code args : List Dword}

/-- A KERNEL of a core that the partition does not have. -/
theorem State.startKernel_absent
    (hn : ((kCores c).filterMap (s.coreAt p)).length ≠ (kCores c).length) :
    s.startKernel p c = s.finish p c (endWith stDeviceFault 0x0206 0 true) := if_pos hn

variable (hn : ((kCores c).filterMap (s.coreAt p)).length = (kCores c).length)
  (hread : s.readImage p c = (t, .ok (h, code, args)))
include hn hread

theorem State.startKernel_badImage (himg : imageOk h = false) :
    s.startKernel p c = t.finish p c (endWith stDeviceFault 0x10 0 true) := by
  rw [State.startKernel]
  dsimp only
  rw [if_neg (not_not.2 hn), hread]
  dsimp only
  rw [himg]
  rfl

/-- A valid image: its cores start, ranks ascending. -/
theorem State.startKernel_starts (himg : imageOk h = true) :
    s.startKernel p c = ((kCores c).filterMap (s.coreAt p)).zipIdx.foldl
      (fun s e => (s.updCore e.1 (startCore e.2 code args (kArgs c) (p, c.q, c.idx))).queueWake
        (islandOfCluster (clusterOf e.1)))
      (t.updCmd p c fun y => { y with prog := .kernel { cores := (kCores c).filterMap (s.coreAt p) } }) := by
  rw [State.startKernel]
  dsimp only
  rw [if_neg (not_not.2 hn), hread]
  dsimp only
  rw [himg]
  rfl

end

/-- Settles O31: absent cores, a bad image, or the start of every core. -/
theorem kernelStartComplete : Obligations.KernelStartComplete := by
  unfold Obligations.KernelStartComplete
  intro p q slot s c hrow cores
  rw [exec_kernel hrow]
  refine ⟨fun hn => ?absent, fun t h code args hn hread => ⟨fun himg => ?badImage, fun himg => ?starts⟩⟩
  case absent => rw [State.startKernel_absent hn]
  case badImage => rw [State.startKernel_badImage hn hread himg]
  case starts =>
    rw [State.startKernel_starts hn hread himg]
    rfl

end Sys2Proof.Machine
end

section
/-! SUPPORT. Stores to a scratchpad (R124, R125, R139): its bytes under one write, what reading a word with an
error leaves alone, and a run of bytes with the marks that it clears. -/

namespace Sys2Proof.Machine

/-! Bytes. -/

theorem scrByte_scrPut (x : Core) (a j : Nat) (b : Byte) :
    scrByte (scrPut x a b) j = if j = a then b else scrByte x j := by
  have hbg : scrBg (scrPut x a b) j = scrBg x j := rfl
  unfold scrByte
  rw [hbg]
  by_cases hb : x.blank = 0
  · simp [scrPut, scrBg, hb]
  · simp only [scrPut, hb, if_false]
    rw [SMap.get_insert _ _ _ _ _ fun e he => (SMap.mem_erase.1 he).2, SMap.get_erase]
    by_cases hj : j = a <;> simp [hj]

theorem mem_wordsOf {a n k : Nat} : k ∈ wordsOf a n ↔ 0 < n ∧ a / 8 ≤ k ∧ k ≤ (a + n - 1) / 8 := by
  unfold wordsOf
  by_cases hn : n = 0
  · simp [hn]
  · simp only [hn, if_false, List.mem_map, List.mem_range]
    constructor
    · rintro ⟨i, hi, rfl⟩
      omega
    · rintro ⟨-, hlo, hhi⟩
      exact ⟨k - a / 8, by omega, by omega⟩

/-! The reading of a word with an error (R124). -/

/-- Of a core, `g` looks at nothing that the reading of a word may change: errors, marks and their counts. -/
def IgnoresErrors {γ : Type} (g : Core → γ) : Prop :=
  ∀ (x : Core) (e : SMap Nat) (p : SMap Bool) (ws : List Nat) (n m : BitVec 16),
    g { x with err := e, poison := p, badWords := ws
               regs := { x.regs with eccCorr := n, eccUncorr := m } } = g x

section
variable (s : State) (c w : Nat)

theorem State.senseWord_unchanged {γ : Type} {g : Core → γ} (hg : IgnoresErrors g) :
    g ((s.senseWord c w).core c) = g (s.core c) := by
  unfold State.senseWord
  split
  · simp only [State.updCore_core, if_true]
    exact hg (s.core c) _ _ _ _ _
  · simp only [State.event, State.record_core, State.updCore_core, if_true]
    exact hg (s.core c) _ _ _ _ _
  · rfl

theorem State.senseWord_core_other {k : Nat} (hk : k ≠ c) : (s.senseWord c w).core k = s.core k := by
  unfold State.senseWord
  split <;> simp [State.event, hk]

theorem State.senseWord_parts : (s.senseWord c w).parts = s.parts := by
  unfold State.senseWord
  split <;> simp [State.event]

theorem State.senseWord_mem : (s.senseWord c w).mem = s.mem := by
  unfold State.senseWord
  split <;> simp [State.event]

end

theorem scrByte_ignoresErrors (a : Nat) : IgnoresErrors fun x => scrByte x a := fun _ _ _ _ _ _ => rfl

/-- What each step of a fold leaves alone, the fold leaves alone. -/
theorem foldl_unchanged {α β γ : Type} (g : β → γ) {f : β → α → β} (hf : ∀ y x, g (f y x) = g y)
    (xs : List α) (y : β) : g (xs.foldl f y) = g y := by
  induction xs generalizing y with
  | nil => rfl
  | cons x xs ih => rw [List.foldl_cons, ih, hf]

/-! A run of bytes. -/

/-- One byte of a run: a poisoned word takes none, and a byte that another unit has not finished writing is
undefined (R124, R139). -/
def storeByte (fw : List (Nat × Nat)) (fr : Nat) (a : Core × Nat) (b : Byte) : Core × Nat :=
  (if scrPoisoned a.1 (a.2 / 8) then a.1
   else scrPut a.1 a.2 (if fw.any (inRange · a.2) then Config.freeByte fr a.2 else b), a.2 + 1)

/-- The words that a run covers whole. -/
def wholeWords (r : Nat × List Byte) : List Nat :=
  (wordsOf r.1 r.2.length).filter fun w => decide (r.1 ≤ 8 * w ∧ 8 * w + 8 ≤ r.1 + r.2.length)

/-- The words that a run covers in part. -/
def partWords (r : Nat × List Byte) : List Nat :=
  (wordsOf r.1 r.2.length).filter fun w => !(decide (r.1 ≤ 8 * w ∧ 8 * w + 8 ≤ r.1 + r.2.length))

/-- A write of a whole word clears its mark and its error. -/
def clearWords (ws : List Nat) (x : Core) : Core :=
  { x with poison := ws.foldl (fun m w => SMap.set false m w false) x.poison
           err := ws.foldl (fun m w => SMap.set 0 m w 0) x.err }

def storeRun (fw : List (Nat × Nat)) (fr : Nat) (x : Core) (r : Nat × List Byte) : Core :=
  (r.2.foldl (storeByte fw fr) (clearWords (wholeWords r) x, r.1)).1

/-- A store that no uncompleted reader meets: the words that it covers in part are read, then the runs are
written. -/
theorem State.scrStore_unread {s : State} {c unit me : Nat} {runs : List (Nat × List Byte)}
    (h : s.readersOf c unit (runs.map fun r => (r.1, r.2.length)) = []) :
    let sensed := ((runs.flatMap partWords).foldl (fun s w => s.senseWord c w) s).tickFree
    s.scrStore c unit runs me =
      (sensed.updCore c fun x => runs.foldl (storeRun (s.foreignWrites c unit me) sensed.free) x).tickFree := by
  unfold State.scrStore
  dsimp only
  rw [h]
  rfl

section
variable {fw : List (Nat × Nat)} {fr : Nat}

/-- A byte outside the run is kept. -/
theorem scrByte_storeBytes_outside {j : Nat} (bs : List Byte) (x : Core) (a : Nat)
    (h : j < a ∨ a + bs.length ≤ j) : scrByte (bs.foldl (storeByte fw fr) (x, a)).1 j = scrByte x j := by
  induction bs generalizing x a with
  | nil => rfl
  | cons b bs ih =>
    rw [List.length_cons] at h
    rw [List.foldl_cons, storeByte, ih _ _ (by omega)]
    dsimp only
    split
    · rfl
    · rw [scrByte_scrPut, if_neg (by omega)]

/-- In words without a mark, where no other unit writes, the run holds what was stored. -/
theorem scrByte_storeBytes_inside (bs : List Byte) (x : Core) (a : Nat)
    (hp : ∀ i, i < bs.length → scrPoisoned x ((a + i) / 8) = false)
    (hf : ∀ i, i < bs.length → (fw.any (inRange · (a + i))) = false) (i : Nat) (hi : i < bs.length) :
    scrByte (bs.foldl (storeByte fw fr) (x, a)).1 (a + i) = bs.getD i 0 := by
  induction bs generalizing x a i with
  | nil => exact absurd hi (Nat.not_lt_zero i)
  | cons b bs ih =>
    have hstep : storeByte fw fr (x, a) b = (scrPut x a b, a + 1) := by
      have h0 := hp 0 (Nat.zero_lt_succ _)
      have h1 := hf 0 (Nat.zero_lt_succ _)
      rw [Nat.add_zero] at h0 h1
      simp [storeByte, h0, h1]
    rw [List.foldl_cons, hstep]
    cases i with
    | zero =>
      rw [scrByte_storeBytes_outside _ _ _ (by omega), scrByte_scrPut, Nat.add_zero, if_pos rfl]
      rfl
    | succ i =>
      rw [List.length_cons] at hi hp hf
      have hshift (j : Nat) : a + (j + 1) = a + 1 + j := by omega
      rw [hshift i]
      refine ih (scrPut x a b) (a + 1) (fun j hj => ?_) (fun j hj => ?_) i (by omega)
      · rw [← hshift]
        exact hp (j + 1) (by omega)
      · rw [← hshift]
        exact hf (j + 1) (by omega)

theorem scrByte_storeRun_outside {x : Core} {r : Nat × List Byte} {j : Nat}
    (h : j < r.1 ∨ r.1 + r.2.length ≤ j) : scrByte (storeRun fw fr x r) j = scrByte x j := by
  rw [storeRun, scrByte_storeBytes_outside _ _ _ h]
  rfl

theorem scrByte_storeRuns_outside {j : Nat} (runs : List (Nat × List Byte)) (x : Core)
    (h : ∀ r ∈ runs, j < r.1 ∨ r.1 + r.2.length ≤ j) :
    scrByte (runs.foldl (storeRun fw fr) x) j = scrByte x j := by
  induction runs generalizing x with
  | nil => rfl
  | cons r runs ih =>
    rw [List.foldl_cons, ih _ fun q hq => h q (List.mem_cons_of_mem _ hq),
      scrByte_storeRun_outside (h r List.mem_cons_self)]

/-- What looks neither at the bytes nor at the marks is the same after a run. -/
theorem storeRun_unchanged {γ : Type} {g : Core → γ} (hm : ∀ x m, g { x with scratch := m } = g x)
    (hg : IgnoresErrors g) (x : Core) (r : Nat × List Byte) : g (storeRun fw fr x r) = g x := by
  have hstep (y : Core × Nat) (b : Byte) : g (storeByte fw fr y b).1 = g y.1 := by
    unfold storeByte
    dsimp only
    split
    · rfl
    · exact hm _ _
  exact (foldl_unchanged (fun y : Core × Nat => g y.1) hstep r.2 _).trans (hg x _ _ _ _ _)

theorem scrPoisoned_clearWords {x : Core} {k : Nat} (ws : List Nat) (h : scrPoisoned x k = false) :
    scrPoisoned (clearWords ws x) k = false := by
  unfold scrPoisoned clearWords at *
  dsimp only
  generalize x.poison = m at h ⊢
  induction ws generalizing m with
  | nil => exact h
  | cons w ws ih => exact ih _ (by rw [SMap.get_set]; split <;> simp [h])

end

/-! The store as a whole. -/

section
variable {s : State} {c unit me : Nat} {runs : List (Nat × List Byte)}
  (h : s.readersOf c unit (runs.map fun r => (r.1, r.2.length)) = [])
include h

theorem State.scrStore_core_other {k : Nat} (hk : k ≠ c) : (s.scrStore c unit runs me).core k = s.core k := by
  rw [State.scrStore_unread h]
  simpa [hk] using foldl_unchanged (fun t : State => t.core k) (fun t w => t.senseWord_core_other c w hk) _ s

theorem State.scrStore_parts : (s.scrStore c unit runs me).parts = s.parts := by
  rw [State.scrStore_unread h]
  exact foldl_unchanged State.parts (fun t w => t.senseWord_parts c w) _ s

theorem State.scrStore_mem : (s.scrStore c unit runs me).mem = s.mem := by
  rw [State.scrStore_unread h]
  exact foldl_unchanged State.mem (fun t w => t.senseWord_mem c w) _ s

/-- The core of the store: the words covered in part are read, then the runs are written. -/
theorem State.scrStore_core : ∃ fr, (s.scrStore c unit runs me).core c =
    runs.foldl (storeRun (s.foreignWrites c unit me) fr)
      (((runs.flatMap partWords).foldl (fun s w => s.senseWord c w) s).core c) := by
  rw [State.scrStore_unread h]
  exact ⟨_, by simp only [State.tickFree_core, State.updCore_core, if_true]; rfl⟩

/-- What looks at none of the bytes, the marks and the error counts is the same after a store. -/
theorem State.scrStore_unchanged {γ : Type} (g : Core → γ) (hm : ∀ x m, g { x with scratch := m } = g x)
    (hg : IgnoresErrors g) : g ((s.scrStore c unit runs me).core c) = g (s.core c) := by
  obtain ⟨fr, hcore⟩ := State.scrStore_core (me := me) h
  rw [hcore, foldl_unchanged g (storeRun_unchanged hm hg)]
  exact foldl_unchanged (fun t : State => g (t.core c)) (fun t w => t.senseWord_unchanged c w hg) _ s

theorem State.scrStore_outside {a : Nat} (ha : ∀ r ∈ runs, a < r.1 ∨ r.1 + r.2.length ≤ a) :
    scrByte ((s.scrStore c unit runs me).core c) a = scrByte (s.core c) a := by
  obtain ⟨fr, hcore⟩ := State.scrStore_core (me := me) h
  rw [hcore, scrByte_storeRuns_outside _ _ ha]
  exact foldl_unchanged (fun t : State => scrByte (t.core c) a)
    (fun t w => t.senseWord_unchanged c w (scrByte_ignoresErrors a)) _ s

end

/-- A run alone, its words clean and written by no other unit: it holds what was stored. -/
theorem State.scrStore_inside {s : State} {c unit me a : Nat} {bs : List Byte}
    (h : s.readersOf c unit [(a, bs.length)] = [])
    (hclean : ∀ k ∈ wordsOf a bs.length,
      SMap.get 0 (s.core c).err k = 0 ∧ scrPoisoned (s.core c) k = false)
    (halone : ((s.foreignWrites c unit me).any fun w => meets w (a, bs.length)) = false)
    {i : Nat} (hi : i < bs.length) :
    scrByte ((s.scrStore c unit [(a, bs)] me).core c) (a + i) = bs.getD i 0 := by
  obtain ⟨fr, hcore⟩ := State.scrStore_core (me := me) (runs := [(a, bs)]) h
  have hsensed : ([(a, bs)].flatMap partWords).foldl (fun s w => s.senseWord c w) s = s :=
    senseRange_clean _ fun k hk => by
      simp only [List.flatMap_cons, List.flatMap_nil, List.append_nil, partWords, List.mem_filter] at hk
      exact (hclean k hk.1).1
  rw [hcore, hsensed]
  refine scrByte_storeBytes_inside bs _ a (fun j hj => ?_) (fun j hj => ?_) i hi
  case refine_1 =>
    exact scrPoisoned_clearWords _ (hclean _ (mem_wordsOf.2 ⟨by omega, by omega, by omega⟩)).2
  case refine_2 =>
    simp only [List.any_eq_false] at halone ⊢
    intro r hr hin
    simp only [inRange, decide_eq_true_eq] at hin
    exact halone r hr (by simp only [meets, decide_eq_true_eq]; omega)

/-- Settles O6: the frame of a store, and the bytes of a run that nothing disturbs. -/
theorem scratchpadStoresFrame : Obligations.ScratchpadStoresFrame := by
  unfold Obligations.ScratchpadStoresFrame
  intro s c unit me runs h t
  refine ⟨fun k hk => State.scrStore_core_other h hk, fun a ha => State.scrStore_outside h ha, ?d, ?x, ?v,
    ?banks, ?pc, State.scrStore_parts h, State.scrStore_mem h, fun a bs hruns hclean halone i hi => ?holds⟩
  case d => exact State.scrStore_unchanged h Core.d (fun _ _ => rfl) fun _ _ _ _ _ _ => rfl
  case x => exact State.scrStore_unchanged h Core.x (fun _ _ => rfl) fun _ _ _ _ _ _ => rfl
  case v => exact State.scrStore_unchanged h Core.v (fun _ _ => rfl) fun _ _ _ _ _ _ => rfl
  case banks => exact State.scrStore_unchanged h Core.banks (fun _ _ => rfl) fun _ _ _ _ _ _ => rfl
  case pc => exact State.scrStore_unchanged h (fun x => x.regs.pc) (fun _ _ => rfl) fun _ _ _ _ _ _ => rfl
  case holds =>
    subst hruns
    exact State.scrStore_inside h hclean halone hi

end Sys2Proof.Machine
end

section
/-! SUPPORT. Every command as a whole (O3, O4): each meaning answers a next state, and what the laws say of
each meaning holds of the command that runs it. -/

namespace Sys2Proof.Machine

/-- Each meaning answers a next state as it is written; SUBMIT does so with its prompt held and without. -/
theorem exec_completes (c : Instr) (s : State) : ∃ t, exec c s = .next t := by
  cases c with
  | submit p =>
    simp only [exec, execSubmit]
    split
    · exact ⟨_, rfl⟩
    · exact ⟨_, rfl⟩
  | _ => exact ⟨_, rfl⟩

/-- Every command keeps what every command keeps: one law for each meaning. -/
theorem exec_kept {a s : State} (h : Kept a s) : ∀ c : Instr, AnsKept a (exec c s)
  | .kernel _ _ _ => execKernel_kept _ _ _ h
  | .copy _ _ _ => execCopy_kept _ _ _ h
  | .migrate _ _ _ => execMigrate_kept _ _ _ h
  | .fill _ _ _ => execFill_kept _ _ _ h
  | .scrub _ _ _ => execScrub_kept _ _ _ h
  | .attend _ _ _ => execAttend_kept _ _ _ h
  | .sample _ _ _ => execSample_kept _ _ _ h
  | .verifyHeads _ _ _ => execVerifyHeads_kept _ _ _ h
  | .update _ _ _ => execUpdate_kept _ _ _ h
  | .soundRead _ _ _ => execSoundRead_kept _ _ _ h
  | .allReduce _ _ _ => execAllReduce_kept _ _ _ h
  | .reduceScatter _ _ _ => execReduceScatter_kept _ _ _ h
  | .allGather _ _ _ => execAllGather_kept _ _ _ h
  | .reduce _ _ _ => execReduce_kept _ _ _ h
  | .broadcast _ _ _ => execBroadcast_kept _ _ _ h
  | .allToAll _ _ _ => execAllToAll_kept _ _ _ h
  | .form _ _ _ => execForm_kept _ _ _ h
  | .reform _ _ _ => execReform_kept _ _ _ h
  | .dissolve _ _ _ => execDissolve_kept _ _ _ h
  | .loomMove _ _ _ => execLoomMove_kept _ _ _ h
  | .load _ _ _ => execLoad_kept _ _ _ h
  | .adopt _ _ _ => execAdopt_kept _ _ _ h
  | .retire _ _ _ => execRetire_kept _ _ _ h
  | .fence _ _ _ => execFence_kept _ _ _ h
  | .signalAdd _ _ _ => execSignalAdd_kept _ _ _ h
  | .signalSet _ _ _ => execSignalSet_kept _ _ _ h
  | .wait _ _ _ => execWait_kept _ _ _ h
  | .mark _ _ _ => execMark_kept _ _ _ h
  | .abortCommand _ _ _ => execAbortCommand_kept _ _ _ h
  | .abortQueue _ _ _ => execAbortQueue_kept _ _ _ h
  | .abortCluster _ _ _ => execAbortCluster_kept _ _ _ h
  | .abortPartition _ _ _ => execAbortPartition_kept _ _ _ h
  | .nop _ _ _ => execNop_kept _ _ _ h
  | .descriptorFetch _ _ => execDescriptorFetch_kept _ _ h
  | .commandDispatch _ => execCommandDispatch_kept _ h
  | .commandComplete _ _ _ => execCommandComplete_kept _ _ _ h
  | .queueDoorbell _ _ _ _ => execQueueDoorbell_kept _ _ _ _ h
  | .queueEnable _ _ _ _ => execQueueEnable_kept _ _ _ _ h
  | .queueDisable _ _ _ _ => execQueueDisable_kept _ _ _ _ h
  | .parQStop _ _ _ _ => execParQStop_kept _ _ _ _ h
  | .parQResume _ _ _ _ => execParQResume_kept _ _ _ _ h
  | .queueHeadWrite _ _ _ _ => execQueueHeadWrite_kept _ _ _ _ h
  | .evcAdd _ _ _ => execEvcAdd_kept _ _ _ h
  | .xltRootWrite _ _ _ _ => execXltRootWrite_kept _ _ _ _ h
  | .xltInvalidate _ _ _ => execXltInvalidate_kept _ _ _ h
  | .invalidationDone _ => execInvalidationDone_kept _ h
  | .migrationCopyDone _ _ _ => execMigrationCopyDone_kept _ _ _ h
  | .pilotEnable _ _ _ => execPilotEnable_kept _ _ _ h
  | .pilotDisable _ _ _ => execPilotDisable_kept _ _ _ h
  | .pilotOccurrence _ => execPilotOccurrence_kept _ h
  | .pilotStageDone _ _ => execPilotStageDone_kept _ _ h
  | .patrolScrub _ _ _ _ _ => execPatrolScrub_kept _ _ _ _ _ h
  | .hostMemoryResponse _ _ _ _ _ => execHostMemoryResponse_kept _ _ _ _ _ h
  | .genEnable _ _ _ => execGenEnable_kept _ _ _ h
  | .genDisable _ _ _ => execGenDisable_kept _ _ _ h
  | .genPark _ _ _ => execGenPark_kept _ _ _ h
  | .genUnpark _ _ _ => execGenUnpark_kept _ _ _ h
  | .genReqDoorbell _ _ _ => execGenReqDoorbell_kept _ _ _ h
  | .submit _ => execSubmit_kept _ h
  | .cancel _ => execCancel_kept _ h
  | .pause _ => execPause_kept _ h
  | .resume _ => execResume_kept _ h
  | .genStepStart _ _ => execGenStepStart_kept _ _ h
  | .genStepCommit _ => execGenStepCommit_kept _ h
  | .pauseTimeout _ _ => execPauseTimeout_kept _ _ h
  | .sndEnable _ _ _ => execSndEnable_kept _ _ _ h
  | .soundingsRecord _ => execSoundingsRecord_kept _ h
  | .partitionEnable _ _ _ => execPartitionEnable_kept _ _ _ h
  | .partitionTeardown _ _ _ => execPartitionTeardown_kept _ _ _ h
  | .coreReset _ _ => execCoreReset_kept _ _ h
  | .clusterReset _ _ => execClusterReset_kept _ _ h
  | .partitionReset _ _ _ => execPartitionReset_kept _ _ _ h
  | .moduleReset _ => execModuleReset_kept _ h
  | .secTurn => execSecTurn_kept h
  | .partitionReport _ _ => execPartitionReport_kept _ _ h
  | .moduleReport _ => execModuleReport_kept _ h
  | .secRevoke0 _ => execSecRevoke0_kept _ h
  | .secSvnMinWrite _ _ => execSecSvnMinWrite_kept _ _ h
  | .powerGood => execPowerGood_kept h
  | .s1 _ _ => execS1_kept _ _ h
  | .s2 => execS2_kept h
  | .s3 _ _ => execS3_kept _ _ h
  | .s4 _ _ => execS4_kept _ _ h
  | .s5 _ => execS5_kept _ h
  | .s6 _ => execS6_kept _ h
  | .s7 _ => execS7_kept _ h
  | .s8 _ => execS8_kept _ h
  | .s9 => execS9_kept h
  | .s10 => execS10_kept h
  | .buStepDone => execBuStepDone_kept h
  | .mgmtOffer _ _ _ => execMgmtOffer_kept _ _ _ h
  | .descriptorFallbackTimeout => execDescriptorFallbackTimeout_kept h
  | .prsLoWrite _ _ _ => execPrsLoWrite_kept _ _ _ h
  | .prsHiWrite _ _ _ => execPrsHiWrite_kept _ _ _ h
  | .prsRemapGo _ => execPrsRemapGo_kept _ h
  | .logClr _ => execLogClr_kept _ h
  | .logPclear _ => execLogPclear_kept _ h
  | .persistentRingWrite => execPersistentRingWrite_kept h
  | .pdropBucketRefill => execPdropBucketRefill_kept h
  | .logRingFail => execLogRingFail_kept h
  | .optimeCommit _ => execOptimeCommit_kept _ h
  | .i3cAddressWrite _ => execI3cAddressWrite_kept _ h
  | .i3cRead _ => execI3cRead_kept _ h
  | .i3cSetdasa _ => execI3cSetdasa_kept _ h
  | .i3cEntdaa _ => execI3cEntdaa_kept _ h
  | .i3cEnec => execI3cEnec_kept h
  | .mgmtVioAppear => execMgmtVioAppear_kept h
  | .inputSample _ _ => execInputSample_kept _ _ h
  | .inputLowTimeout => execInputLowTimeout_kept h
  | .inputRecoveryTimeout => execInputRecoveryTimeout_kept h
  | .clockRestoreTick => execClockRestoreTick_kept h
  | .brownoutTimeout => execBrownoutTimeout_kept h
  | .powerLoss => execPowerLoss_kept h
  | .phaseFault _ _ => execPhaseFault_kept _ _ h
  | .railFault _ _ => execRailFault_kept _ _ h
  | .localDroop _ => execLocalDroop_kept _ h
  | .localDroopRelease _ => execLocalDroopRelease_kept _ h
  | .powerWindow _ => execPowerWindow_kept _ h
  | .stretchStepTick => execStretchStepTick_kept h
  | .thermalSample _ _ => execThermalSample_kept _ _ h
  | .clusterIdleTimeout _ => execClusterIdleTimeout_kept _ h
  | .memoryIdleTimeout _ => execMemoryIdleTimeout_kept _ h
  | .wakeRequest _ => execWakeRequest_kept _ h
  | .wakeSlot _ => execWakeSlot_kept _ h
  | .mgmtWatchdog => execMgmtWatchdog_kept h
  | .helmHeartbeatTimeout _ => execHelmHeartbeatTimeout_kept _ h
  | .coreHwFault _ => execCoreHwFault_kept _ h
  | .bridgeFail _ => execBridgeFail_kept _ h
  | .secEngineFail => execSecEngineFail_kept h
  | .unitFail _ => execUnitFail_kept _ h
  | .cableUnmate _ => execCableUnmate_kept _ h
  | .dataPacket _ _ _ _ => execDataPacket_kept _ _ _ _ h
  | .ackNack _ _ _ => execAckNack_kept _ _ _ h
  | .ackTimeout _ => execAckTimeout_kept _ h
  | .linkRetrainDone _ _ _ _ => execLinkRetrainDone_kept _ _ _ _ h
  | .laneFecWindow _ _ _ _ => execLaneFecWindow_kept _ _ _ _ h
  | .linkStateExchange _ _ => execLinkStateExchange_kept _ _ h
  | .linkControl _ _ _ => execLinkControl_kept _ _ _ h
  | .plDisable _ _ _ => execPlDisable_kept _ _ _ h
  | .plRetrain _ _ => execPlRetrain_kept _ _ h
  | .plQclr _ _ => execPlQclr_kept _ _ h
  | .ulDisable _ _ _ => execUlDisable_kept _ _ _ h
  | .ulRetrain _ _ => execUlRetrain_kept _ _ h
  | .ulQclr _ _ => execUlQclr_kept _ _ h
  | .collectiveAdmit _ => execCollectiveAdmit_kept _ h
  | .collectiveHeader _ _ _ _ => execCollectiveHeader_kept _ _ _ _ h
  | .exponentBatch _ _ _ _ _ => execExponentBatch_kept _ _ _ _ _ h
  | .collectiveChunk _ _ _ _ _ => execCollectiveChunk_kept _ _ _ _ _ h
  | .collectiveStallTimeout _ _ _ => execCollectiveStallTimeout_kept _ _ _ h
  | .headerTimeout _ _ _ => execHeaderTimeout_kept _ _ _ h
  | .abandon _ _ _ _ => execAbandon_kept _ _ _ _ h
  | .leave _ _ => execLeave_kept _ _ h
  | .listHash _ _ _ => execListHash_kept _ _ _ h
  | .groupFormTimeout _ _ _ => execGroupFormTimeout_kept _ _ _ h
  | .keepAlive _ _ _ _ => execKeepAlive_kept _ _ _ _ h
  | .loadChunk _ _ _ _ _ _ _ => execLoadChunk_kept _ _ _ _ _ _ _ h
  | .loadEnd _ _ _ => execLoadEnd_kept _ _ _ h
  | .loadRerequest _ _ _ _ _ => execLoadRerequest_kept _ _ _ _ _ h
  | .loadDeadline _ _ _ => execLoadDeadline_kept _ _ _ h
  | .loadFail _ _ _ _ _ _ => execLoadFail_kept _ _ _ _ _ _ h
  | .loadSuccess _ _ _ _ => execLoadSuccess_kept _ _ _ _ h
  | .recoveryFetch _ _ _ _ _ => execRecoveryFetch_kept _ _ _ _ _ h
  | .recoveryAnswer _ _ _ _ _ => execRecoveryAnswer_kept _ _ _ _ _ h
  | .replicaTimeout _ _ _ _ => execReplicaTimeout_kept _ _ _ _ h
  | .recoveryTimeout _ _ _ _ => execRecoveryTimeout_kept _ _ _ _ h
  | .coreNop _ _ => execCoreNop_kept _ _ h
  | .coreEnd _ _ => execCoreEnd_kept _ _ h
  | .jmp _ _ => execJmp_kept _ _ h
  | .br _ _ => execBr_kept _ _ h
  | .loop _ _ => execLoop_kept _ _ h
  | .li _ _ => execLi_kept _ _ h
  | .lih _ _ => execLih_kept _ _ h
  | .alu _ _ => execAlu_kept _ _ h
  | .alui _ _ => execAlui_kept _ _ h
  | .sys _ _ => execSys_kept _ _ h
  | .arg _ _ => execArg_kept _ _ h
  | .dmain _ _ => execDmain_kept _ _ h
  | .dmaout _ _ => execDmaout_kept _ _ h
  | .dmapeer _ _ => execDmapeer_kept _ _ h
  | .dmawait _ _ => execDmawait_kept _ _ h
  | .dmaComplete _ => execDmaComplete_kept _ h
  | .tld _ _ => execTld_kept _ _ h
  | .tst _ _ => execTst_kept _ _ h
  | .sld _ _ => execSld_kept _ _ h
  | .sst _ _ => execSst_kept _ _ h
  | .amm _ _ => execAmm_kept _ _ h
  | .afdset _ _ => execAfdset_kept _ _ h
  | .adrain _ _ => execAdrain_kept _ _ h
  | .vadd _ _ => execVadd_kept _ _ h
  | .vsub _ _ => execVsub_kept _ _ h
  | .vmul _ _ => execVmul_kept _ _ h
  | .vfma _ _ => execVfma_kept _ _ h
  | .vmin _ _ => execVmin_kept _ _ h
  | .vmax _ _ => execVmax_kept _ _ h
  | .vcmp _ _ => execVcmp_kept _ _ h
  | .vsel _ _ => execVsel_kept _ _ h
  | .vmov _ _ => execVmov_kept _ _ h
  | .vexp2 _ _ => execVexp2_kept _ _ h
  | .vlog2 _ _ => execVlog2_kept _ _ h
  | .vrsqrt _ _ => execVrsqrt_kept _ _ h
  | .vrcp _ _ => execVrcp_kept _ _ h
  | .vtanh _ _ => execVtanh_kept _ _ h
  | .vsig _ _ => execVsig_kept _ _ h
  | .vgelu _ _ => execVgelu_kept _ _ h
  | .rsum _ _ => execRsum_kept _ _ h
  | .rmax _ _ => execRmax_kept _ _ h
  | .rmin _ _ => execRmin_kept _ _ h
  | .badd _ _ => execBadd_kept _ _ h
  | .bsub _ _ => execBsub_kept _ _ h
  | .bmul _ _ => execBmul_kept _ _ h
  | .bmax _ _ => execBmax_kept _ _ h
  | .bmin _ _ => execBmin_kept _ _ h
  | .vld _ _ => execVld_kept _ _ h
  | .vst _ _ => execVst_kept _ _ h
  | .vvop _ _ => execVvop_kept _ _ h
  | .vext _ _ => execVext_kept _ _ h
  | .vins _ _ => execVins_kept _ _ h
  | .cvst _ _ => execCvst_kept _ _ h
  | .cvld _ _ => execCvld_kept _ _ h
  | .cvt _ _ => execCvt_kept _ _ h
  | .cvctx _ _ => execCvctx_kept _ _ h
  | .stbind _ _ => execStbind_kept _ _ h
  | .stacc _ _ => execStacc_kept _ _ h
  | .stemit _ _ => execStemit_kept _ _ h
  | .stlp _ _ => execStlp_kept _ _ h
  | .coreFence _ _ => execCoreFence_kept _ _ h
  | .kbar _ _ => execKbar_kept _ _ h
  | .evinc _ _ => execEvinc_kept _ _ h
  | .evwait _ _ => execEvwait_kept _ _ h
  | .crpost _ _ => execCrpost_kept _ _ h
  | .crwait _ _ => execCrwait_kept _ _ h
  | .instructionComplete _ _ => execInstructionComplete_kept _ _ h
  | .coreCyclesRead _ _ => execCoreCyclesRead_kept _ _ h
  | .evcValRead _ _ => execEvcValRead_kept _ _ h
  | .genStepRead _ _ => execGenStepRead_kept _ _ h
  | .colLastRead _ _ => execColLastRead_kept _ _ h
  | .loomBytesRead _ _ => execLoomBytesRead_kept _ _ h
  | .secLeafRead _ => execSecLeafRead_kept _ h
  | .logValueRead _ _ => execLogValueRead_kept _ _ h
  | .reservedAddressAccess _ _ _ => execReservedAddressAccess_kept _ _ _ h
  | .registerWrite _ _ _ => execRegisterWrite_kept _ _ _ h
  | .partnerLinkTraining _ => execPartnerLinkTraining_kept _ h
  | .resetEnd _ _ => execResetEnd_kept _ _ h
  | .mgmtVioLoss => execMgmtVioLoss_kept h
  | .alwaysOnRailUp => execAlwaysOnRailUp_kept h

/-- Settles O3: each meaning answers a next state, and keeps. -/
theorem everyCommandCompletes : Obligations.EveryCommandCompletes := by
  unfold Obligations.EveryCommandCompletes
  intro c s
  obtain ⟨t, ht⟩ := exec_completes c s
  have hkept : AnsKept s (exec c s) := exec_kept (Kept.refl s) c
  rw [ht] at hkept
  exact ⟨t, ht, hkept⟩

/-- An idle step changes nothing (log entry 33). -/
theorem step_empty {s : State} (h : s.pending = []) : step s = .next s := by
  rw [step, h]

/-- A step runs the front of the queue on the state with the rest of it. -/
theorem step_cons {s : State} {c : Instr} {cs : List Instr} (h : s.pending = c :: cs) :
    step s = exec c (s.withQueue cs) := by
  rw [step, h]

/-- Settles O4: the step's command keeps, and it runs with the rest of the queue. -/
theorem stepKeepsMemoriesCanonical : Obligations.StepKeepsMemoriesCanonical := by
  unfold Obligations.StepKeepsMemoriesCanonical
  intro s t hwf hstep
  cases hq : s.pending with
  | nil =>
    rw [step_empty hq] at hstep
    cases hstep
    exact ⟨hwf, by rw [hq, List.tail_nil], rfl, List.prefix_refl _⟩
  | cons c cs =>
    obtain ⟨u, hu, hkept⟩ := everyCommandCompletes c (s.withQueue cs)
    rw [step_cons hq, hu] at hstep
    cases hstep
    exact ⟨hkept.mem hwf, hkept.pending, hkept.board, hkept.out⟩

end Sys2Proof.Machine
end

section
/-! SUPPORT. The bytes of a tier (O5): what a write of bytes leaves of the lines, and that a run written under
the key that its lines hold is read back under it (R157 to R159, R199). -/

namespace Sys2Proof

/-- What a write of one byte leaves alone, a write of bytes leaves alone. -/
theorem TierMem.setBytes_unchanged {β : Type} (g : TierMem → β)
    (hg : ∀ m a b, g (TierMem.setByte m a b) = g m) (m : TierMem) (a : Nat) (bs : List Byte) :
    g (m.setBytes a bs) = g m := by
  unfold TierMem.setBytes
  exact Machine.foldl_unchanged (fun x : TierMem × Nat => g x.1) (fun x b => hg x.1 x.2 b) bs (m, a)

@[simp] theorem TierMem.setBytes_lines (m : TierMem) (a : Nat) (bs : List Byte) :
    (m.setBytes a bs).lines = m.lines :=
  TierMem.setBytes_unchanged TierMem.lines (fun _ _ _ => rfl) m a bs

@[simp] theorem TierMem.setBytes_gone (m : TierMem) (a : Nat) (bs : List Byte) :
    (m.setBytes a bs).gone = m.gone :=
  TierMem.setBytes_unchanged TierMem.gone (fun _ _ _ => rfl) m a bs

@[simp] theorem TierMem.setBytes_line (m : TierMem) (a : Nat) (bs : List Byte) (l : Nat) :
    (m.setBytes a bs).line l = m.line l :=
  TierMem.setBytes_unchanged (·.line l) (fun _ _ _ => rfl) m a bs

/-- A line that is given a key holds it, and every other line keeps its own. -/
theorem TierMem.key_updLine {m : TierMem} {k l key : Nat} {f : LineInfo → LineInfo}
    (hf : (f (m.line k)).key = key) (hl : (m.line l).key = key) : ((m.updLine k f).line l).key = key := by
  have hline : (m.updLine k f).line l = if l = k then f (m.line k) else m.line l :=
    SMap.get_modify ..
  rw [hline]
  split_ifs
  · exact hf
  · exact hl

end Sys2Proof

namespace Sys2Proof.Machine

@[simp] theorem State.updTier_tier_same (s : State) (t : Tier) (f : TierMem → TierMem) :
    (s.updTier t f).tier t = f (s.tier t) := by
  cases t with
  | bd => rfl
  | lp => rfl
  | host => rfl

theorem State.updTier_tier_other {s : State} {t r : Tier} (h : r ≠ t) (f : TierMem → TierMem) :
    (s.updTier t f).tier r = s.tier r := by
  match t, r, h with
  | .bd, .bd, h | .lp, .lp, h | .host, .host, h => exact absurd rfl h
  | .bd, .lp, _ | .bd, .host, _ | .lp, .bd, _ | .lp, .host, _ | .host, .bd, _ | .host, .lp, _ => rfl

/-- `u` is `s` with `bs` at `a` of a tier: the bytes there are the run's, lines under `key` stay under it, and
no granule and no other tier is touched. -/
structure RunWritten (t : Tier) (key a : Nat) (bs : List Byte) (s u : State) : Prop where
  byte : ∀ x, (u.tier t).byte x =
    if a ≤ x ∧ x < a + bs.length then bs.getD (x - a) 0 else (s.tier t).byte x
  key : ∀ l, ((s.tier t).line l).key = key → ((u.tier t).line l).key = key
  gone : (u.tier t).gone = (s.tier t).gone
  other : ∀ r, r ≠ t → u.tier r = s.tier r

theorem RunWritten.nil (t : Tier) (key a : Nat) (s : State) : RunWritten t key a [] s s where
  byte x := by rw [if_neg (by simp)]
  key _ h := h
  gone := rfl
  other _ _ := rfl

/-- A run and the run that follows it are one run. -/
theorem RunWritten.append {t : Tier} {key a b : Nat} {bs cs : List Byte} {s u v : State}
    (h : RunWritten t key a bs s u) (hb : b = a + bs.length) (k : RunWritten t key b cs u v) :
    RunWritten t key a (bs ++ cs) s v where
  byte x := by
    rw [k.byte, h.byte, hb, List.length_append]
    by_cases hfirst : a ≤ x ∧ x < a + bs.length
    · rw [if_neg (by omega), if_pos hfirst, if_pos (by omega), List.getD_append _ _ _ _ (by omega)]
    · rw [if_neg hfirst]
      by_cases hsecond : a + bs.length ≤ x ∧ x < a + bs.length + cs.length
      · rw [if_pos hsecond, if_pos (by omega), List.getD_append_right _ _ _ _ (by omega), Nat.sub_sub]
      · rw [if_neg hsecond, if_neg (by omega)]
  key l hl := k.key l (h.key l hl)
  gone := k.gone.trans h.gone
  other r hr := (k.other r hr).trans (h.other r hr)

/-- Bytes written after a change of lines that leaves lines under `key` under it. -/
theorem State.updTier_runWritten {s : State} {t : Tier} {key a : Nat} {bs : List Byte}
    {f : TierMem → TierMem} (hbyte : ∀ m x, (f m).byte x = m.byte x) (hgone : ∀ m, (f m).gone = m.gone)
    (hkey : ∀ m l, (TierMem.line m l).key = key → ((f m).line l).key = key) :
    RunWritten t key a bs s (s.updTier t fun m => (f m).setBytes a bs) where
  byte x := by rw [State.updTier_tier_same, TierMem.byte_setBytes, hbyte]
  key l hl := by simpa using hkey _ l hl
  gone := by simp [hgone]
  other r hr := State.updTier_tier_other hr _

/-- A write within one line that holds the key: a whole line takes it anew, a part leaves the marks. -/
theorem State.rawWriteLine_runWritten {s : State} {t : Tier} {key a : Nat} (bs : List Byte)
    (hin : (s.tier t).withdrawn (a / 64) = false) (hkey : ((s.tier t).line (a / 64)).key = key) :
    RunWritten t key a bs s (s.rawWriteLine t key a bs) := by
  unfold State.rawWriteLine
  dsimp only
  rw [hin, if_neg (by decide)]
  split_ifs
  · exact State.updTier_runWritten (fun _ _ => rfl) (fun _ => rfl) fun _ _ => TierMem.key_updLine rfl
  · exact State.updTier_runWritten (f := id) (fun _ _ => rfl) (fun _ => rfl) fun _ _ h => h

/-- Every line of a run is in service and under the key. -/
def State.runHeld (s : State) (t : Tier) (key a n : Nat) : Prop :=
  ∀ i, i < n → (s.tier t).withdrawn ((a + i) / 64) = false ∧ ((s.tier t).line ((a + i) / 64)).key = key

/-- The pieces in order, each within its line, write the run. -/
theorem linePieces_runWritten {t : Tier} {key : Nat} {fuel a : Nat} {bs : List Byte} {s : State}
    (hfuel : bs.length ≠ 0 → a % 64 + bs.length ≤ 64 * fuel) (hheld : s.runHeld t key a bs.length) :
    RunWritten t key a bs s ((linePieces fuel a bs.length).foldl (fun (x : State × List Byte) pc =>
      (x.1.rawWriteLine t key pc.1 (x.2.take pc.2), x.2.drop pc.2)) (s, bs)).1 := by
  induction fuel generalizing a bs s with
  | zero =>
    obtain rfl : bs = [] := List.length_eq_zero_iff.1 (by omega)
    exact RunWritten.nil t key a s
  | succ fuel ih =>
    rw [linePieces]
    split_ifs with hn
    · obtain rfl := List.length_eq_zero_iff.1 hn
      exact RunWritten.nil t key a s
    · obtain ⟨k, hk⟩ : ∃ k, min bs.length (64 - a % 64) = k := ⟨_, rfl⟩
      rw [hk, List.foldl_cons]
      have htake : (bs.take k).length = k := by rw [List.length_take]; omega
      have hdrop : (bs.drop k).length = bs.length - k := List.length_drop
      obtain ⟨hin, hkey⟩ := hheld 0 (by omega)
      have hfirst := State.rawWriteLine_runWritten (bs.take k) hin hkey
      rw [Nat.add_zero] at hfirst
      have hrest : (s.rawWriteLine t key a (bs.take k)).runHeld t key (a + k) (bs.drop k).length := by
        intro i hi
        obtain ⟨hin, hkey⟩ := hheld (k + i) (by omega)
        rw [← Nat.add_assoc] at hin hkey
        exact ⟨by rw [TierMem.withdrawn, hfirst.gone]; exact hin, hfirst.key _ hkey⟩
      have hlast := ih (a := a + k) (by omega) hrest
      rw [hdrop] at hlast
      have hboth := hfirst.append (by omega) hlast
      rwa [List.take_append_drop] at hboth

/-- A run whose lines hold the key is written as it is. -/
theorem State.rawWrite_runWritten {s : State} {t : Tier} {key a : Nat} {bs : List Byte}
    (hheld : s.runHeld t key a bs.length) : RunWritten t key a bs s (s.rawWrite t key a bs) :=
  linePieces_runWritten (by omega) hheld

/-- Under the lines' own key a read answers the bytes that stand there. -/
theorem State.rawRead_held {s : State} {t : Tier} {key a n : Nat}
    (hkey : ∀ i, i < n → ((s.tier t).line ((a + i) / 64)).key = key) :
    s.rawRead t key a n = (List.range n).map fun i => (s.tier t).byte (a + i) :=
  List.map_congr_left fun i hi => if_pos (hkey i (List.mem_range.1 hi))

/-- A run that has been written is read back. -/
theorem RunWritten.rawRead {t : Tier} {key a : Nat} {bs : List Byte} {s u : State}
    (h : RunWritten t key a bs s u) (hheld : s.runHeld t key a bs.length) :
    u.rawRead t key a bs.length = bs := by
  rw [State.rawRead_held fun i hi => h.key _ (hheld i hi).2]
  refine List.ext_getElem (by simp) fun i hi hbs => ?_
  rw [List.getElem_map, List.getElem_range, h.byte, if_pos (by omega), Nat.add_sub_cancel_left,
    List.getD_eq_getElem _ _ hbs]

/-- Settles O5: a tier's bytes are a sparse map, and a run is written line by line. -/
theorem memoryReadAfterWrite : Obligations.MemoryReadAfterWrite := by
  unfold Obligations.MemoryReadAfterWrite
  refine ⟨fun m a bs => ?bytes, fun m n hm hn h => SMap.ext_of_get hm hn h, fun s t key a bs hheld => ?run⟩
  case bytes =>
    exact ⟨fun x => TierMem.byte_setBytes m a x bs, TierMem.setBytes_lines m a bs,
      TierMem.setBytes_gone m a bs, fun h => TierMem.setBytes_wf h a bs⟩
  case run =>
    have hwritten := State.rawWrite_runWritten (s := s) hheld
    exact ⟨hwritten.rawRead hheld, hwritten.byte, hwritten.other⟩

end Sys2Proof.Machine
end

section
/-! SUPPORT. The registers of translation and Pilot (O32): which register stands at each address, and what a
write of it does in an open partition (R171 to R173, R188, R189). -/

namespace Sys2Proof.Machine

section
variable {s : State} {a : Agent} {p : Fin 16}

/-- A write of an open partition's own register: any but the composition's, at its address. -/
theorem State.writeAddr_own {o : Nat} {r : ParReg} (hopen : s.parOpen p = true)
    (h : s.hasAccess a (parBase p + o) = true) (v : Word) (ho : o < 0x8000 := by decide)
    (h4 : o % 4 = 0 := by decide) (hr : parRegAt o = some r := by rfl)
    (hc : s.readComp p r = none := by rfl) (hctl : r ≠ .ctl := by nofun)
    (hclusters : r ≠ .clusters := by nofun) (hlpc : r ≠ .lpcCh := by nofun)
    (hbd : ∀ t, r ≠ .bd t := by nofun) :
    s.writeAddr a (parBase p + o) v = s.writeOwn a p v.toNat r := by
  rw [State.writeAddr_hasAccess (r := .par p r) h (by rw [regAt_par p ho h4, hr]; rfl)]
  exact State.writePar_parOpen hopen a v.toNat hc hctl hclusters hlpc hbd

/-! The root and the table region. -/

theorem exec_xltRootWrite_root (hopen : s.parOpen p = true) (h : s.hasAccess a (parBase p + 0x400) = true)
    (v : Word) : exec (.xltRootWrite a p 0 v) s =
      .next (s.writeXlt p fun x => { x with rootAddr := BitVec.ofNat 28 v.toNat, en := bit v.toNat 31 }) :=
  congrArg Host.Outcome.next (State.writeAddr_own (r := .xltRoot) hopen h v)

theorem exec_xltRootWrite_base (hopen : s.parOpen p = true) (h : s.hasAccess a (parBase p + 0x404) = true)
    (v : Word) : exec (.xltRootWrite a p 1 v) s =
      .next (s.writeXlt p fun x => { x with base := BitVec.ofNat 27 v.toNat }) :=
  congrArg Host.Outcome.next (State.writeAddr_own (r := .xltBase) hopen h v)

theorem exec_xltRootWrite_last (hopen : s.parOpen p = true) (h : s.hasAccess a (parBase p + 0x408) = true)
    (v : Word) : exec (.xltRootWrite a p 2 v) s =
      .next (s.writeXlt p fun x => { x with last := BitVec.ofNat 27 v.toNat }) :=
  congrArg Host.Outcome.next (State.writeAddr_own (r := .xltLast) hopen h v)

/-! Invalidations. -/

theorem exec_xltInvalidate (hopen : s.parOpen p = true) (h : s.hasAccess a (parBase p + 0x414) = true)
    (v : Word) : exec (.xltInvalidate a p v) s =
      .next (s.writeInv a p fun s => s.writeInvCtl a p (withBit v 31).toNat) :=
  congrArg Host.Outcome.next (State.writeAddr_own (r := .invCtl) hopen h (withBit v 31))

/-- The GO bit with a legal size starts the invalidation of the block that holds the address (R173). -/
theorem State.writeInvCtl_go {w : Nat} (hgo : bit w 31 = true) (hsize : 12 ≤ fld w 0 6 ∧ fld w 0 6 ≤ 56) :
    s.writeInvCtl a p w = (s.updInv p fun x => { x with invLog2 := BitVec.ofNat 6 w }).updInv p fun x =>
      { x with invBusy := true, runVa := x.invVa.toNat / 2 ^ x.invLog2.toNat * 2 ^ x.invLog2.toNat
               runLog2 := x.invLog2.toNat } := by
  rw [State.writeInvCtl, State.field_ok hsize, hgo]
  rfl

theorem bit_withBit {v : Word} {i : Nat} (hi : i < 32) : bit (withBit v i).toNat i = true := by
  rw [bit_eq_testBit, withBit_testBit]
  simp [hi]

theorem ofNat_withBit_high (v : Word) {i n : Nat} (h : n ≤ i) :
    BitVec.ofNat n (withBit v i).toNat = BitVec.ofNat n v.toNat := by
  apply BitVec.eq_of_toNat_eq
  have hfld := fld_withBit v i 0 n (Or.inr (by omega))
  rwa [fld_zero, fld_zero] at hfld

theorem exec_invalidationDone (h : (s.part p).xlt.invBusy = true) :
    exec (.invalidationDone p) s = .next (s.updPart p fun y => { y with
      xlt := { xltDrop (s.part p).xlt (s.part p).xlt.runVa (2 ^ (s.part p).xlt.runLog2) with
        invBusy := false } }) :=
  congrArg Host.Outcome.next (if_pos h)

/-! Pilot's enable. -/

/-- PAR_PLT_CTL's fields beside EN. -/
def State.setPltCtl (s : State) (p w : Nat) : State :=
  s.updPart p fun x => { x with plt := { x.plt with
    entries := BitVec.ofNat 12 (w / 2), ctr := BitVec.ofNat 12 (w / 2 ^ 13) } }

theorem bit_zero_odd (n : Nat) : bit (n / 2 * 2 + 1) 0 = true := by
  simp only [bit, fld, beq_iff_eq]; omega

theorem bit_zero_even (n : Nat) : bit (n / 2 * 2) 0 = false := by
  simp only [bit, fld, beq_eq_false_iff_ne]; omega

theorem exec_pilotEnable_writes (hopen : s.parOpen p = true) (h : s.hasAccess a (parBase p + 0x500) = true)
    (v : Word) : exec (.pilotEnable a p v) s = .next (s.writePltCtl p (v.toNat / 2 * 2 + 1)) := by
  rw [← withBit_zero]
  exact congrArg Host.Outcome.next (State.writeAddr_own (r := .pltCtl) hopen h (withBit v 0))

theorem exec_pilotDisable_writes (hopen : s.parOpen p = true) (h : s.hasAccess a (parBase p + 0x500) = true)
    (v : Word) : exec (.pilotDisable a p v) s = .next (s.writePltCtl p (v.toNat / 2 * 2)) := by
  rw [← noBit_zero]
  exact congrArg Host.Outcome.next (State.writeAddr_own (r := .pltCtl) hopen h (noBit v 0))

/-- EN set on a Pilot that is off switches it on. -/
theorem State.writePltCtl_on {w : Nat} (hen : (s.part p).plt.en = false) (hw : bit w 0 = true) :
    s.writePltCtl p w = (s.setPltCtl p w).pilotOn p := by
  rw [State.writePltCtl, hen, hw, if_neg (by decide), if_neg (by decide)]
  rfl

/-- EN clear on a Pilot that is on switches it off. -/
theorem State.writePltCtl_off {w : Nat} (hen : (s.part p).plt.en = true) (hw : bit w 0 = false) :
    s.writePltCtl p w = (s.setPltCtl p w).pilotOff p := by
  rw [State.writePltCtl, hen, hw, if_neg (by decide), if_pos rfl]
  rfl

end

section
variable {s t : State} {p : Nat} {x : Pilot} (hx : (s.part p).plt = x)
include hx

/-- A route table that is not in pinned memory is reason 1 (R189). -/
theorem State.pilotOn_unpinned
    (hpin : (s.touchTables p x.tableVa.toNat (32 * routeEntries x)).pinnedRange p x.tableVa.toNat
      (32 * routeEntries x) false = false) :
    s.pilotOn p = (s.touchTables p x.tableVa.toNat (32 * routeEntries x)).updPart p fun y =>
      { y with plt := { y.plt with en := false, err := 1 } } := by
  subst hx
  rw [State.pilotOn]
  dsimp only
  rw [hpin]
  rfl

/-- A table that is read and a region, both as they must be: Pilot runs, its counter latched (R188). -/
theorem State.pilotOn_runs {bs : List Byte}
    (hpin : (s.touchTables p x.tableVa.toNat (32 * routeEntries x)).pinnedRange p x.tableVa.toNat
      (32 * routeEntries x) false = true)
    (hread : (s.touchTables p x.tableVa.toNat (32 * routeEntries x)).peek p x.tableVa.toNat
      (32 * routeEntries x) = (t, some bs))
    (hregion : regionOk (t.part p) = true)
    (hroute : ((List.range (routeEntries x)).map fun i => (bs.drop (32 * i)).take 32).any
      (routeBad x.period.toNat) = false) :
    s.pilotOn p = t.updPart p fun y => { y with plt := { y.plt with
      en := true, run := true, err := 0, c0 := t.evc p x.ctr.toNat
      route := ((List.range (routeEntries x)).map fun i => (bs.drop (32 * i)).take 32).map routeOf
      nextK := [], active := [], staged := [], ringPos := 0 } } := by
  subst hx
  rw [State.pilotOn]
  dsimp only
  rw [hpin, hread]
  dsimp only
  rw [hregion, hroute]
  rfl

end

/-- Settles O32: each row writes the register at its address, and Pilot's enable makes its checks. -/
theorem translationAndPilotRegisters : Obligations.TranslationAndPilotRegisters := by
  unfold Obligations.TranslationAndPilotRegisters
  refine And.intro ?translation ?pilot
  case translation =>
    intro a p v s hopen write x
    refine ⟨?root, fun h => exec_xltRootWrite_base hopen h v, fun h => exec_xltRootWrite_last hopen h v,
      fun h => ⟨?busy, ?go⟩, exec_invalidationDone⟩
    case root =>
      intro h
      rw [exec_xltRootWrite_root hopen h, bit_eq_testBit]
      rfl
    case busy =>
      intro hbusy
      rw [exec_xltInvalidate hopen h, State.writeInv, if_pos hbusy]
    case go =>
      intro hidle hlo hhi
      have hsize : fld (withBit v 31).toNat 0 6 = v.toNat % 64 :=
        (fld_withBit v 31 0 6 (by omega)).trans (fld_zero _ _)
      rw [exec_xltInvalidate hopen h, State.writeInv, if_neg (Bool.eq_false_iff.1 hidle),
        State.writeInvCtl_go (bit_withBit (by decide)) (by rw [hsize]; exact ⟨hlo, hhi⟩),
        ofNat_withBit_high v (by decide)]
      rfl
  case pilot =>
    intro a p v s hopen h set x bytes on
    refine ⟨fun hen => ?enable, fun hen => ?disable⟩
    case enable =>
      rw [exec_pilotEnable_writes hopen h, State.writePltCtl_on hen (bit_zero_odd _)]
      exact ⟨fun hpin => congrArg Host.Outcome.next (State.pilotOn_unpinned rfl hpin),
        fun t bs hpin hread hregion hroute =>
          congrArg Host.Outcome.next (State.pilotOn_runs rfl hpin hread hregion hroute)⟩
    case disable =>
      rw [exec_pilotDisable_writes hopen h, State.writePltCtl_off hen (bit_zero_even _)]
      rfl

end Sys2Proof.Machine
end

section
/-! SUPPORT. MIGRATE (O41): its checks in their order, the marking of the first page, and the end of a page's
copy (R174 to R178). -/

namespace Sys2Proof.Machine

theorem exec_migrate {p : Fin 16} {q : Fin 64} {slot : BitVec 16} {s : State} {c : Cmd}
    (h : s.rowCmd p q slot.toNat (fun c => isMigrate c && c.prog == .none) = some c) :
    exec (.migrate p q slot) s = .next (s.startMigrate p c) :=
  State.onCmd_rowCmd h _

/-- The copy of a marked page ends. -/
theorem exec_migrationCopyDone {p : Fin 16} {q : Fin 64} {slot : BitVec 16} {s : State} {c : Cmd}
    {m : MigPage} {todo : List MigPage} {moved : Nat} {e : BitVec 64}
    (h : s.rowCmd p q slot.toNat isMigrate = some c) (hprog : c.prog = .migrate (m :: todo) moved (some e)) :
    exec (.migrationCopyDone p q slot) s = .next (s.migratePage p c m todo moved e.toNat) := by
  refine (State.onCmd_rowCmd h _).trans ?_
  rw [hprog]

section
variable {s : State} {p : Nat} {c : Cmd} {gs : List PageRef}
  (hpages : (s.touchTables p (cSrc c) (cLen c)).pages p (cSrc c) (cLen c) = .ok gs)
include hpages

/-- The first pinned page ends the command (R178). -/
theorem State.startMigrate_pinned {g : PageRef} (hpin : (gs.find? fun g => leafPin g.leaf) = some g) :
    s.startMigrate p c =
      (s.touchTables p (cSrc c) (cLen c)).finish p c (endWith stProtection 0 g.va true) := by
  simp only [State.startMigrate, hpages, hpin]

variable (hpin : (gs.find? fun g => leafPin g.leaf) = none)
include hpin

/-- So does the first poisoned one. -/
theorem State.startMigrate_poisoned {g : PageRef} (hpsn : (gs.find? fun g => leafPsn g.leaf) = some g) :
    s.startMigrate p c = (s.touchTables p (cSrc c) (cLen c)).finish p c (endWith stPoison 0 g.va true) := by
  simp only [State.startMigrate, hpages, hpin, hpsn]

variable (hpsn : (gs.find? fun g => leafPsn g.leaf) = none)
include hpsn

/-- A destination too small for the pages ends it too. -/
theorem State.startMigrate_noRoom (hplace : placeGo gs (mDstFrame c) (mDstFrame c + mDstLen c) = none) :
    s.startMigrate p c = (s.touchTables p (cSrc c) (cLen c)).finish p c (endWith stNoPages 0 0 true) := by
  simp only [State.startMigrate, hpages, hpin, hpsn, hplace]

/-- Pages that all have a place are taken in order. -/
theorem State.startMigrate_placed {ms : List MigPage}
    (hplace : placeGo gs (mDstFrame c) (mDstFrame c + mDstLen c) = some ms) :
    s.startMigrate p c = (s.touchTables p (cSrc c) (cLen c)).migrateNext p c ms 0 := by
  simp only [State.startMigrate, hpages, hpin, hpsn, hplace]

end

section
variable {s : State} {p : Nat} {c : Cmd} {m : MigPage} {ms : List MigPage} {moved : Nat}

/-- A page that an atomic command holds is not marked yet (R174). -/
theorem State.migrateNext_held (h : s.atomicHolds p m.va m.size = true) :
    s.migrateNext p c (m :: ms) moved = s.updCmd p c fun y => { y with prog := .migrate (m :: ms) moved none } :=
  if_pos h

/-- Step 2 of R177: the page's leaf is marked. -/
theorem State.migrateNext_marked {t : State} {e slot : Nat} (h : s.atomicHolds p m.va m.size = false)
    (hmark : s.markMig p m.va = some (t, e, slot)) :
    s.migrateNext p c (m :: ms) moved = t.updCmd p c fun y => { y with
      prog := .migrate ({ m with slot := slot } :: ms) moved (some (BitVec.ofNat 64 (setMig e))) } := by
  rw [State.migrateNext, h, if_neg (by decide), hmark, List.drop_one, List.tail_cons]

variable {e : Nat} (hhost : s.hostHeld = false)
include hhost

/-- A copy whose memory sleeps wakes it first (R47). -/
theorem State.migratePage_asleep {isl : Nat}
    (h : s.copyAsleep (s.frameOf p e) (s.frameOf p (leafAt e (mDstTier c) m.frame)) m.size = some isl) :
    s.migratePage p c m ms moved e = s.queueWake isl := by
  simp [State.migratePage, hhost, h]

variable (hawake : s.copyAsleep (s.frameOf p e) (s.frameOf p (leafAt e (mDstTier c) m.frame)) m.size = none)
  {x : State × List (Nat × Nat × Nat × Nat × Nat × Nat)}
  (hcopy : s.copyPage (s.frameOf p e) (s.frameOf p (leafAt e (mDstTier c) m.frame)) m.size p m.va = x)
include hawake hcopy

/-- A leaf that still holds what was marked is repointed, and the next page follows (R177). -/
theorem State.migratePage_moved {lvl slot now : Nat} (hleaf : x.1.leafHeld p m.va e = some (lvl, slot, now)) :
    s.migratePage p c m ms moved e =
      (foundGo 8 (x.1.setLeaf p m.va lvl slot now (leafAt now (mDstTier c) m.frame)) x.2).migrateNext
        p c ms (moved + 1) := by
  simp [State.migratePage, hhost, hawake, hcopy, hleaf]

/-- A leaf that has changed is let go of, and the command ends (R177). -/
theorem State.migratePage_changed (hleaf : x.1.leafHeld p m.va e = none) :
    s.migratePage p c m ms moved e =
      (foundGo 8 (x.1.unmark p m e) x.2).finish p c (endWith stTranslation 0 m.va) := by
  simp [State.migratePage, hhost, hawake, hcopy, hleaf]

end

/-- Settles O41: the checks of the start in their order, then one page at a time. -/
theorem migrationComplete : Obligations.MigrationComplete := by
  unfold Obligations.MigrationComplete
  intro p q slot s c
  refine And.intro ?start ?copied
  case start =>
    intro hrow r gs hpages
    rw [exec_migrate hrow]
    refine ⟨fun g hpin => ?pinned, fun hpin => ⟨fun g hpsn => ?poisoned, fun hpsn => ⟨fun hplace => ?noRoom,
      fun m ms hplace => ?placed⟩⟩⟩
    case pinned => rw [State.startMigrate_pinned hpages hpin]
    case poisoned => rw [State.startMigrate_poisoned hpages hpin hpsn]
    case noRoom => rw [State.startMigrate_noRoom hpages hpin hpsn hplace]
    case placed =>
      rw [State.startMigrate_placed hpages hpin hpsn hplace]
      exact ⟨fun hheld => congrArg Host.Outcome.next (State.migrateNext_held hheld),
        fun t e at_ hfree hmark => congrArg Host.Outcome.next (State.migrateNext_marked hfree hmark)⟩
  case copied =>
    intro hrow m todo moved e hprog hhost a b
    rw [exec_migrationCopyDone hrow hprog]
    refine ⟨fun isl h => ?asleep, fun hawake => ⟨fun lvl at_ now hleaf => ?moved, fun hleaf => ?changed⟩⟩
    case asleep => rw [State.migratePage_asleep hhost h]
    case moved => rw [State.migratePage_moved hhost hawake rfl hleaf]
    case changed => rw [State.migratePage_changed hhost hawake rfl hleaf]

end Sys2Proof.Machine
end

section
/-! SUPPORT. Pilot's occurrences and copies, patrol scrub and host memory's answers (O42; R160, R183, R184,
R193, R494, R495). -/

namespace Sys2Proof.Machine

/-! Pilot's occurrences (R184). -/

section
variable {p : Fin 16} {s : State} (hrun : (s.part p).plt.run = true)
include hrun

theorem exec_pilotOccurrence_none (h : (s.pilotDeadlines p).nextOccurrence p = none) :
    exec (.pilotOccurrence p) s = .next (s.pilotDeadlines p) := by
  simp [exec, execPilotOccurrence, hrun, h]

variable {i k : Nat} {e : RouteEntry} (h : (s.pilotDeadlines p).nextOccurrence p = some (i, k, e))
include h

/-- A STAGE that comes while four copy waits. -/
theorem exec_pilotOccurrence_waits (he : e.release = false) (hfull : 4 ≤ pilotCopies (s.part p).plt) :
    exec (.pilotOccurrence p) s = .next (s.pilotDeadlines p) := by
  simp [exec, execPilotOccurrence, hrun, h, he, hfull]

theorem exec_pilotOccurrence_stage (he : e.release = false) (hroom : pilotCopies (s.part p).plt < 4) :
    exec (.pilotOccurrence p) s = .next (((s.pilotDeadlines p).updPart p fun y => { y with
      plt := { y.plt with nextK := SMap.set 0 y.plt.nextK i (k + 1) } }).startStage p i k e) := by
  simp [exec, execPilotOccurrence, hrun, h, he, Nat.not_le.2 hroom]

theorem exec_pilotOccurrence_release (he : e.release = true) :
    exec (.pilotOccurrence p) s = .next ((((s.pilotDeadlines p).updPart p fun y => { y with
      plt := { y.plt with nextK := SMap.set 0 y.plt.nextK i (k + 1) } }).startRelease p e).runAll p) := by
  simp [exec, execPilotOccurrence, hrun, h, he]

end

/-! Pilot's copies (R177, R183). -/

theorem exec_pilotStageDone {p : Fin 16} {s : State} (hrun : (s.part p).plt.run = true) (n : Nat) :
    exec (.pilotStageDone p n) s = .next (s.stageDone p n) :=
  congrArg Host.Outcome.next (if_pos hrun)

section
variable {s t : State} {p n : Nat} {r : StageRun} {m : MigPage} {home : BitVec 64}
  {x : State × List (Nat × Nat × Nat × Nat × Nat × Nat)}
  (ht : s.pilotDeadlines p = t) (hr : (t.part p).plt.active[n]? = some r) (hcur : r.cur = some (m, home))
  (hhost : t.hostHeld = false)
  (hawake : t.copyAsleep (t.frameOf p home.toNat) ⟨.bd, m.frame, 0⟩ m.size = none)
  (hcopy : t.copyPage (t.frameOf p home.toNat) ⟨.bd, m.frame, 0⟩ m.size p m.va = x)
include ht hr hcur hhost hawake hcopy

/-- A leaf that still holds the marked entry moves to the staging frame, and its home record is kept. -/
theorem State.stageDone_staged {lvl slot now : Nat}
    (hleaf : x.1.leafHeld p m.va (setMig home.toNat) = some (lvl, slot, now)) :
    s.stageDone p n = (foundGo 8 (((x.1.setLeaf p m.va lvl slot now (leafAt now 0 m.frame)).homeRecord
      p).updPart p fun y => { y with
        plt := { y.plt.updRun n fun r => { r with cur := none, staged := r.staged + m.size } with
          staged := y.plt.staged ++ [{ va := m.va, size := m.size, home := home, frame := m.frame }] } })
      x.2).runAll p := by
  simp only [State.stageDone, ht, hr, hcur, hhost, Bool.and_false, Bool.false_eq_true, if_false, hawake,
    hcopy, hleaf]

/-- One that has changed is let go of. -/
theorem State.stageDone_changed (hleaf : x.1.leafHeld p m.va (setMig home.toNat) = none) :
    s.stageDone p n = (foundGo 8 ((x.1.unmark p m (setMig home.toNat)).updPart p fun y => { y with
      plt := y.plt.updRun n fun r => { r with cur := none } }) x.2).runAll p := by
  simp only [State.stageDone, ht, hr, hcur, hhost, Bool.and_false, Bool.false_eq_true, if_false, hawake,
    hcopy, hleaf]

end

/-! Patrol scrub (R193). -/

theorem exec_patrolScrub {u : Fin 40} {line : Nat} {s : State} (err : Fin 5) (last : Bool)
    (hready : s.bu.ready = true) (hline : (lineOfUnit u line).2 = true)
    (hframe : s.frameOk (lineOfUnit u line).1 (line * 64) = true) :
    exec (.patrolScrub u line err [] last) s = .next (s.scrubLine u line err last) :=
  congrArg Host.Outcome.next (if_pos (by rw [List.foldl_nil, hready, hline, hframe]; rfl))

/-! Host memory's answers (R160, R494, R495). -/

section
variable {u : Fin 2} {s : State} (hlive : portLive (s.port u) = true) (a : BitVec 56) (data : List Byte)
  (poison : Bool)
include hlive

theorem exec_hostMemoryResponse_stored (hopen : (s.port u).state ≠ 4) :
    exec (.hostMemoryResponse (.host u) a data poison 0) s = .next (s.hostResponse a.toNat data poison) := by
  refine congrArg Host.Outcome.next ?_
  dsimp only
  rw [hlive, if_neg (by decide), if_neg (by decide), if_neg (by decide), if_neg (by simpa using hopen)]

/-- A response with a bad CRC is counted and refused. -/
theorem exec_hostMemoryResponse_crc : exec (.hostMemoryResponse (.host u) a data poison 1) s =
    .next ((s.updPort u fun x => { x with crcFail := satInc x.crcFail }).emit (.nack (uPort u) none 1)) := by
  refine congrArg Host.Outcome.next ?_
  dsimp only
  rw [hlive, if_neg (by decide), if_pos rfl]

/-- So is one that violates the protocol; reason 1 is none of the violations. -/
theorem exec_hostMemoryResponse_violation {reason : BitVec 8} (h : reason.toNat ∈ ulReasons) :
    exec (.hostMemoryResponse (.host u) a data poison reason) s =
      .next (s.ulViolation u reason.toNat) := by
  have hcrc : reason ≠ 1 := by
    rintro rfl
    exact absurd h (by decide)
  refine congrArg Host.Outcome.next ?_
  dsimp only
  rw [hlive, if_neg (by decide), if_neg hcrc, if_pos (List.contains_iff_mem.2 h)]

end

theorem exec_hostMemoryResponse_relayed {l : Fin 64} {s : State} (hlink : linkRuns (s.link l) = true)
    (a : BitVec 56) (data : List Byte) (poison : Bool) :
    exec (.hostMemoryResponse (.relay l) a data poison 0) s =
      .next (s.hostResponse a.toNat data poison) :=
  congrArg Host.Outcome.next (if_pos (by rw [hlink]; rfl))

/-- Settles O42: each row's effect, by what its checks answer. -/
theorem pilotScrubAndHostMemory : Obligations.PilotScrubAndHostMemory := by
  unfold Obligations.PilotScrubAndHostMemory
  refine And.intro ?pilot ?memory
  case pilot =>
    intro p s hrun t took
    refine ⟨fun i k e h => ⟨?release, ?stage, ?waits⟩, fun h => ?none, ?copied⟩
    case release => exact exec_pilotOccurrence_release hrun h
    case stage => exact exec_pilotOccurrence_stage hrun h
    case waits => exact exec_pilotOccurrence_waits hrun h
    case none => exact exec_pilotOccurrence_none hrun h
    case copied =>
      intro n r m home hr hcur hhost a b hawake u lost
      rw [exec_pilotStageDone hrun]
      refine ⟨fun lvl at_ now hleaf => ?staged, fun hleaf => ?changed⟩
      case staged => rw [State.stageDone_staged rfl hr hcur hhost hawake rfl hleaf]
      case changed => rw [State.stageDone_changed rfl hr hcur hhost hawake rfl hleaf]
  case memory =>
    intro s
    refine And.intro ?scrub ⟨fun u a data hlive => ⟨?stored, ?crc, ?violation⟩,
      fun l a data poison hlink => exec_hostMemoryResponse_relayed hlink a data poison⟩
    case scrub => exact fun u line err hready hline hframe => exec_patrolScrub err false hready hline hframe
    case stored => exact fun poison hopen => exec_hostMemoryResponse_stored hlive a data poison hopen
    case crc => exact fun poison => exec_hostMemoryResponse_crc hlive a data poison
    case violation => exact fun poison reason h => exec_hostMemoryResponse_violation hlive a data poison h

end Sys2Proof.Machine
end

section
/-! SUPPORT. The queue and event counter registers (O27 to O29; R203 to R210, R213, R218): which register
stands at each address, and what a write of it does. -/

namespace Sys2Proof.Machine

/-- A queue read after an update of it. -/
@[simp] theorem State.updQueue_queue (s : State) (p q : Nat) (f : Queue → Queue) :
    ((s.updQueue p q f).part p).queue q = f ((s.part p).queue q) := by
  simp [State.updQueue, Part.updQueue, Part.queue]

section
variable {s : State} {a : Agent} {p : Fin 16} {q : Fin 64}

/-- A write of a queue's register in an open partition. -/
theorem State.writeAddr_queue {o : Nat} {r : QReg} (hopen : s.parOpen p = true)
    (h : s.hasAccess a (qBase p q + o) = true) (v : Word) (ho : o < 0x40 := by decide)
    (h4 : o % 4 = 0 := by decide) (hr : lookup qMap o = some r := by rfl) :
    s.writeAddr a (qBase p q + o) v = s.writeQueue a p q v.toNat r := by
  rw [State.writeAddr_hasAccess (r := .par p (.q q r)) h (by rw [regAt_q p q ho h4, hr]; rfl)]
  exact State.writePar_parOpen (r := .q q r) hopen a v.toNat rfl nofun nofun nofun nofun

/-! PAR_Q_TAIL (R205). -/

/-- A doorbell passes while a partition reset runs, too. -/
theorem exec_queueDoorbell (hen : s.enabled p = true) (h : s.hasAccess a (qBase p q + 0x14) = true)
    (v : Word) : exec (.queueDoorbell a p q v) s = .next (s.doorbell a p q (v.toNat % 2 ^ 17)) := by
  have hreg : s.writePar a p v.toNat (.q q .tail) = s.doorbell a p q (fld v.toNat 0 17) := by
    have hcomp : s.readComp p (.q q .tail) = none := rfl
    rw [State.writePar, hen, isDoorbell, hcomp, Bool.not_true, Bool.and_false, if_neg (by decide)]
    · rfl
    all_goals nofun
  rw [← fld_zero]
  exact congrArg Host.Outcome.next ((State.writeAddr_hasAccess (r := .par p (.q q .tail)) h
    (regAt_q p q (by decide) (by decide)) v).trans hreg)

theorem tailOk_iff (n head tail v : Nat) : tailOk n head tail v = true ↔
    v < 2 * n ∧ (v + 2 * n - head) % (2 * n) ≤ n
      ∧ (tail + 2 * n - head) % (2 * n) ≤ (v + 2 * n - head) % (2 * n) := by
  simp only [tailOk, Bool.and_eq_true, decide_eq_true_eq, and_assoc]

end

section
variable {s : State} {g : Agent} {p q : Nat}

/-- A port in quarantine drops the doorbell (log entry 31). -/
theorem State.doorbell_quarantined (hq : s.quarantined g = true) (v : Nat) : s.doorbell g p q v = s :=
  if_pos hq

variable (hq : s.quarantined g = false)
include hq

theorem State.doorbell_disabled (hst : ((s.part p).queue q).state = 0) (v : Nat) :
    s.doorbell g p q v = s.eventP 0x8023 (s.uid g) p := by
  rw [State.doorbell, if_neg (Bool.eq_false_iff.1 hq), if_pos hst]

variable (hst : ((s.part p).queue q).state ≠ 0) {v : Nat}
include hst

theorem State.doorbell_refused (hv : tailOk ((s.part p).queue q).n ((s.part p).queue q).head.toNat
      ((s.part p).queue q).tail.toNat v = false) :
    s.doorbell g p q v = (s.stopQueue p q 3).eventP 0x8022 (s.uid g) p := by
  rw [State.doorbell, if_neg (Bool.eq_false_iff.1 hq), if_neg hst, hv]
  rfl

theorem State.doorbell_taken (hv : tailOk ((s.part p).queue q).n ((s.part p).queue q).head.toNat
      ((s.part p).queue q).tail.toNat v = true) :
    s.doorbell g p q v = s.updQueue p q fun x => { x with tail := BitVec.ofNat 17 v } := by
  rw [State.doorbell, if_neg (Bool.eq_false_iff.1 hq), if_neg hst, hv]
  rfl

end

/-- Settles O27: the three conditions of R205 are what `tailOk` checks. -/
theorem doorbellRule : Obligations.DoorbellRule := by
  unfold Obligations.DoorbellRule
  intro a p q v s h hen hq x n2 t exposed
  rw [exec_queueDoorbell hen h]
  refine ⟨fun hst => ?disabled, fun hst hbad => ?refused, fun hst hlt hroom hahead => ?taken⟩
  case disabled => rw [State.doorbell_disabled hq hst]
  case refused =>
    have hno : ¬ (t < n2 ∧ exposed ≤ x.n ∧ (x.tail.toNat + n2 - x.head.toNat) % n2 ≤ exposed) := by omega
    rw [State.doorbell_refused hq hst (Bool.eq_false_iff.2 fun hok => hno ((tailOk_iff ..).1 hok))]
  case taken => rw [State.doorbell_taken hq hst ((tailOk_iff ..).2 ⟨hlt, hroom, hahead⟩)]

/-! PAR_Q_CTL (R203, R209, R210). -/

theorem bit_iff (w i : Nat) : bit w i = true ↔ w / 2 ^ i % 2 = 1 := by
  simp [bit, fld]

/-- Another bit keeps its value, and so does a field below the bit that is set. -/
theorem bit_withBit_of_ne (v : Word) {i j : Nat} (h : i ≠ j) : bit (withBit v i).toNat j = bit v.toNat j := by
  rw [bit, fld_withBit v i j 1 (by omega), bit]

theorem ofNat_withBit_shift (v : Word) {i k n : Nat} (h : k + n ≤ i) :
    BitVec.ofNat n ((withBit v i).toNat / 2 ^ k) = BitVec.ofNat n (v.toNat / 2 ^ k) := by
  apply BitVec.eq_of_toNat_eq
  simpa [fld] using fld_withBit v i k n (Or.inr h)

section
variable {s : State} {g : Agent} {p q v : Nat}

theorem State.field_decide (s : State) (g : Agent) (P : Prop) [Decidable P] (f : State → State) :
    s.field g (decide P) f = if P then f s else s.event 0x8021 (s.uid g) := by
  simp [State.field]

/-- LOG2N, PRIO and VEC, before the enable bit. -/
theorem queueFields_eq : (s.writeLog2n g p q (fld v 1 5)).updQueue p q (fun x => { x with
    prio := BitVec.ofNat 2 (v / 64), vec := BitVec.ofNat 6 (v / 256) }) = queueFields s g p q v := by
  rw [State.writeLog2n, State.field_decide]
  rfl

/-- STOP and RESUME, after it. -/
theorem queueOrders_eq : (if bit v 15 then (if bit v 14 then s.queueStop p q else s).queueResume p q
    else if bit v 14 then s.queueStop p q else s) = queueOrders s p q v := by
  have hstop : (if bit v 14 then s.queueStop p q else s)
      = if v / 2 ^ 14 % 2 = 1 ∧ ((s.part p).queue q).state = 1 then s.stopQueue p q 4 else s := by
    simp only [ite_and, bit_iff, State.queueStop]
  rw [hstop, queueOrders]
  simp only [ite_and, bit_iff, State.queueResume]

/-- A write that leaves the enable bit as it is. -/
theorem State.writeQueueCtl_same (h : bit v 0 = ((s.part p).queue q).en) :
    s.writeQueueCtl g p q v = queueOrders (queueFields s g p q v) p q v := by
  rw [← queueOrders_eq, ← queueFields_eq]
  simp only [State.writeQueueCtl, h, beq_self_eq_true, if_true]

theorem State.writeQueueCtl_on (hen : ((s.part p).queue q).en = false) (h : bit v 0 = true) :
    s.writeQueueCtl g p q v = queueOrders ((queueFields s g p q v).queueOn p q) p q v := by
  rw [← queueOrders_eq, ← queueFields_eq]
  simp [State.writeQueueCtl, h, hen]

theorem State.writeQueueCtl_off (hen : ((s.part p).queue q).en = true) (h : bit v 0 = false) :
    s.writeQueueCtl g p q v = queueOrders ((queueFields s g p q v).queueOff p q) p q v := by
  rw [← queueOrders_eq, ← queueFields_eq]
  simp [State.writeQueueCtl, h, hen]

theorem queueOrders_stop (hstop : bit v 14 = true) (hresume : bit v 15 = false)
    (hst : ((s.part p).queue q).state = 1) : queueOrders s p q v = s.stopQueue p q 4 := by
  simp [← queueOrders_eq, hstop, hresume, State.queueStop, hst]

/-- On a stopped queue STOP has no effect, whether RESUME comes with it or not. -/
theorem queueOrders_resume (hresume : bit v 15 = true) (hst : ((s.part p).queue q).state = 2) :
    queueOrders s p q v =
      (s.updQueue p q fun x => { x with state := 1, reason := 0 }).flushHeld p q := by
  simp [← queueOrders_eq, hresume, State.queueStop, State.queueResume, hst]

/-- The fields beside the enable bit leave the queue's state alone. -/
theorem queueFields_state :
    (((queueFields s g p q v).part p).queue q).state = ((s.part p).queue q).state := by
  rw [queueFields]
  split_ifs <;> simp [State.event, State.eventP]

/-- STOP and RESUME stand above those fields. -/
theorem queueFields_withBit (v : Word) {i : Nat} (h : 14 ≤ i) :
    queueFields s g p q (withBit v i).toNat = queueFields s g p q v.toNat := by
  have hprio : BitVec.ofNat 2 ((withBit v i).toNat / 64) = BitVec.ofNat 2 (v.toNat / 64) :=
    ofNat_withBit_shift (k := 6) v (by omega)
  have hvec : BitVec.ofNat 6 ((withBit v i).toNat / 256) = BitVec.ofNat 6 (v.toNat / 256) :=
    ofNat_withBit_shift (k := 8) v (by omega)
  rw [← queueFields_eq, ← queueFields_eq, fld_withBit v i 1 5 (by omega), hprio, hvec]

end

section
variable {s : State} {a : Agent} {p : Fin 16} {q : Fin 64} (hopen : s.parOpen p = true)

section
variable (h : s.hasAccess a (qBase p q + 0x10) = true) (v : Word)
include hopen h

theorem exec_queueEnable (hen : ((s.part p).queue q).en = false) :
    exec (.queueEnable a p q v) s = .next (queueOrders
      ((queueFields s a p q (v.toNat / 2 * 2 + 1)).queueOn p q) p q (v.toNat / 2 * 2 + 1)) := by
  refine congrArg Host.Outcome.next ?_
  rw [State.writeAddr_queue (r := .ctl) hopen h, withBit_zero]
  exact State.writeQueueCtl_on hen (bit_zero_odd _)

theorem exec_queueDisable (hen : ((s.part p).queue q).en = true) :
    exec (.queueDisable a p q v) s = .next (queueOrders
      ((queueFields s a p q (v.toNat / 2 * 2)).queueOff p q) p q (v.toNat / 2 * 2)) := by
  refine congrArg Host.Outcome.next ?_
  rw [State.writeAddr_queue (r := .ctl) hopen h, noBit_zero]
  exact State.writeQueueCtl_off hen (bit_zero_even _)

/-- A word with STOP or RESUME set leaves an enabled queue enabled where its EN is set. -/
theorem State.writeAddr_ctl_withBit {i : Nat} (hi : 14 ≤ i) (hen : ((s.part p).queue q).en = true)
    (hon : v.toNat % 2 = 1) : s.writeAddr a (qBase p q + 0x10) (withBit v i) =
      queueOrders (queueFields s a p q v.toNat) p q (withBit v i).toNat := by
  have hbit : bit (withBit v i).toNat 0 = true := by
    rw [bit_withBit_of_ne v (by omega), bit_iff]
    simpa using hon
  rw [State.writeAddr_queue (r := .ctl) hopen h, State.writeQueue,
    State.writeQueueCtl_same (hbit.trans hen.symm), queueFields_withBit v hi]

variable (hen : ((s.part p).queue q).en = true) (hon : v.toNat % 2 = 1)
include hen hon

theorem exec_parQStop (hresume : v.toNat / 2 ^ 15 % 2 = 0) (hst : ((s.part p).queue q).state = 1) :
    exec (.parQStop a p q v) s = .next ((queueFields s a p q v.toNat).stopQueue p q 4) := by
  have hno : bit (withBit v 14).toNat 15 = false := by
    rw [bit_withBit_of_ne v (by decide), ← Bool.not_eq_true, bit_iff]
    omega
  refine congrArg Host.Outcome.next ?_
  rw [State.writeAddr_ctl_withBit hopen h v (by decide) hen hon,
    queueOrders_stop (bit_withBit (by decide)) hno (queueFields_state.trans hst)]

theorem exec_parQResume (hst : ((s.part p).queue q).state = 2) :
    exec (.parQResume a p q v) s = .next (((queueFields s a p q v.toNat).updQueue p q
      fun x => { x with state := 1, reason := 0 }).flushHeld p q) := by
  refine congrArg Host.Outcome.next ?_
  rw [State.writeAddr_ctl_withBit hopen h v (by decide) hen hon,
    queueOrders_resume (bit_withBit (by decide)) (queueFields_state.trans hst)]

end

/-! PAR_Q_HEAD (R210). -/

theorem exec_queueHeadWrite (hopen : s.parOpen p = true) (h : s.hasAccess a (qBase p q + 0x18) = true)
    (v : Word) : exec (.queueHeadWrite a p q v) s = .next (s.writeHead p q (v.toNat % 2 ^ 17)) := by
  rw [← fld_zero]
  exact congrArg Host.Outcome.next (State.writeAddr_queue (r := .head) hopen h v)

end

/-- Settles O28: PAR_Q_CTL's fields, its enable bit and its orders in turn; PAR_Q_HEAD's conditions. -/
theorem queueRegistersComplete : Obligations.QueueRegistersComplete := by
  unfold Obligations.QueueRegistersComplete
  refine And.intro ?ctl ?head
  case ctl =>
    intro a p q v s h hopen on off
    refine ⟨fun hen => ?enable, fun hen => ?disable, fun hen hon hlog => ⟨?stop, ?resume⟩⟩
    case enable =>
      rw [exec_queueEnable hopen h v hen, State.queueOn]
      exact ⟨fun hrings => by rw [if_pos hrings], fun hrings => by rw [if_neg (Bool.eq_false_iff.1 hrings)]⟩
    case disable =>
      rw [exec_queueDisable hopen h v hen, State.queueOff]
      exact ⟨fun hbusy => by rw [if_pos hbusy], fun hidle => by rw [if_neg (Bool.eq_false_iff.1 hidle)]⟩
    case stop => exact fun hst hresume => exec_parQStop hopen h v hen hon hresume hst
    case resume => exact exec_parQResume hopen h v hen hon
  case head =>
    intro a p q v s h hopen x n
    rw [exec_queueHeadWrite hopen h]
    refine ⟨fun hst hlt hroom => ?moves, fun hbad => ?ignored, fun htail hq => ?quarantined⟩
    case moves => rw [State.writeHead, if_pos ⟨hst, hlt, hroom⟩]
    case ignored =>
      rw [State.writeHead, if_neg]
      rintro ⟨hst, -, hroom⟩
      exact hbad.elim (· hst) (Nat.not_lt.2 hroom)
    case quarantined =>
      simp only [State.parOpen, Bool.and_eq_true] at hopen
      rw [exec_queueDoorbell hopen.1 htail, State.doorbell_quarantined hq]

/-! Event counters (R213, R218). -/

section
variable (s : State) (p i n : Nat)

theorem ctrAdd_toNat (v : Dword) (n : Nat) : (ctrAdd v n).toNat = min (v.toNat + n) (2 ^ 64 - 1) := by
  rw [ctrAdd, BitVec.toNat_ofNat, Nat.mod_eq_of_lt (by omega)]

theorem ctrSaturates_iff (v : Dword) (n : Nat) : ctrSaturates v n = true ↔ 2 ^ 64 ≤ v.toNat + n := by
  rw [ctrSaturates, decide_eq_true_iff]
  omega

/-- The event of a saturation changes no partition. -/
theorem State.evcAdd_part (j : Nat) : (s.evcAdd p i n).part j =
    (s.evcSet p i (ctrAdd (s.evc p i) n)).part j := by
  simp only [State.evcAdd]
  split
  · simp [State.eventP]
  · rfl

theorem State.evcAdd_evc (j : Nat) : (s.evcAdd p i n).evc p j =
    if j = i then ctrAdd (s.evc p i) n else s.evc p j := by
  simp [State.evc, State.evcAdd_part, State.evcSet]

theorem State.evcAdd_part_of_ne {j : Nat} (h : j ≠ p) : (s.evcAdd p i n).part j = s.part j := by
  simp [State.evcAdd_part, State.evcSet, h]

/-- An addition is recorded where the counter saturates, and nowhere else. -/
theorem State.evcAdd_nextSeq_ne : (s.evcAdd p i n).log.nextSeq ≠ s.log.nextSeq ↔
    ctrSaturates (s.evc p i) n = true := by
  simp only [State.evcAdd]
  split
  next hsat =>
    exact iff_of_true (Nat.ne_of_gt (State.record_nextSeq (s.evcSet p i _) _)) hsat
  next hsat => exact iff_of_false (fun hne => hne rfl) hsat

variable {s p i n}

theorem State.evcAdd_fits (h : (s.evc p i).toNat + n < 2 ^ 64) :
    s.evcAdd p i n = s.evcSet p i (BitVec.ofNat 64 ((s.evc p i).toNat + n)) := by
  have hsat : ¬ ctrSaturates (s.evc p i) n = true := by
    rw [ctrSaturates_iff]
    omega
  simp only [State.evcAdd, if_neg hsat, ctrAdd, Nat.min_eq_left (show (s.evc p i).toNat + n ≤ 2 ^ 64 - 1 by omega)]

theorem State.evcAdd_saturates (h : 2 ^ 64 ≤ (s.evc p i).toNat + n) :
    s.evcAdd p i n =
      (s.evcSet p i (BitVec.ofNat 64 (2 ^ 64 - 1))).eventP 0x4003 (s.uPartHelm p) p := by
  simp only [State.evcAdd, if_pos ((ctrSaturates_iff _ _).2 h), ctrAdd,
    Nat.min_eq_right (show 2 ^ 64 - 1 ≤ (s.evc p i).toNat + n by omega)]

end

/-- PAR_EVC_ADD adds to the counter that PAR_EVC_SEL selects. -/
theorem exec_evcAdd {s : State} {a : Agent} {p : Fin 16} (hopen : s.parOpen p = true)
    (h : s.hasAccess a (parBase p + 0x60C) = true) (v : Word) :
    exec (.evcAdd a p v) s = .next (s.writeEvcAdd p (v.toNat % 2 ^ 16)) := by
  rw [← fld_zero]
  exact congrArg Host.Outcome.next (State.writeAddr_own (r := .evcAdd) hopen h v)

/-- Settles O29: the register's row, then what an addition leaves, `ctrAdd` bounded by its limit. -/
theorem eventCountersSaturate : Obligations.EventCountersSaturate := by
  unfold Obligations.EventCountersSaturate
  refine And.intro ?register ?addition
  case register =>
    intro a p v s h hopen i n old put
    rw [exec_evcAdd hopen h, State.writeEvcAdd]
    refine ⟨fun hn => ?zero, fun hn hfits => ?fits, fun hn hsat => ?saturates⟩
    case zero => rw [if_pos hn]
    case fits =>
      rw [if_neg hn, State.evcAdd_fits hfits]
      rfl
    case saturates =>
      rw [if_neg hn, State.evcAdd_saturates hsat]
      rfl
  case addition =>
    intro s p i n
    refine ⟨?sum, fun j hj => ?others, fun q hq => State.evcAdd_part_of_ne s p i n hq, ?recorded⟩
    case sum => rw [State.evcAdd_evc, if_pos rfl, ctrAdd_toNat]
    case others => rw [State.evcAdd_evc, if_neg hj]
    case recorded => rw [State.evcAdd_nextSeq_ne, ctrSaturates_iff]

end Sys2Proof.Machine
end

section
/-! SUPPORT. The commands of the queues and the fetch of a descriptor (O24, O30; R203, R207, R222 to R230):
what each row does with the command that it names. -/

namespace Sys2Proof.Machine

/-! DESCRIPTOR_FETCH (R203, R207). -/

section
variable {p : Fin 16} {q : Fin 64} {s : State}

/-- No descriptor is fetched without room for its record. -/
theorem State.canFetch_full {p q : Nat}
    (h : ((s.part p).queue q).n ≤ s.inflightOf p q + unconsumed ((s.part p).queue q)) :
    s.canFetch p q = false := by
  simp [State.canFetch, Nat.not_lt.2 h]

theorem exec_descriptorFetch_idle (h : s.canFetch p q = false) :
    exec (.descriptorFetch p q) s = .next s :=
  congrArg Host.Outcome.next (if_pos (by rw [h]; rfl))

variable (h : s.canFetch p q = true)
include h

/-- The descriptor that is read joins the partition's commands, with the outcome of its validation. -/
theorem exec_descriptorFetch_read {s' : State} {bs : List Byte}
    (hread : s.readSlot p q = (s', .ok bs)) :
    exec (.descriptorFetch p q) s = .next (s'.takeDescriptor p q bs
      (s'.descDetail p { q := q, idx := 0, desc := BitVec.ofNat 512 (leNat bs) })) := by
  refine congrArg Host.Outcome.next ?_
  rw [h, if_neg (by decide), hread]

theorem exec_descriptorFetch_fails {s' : State} {st : Nat} {m : Miss}
    (hread : s.readSlot p q = (s', .fail st m)) : exec (.descriptorFetch p q) s = .next s' := by
  refine congrArg Host.Outcome.next ?_
  rw [h, if_neg (by decide), hread]

end

section
variable {s s' : State} {p q : Nat}

/-- The slot at PAR_Q_HEAD, read. -/
theorem State.readSlot_ok {bs : List Byte}
    (h : s.xread (s.helmReq p) (((s.part p).queue q).base.toNat
      + 64 * (((s.part p).queue q).head.toNat % ((s.part p).queue q).n)) 64 = (s', .ok bs)) :
    s.readSlot p q = (s', .ok bs) := by
  rw [State.readSlot, h]

/-- A slot that cannot be read stops the queue with reason 5 (R203). -/
theorem State.readSlot_fail {st : Nat} {m : Miss}
    (h : s.xread (s.helmReq p) (((s.part p).queue q).base.toNat
      + 64 * (((s.part p).queue q).head.toNat % ((s.part p).queue q).n)) 64 = (s', .fail st m)) :
    s.readSlot p q = (s'.stopQueue p q 5, .fail st m) := by
  rw [State.readSlot, h]

end

/-- Settles O24: by what the read of the slot answers, or that it is not made. -/
theorem descriptorFetchComplete : Obligations.DescriptorFetchComplete := by
  unfold Obligations.DescriptorFetchComplete
  intro p q s x
  refine ⟨fun s' bs hcan hread => ?taken, fun s' st m hcan hread => ?stopped, fun hfull => ?full⟩
  case taken =>
    rw [exec_descriptorFetch_read hcan (State.readSlot_ok hread)]
    rfl
  case stopped => exact exec_descriptorFetch_fails hcan (State.readSlot_fail hread)
  case full => exact exec_descriptorFetch_idle (State.canFetch_full hfull)

/-! FENCE, SIGNAL, WAIT, NOP and MARK (R222, R226, R227). -/

section
variable {p : Fin 16} {q : Fin 64} {slot : BitVec 16} {s : State} {c : Cmd}

theorem Cmd.same_self (c : Cmd) : c.same c = true := by
  simp [Cmd.same]

theorem exec_fence_oldest (h : s.rowCmd p q slot.toNat (isFence 0) = some c)
    (hold : ((s.part p).cmds.find? fun y => y.q == c.q) = some c) :
    exec (.fence p q slot) s = .next (s.finish p c (endDone 0)) := by
  refine (State.onCmd_rowCmd h _).trans (congrArg Host.Outcome.next (if_pos ?_))
  rw [hold, Option.any_some, Cmd.same_self]

theorem exec_signalAdd (h : s.rowCmd p q slot.toNat (isFence 1) = some c) :
    exec (.signalAdd p q slot) s = .next ((s.evcAdd p (sCtr c) (sValue c)).finish p c
      (endDone ((s.evcAdd p (sCtr c) (sValue c)).evc p (sCtr c)).toNat)) :=
  State.onCmd_rowCmd h _

theorem exec_signalSet (h : s.rowCmd p q slot.toNat (isFence 2) = some c) :
    exec (.signalSet p q slot) s = .next ((s.evcSet p (sCtr c) (BitVec.ofNat 64 (sValue c))).finish p c
      (endDone (sValue c))) :=
  State.onCmd_rowCmd h _

theorem exec_wait_reached (h : s.rowCmd p q slot.toNat (isFence 3) = some c)
    (hv : sValue c ≤ (s.evc p (sCtr c)).toNat) :
    exec (.wait p q slot) s = .next (s.finish p c (endDone (s.evc p (sCtr c)).toNat)) :=
  (State.onCmd_rowCmd h _).trans (congrArg Host.Outcome.next (if_pos hv))

theorem exec_nop (h : s.rowCmd p q slot.toNat (·.op == opNop) = some c) :
    exec (.nop p q slot) s = .next (s.finish p c (endDone 0)) :=
  State.onCmd_rowCmd h _

/-- LOG_SEQ is the number that the record of the MARK takes. -/
theorem exec_mark (h : s.rowCmd p q slot.toNat (·.op == opMark) = some c) :
    exec (.mark p q slot) s = .next ((s.record {
        code := 0xF002, unit := s.uPartHelm p, part := some p.val,
        var := some (48, [(0x10, 1, p.val), (0x18, 8, markTime c), (0x20, 4, markLabel c),
          (0x28, 8, s.log.optime.toNat)]) }).finish p c
      (endWith stDone 0 s.log.optime.toNat false none (some s.seqNext))) :=
  State.onCmd_rowCmd h _

/-! COPY, FILL and SCRUB (R224, R225, R230). -/

theorem exec_copy (h : s.rowCmd p q slot.toNat (fun c => c.op == opCopy && !isMigrate c) = some c) :
    exec (.copy p q slot) s = .next (s.runCopy p c) :=
  State.onCmd_rowCmd h _

theorem exec_fill (h : s.rowCmd p q slot.toNat (fun c => c.op == opFill && !fScrub c) = some c) :
    exec (.fill p q slot) s = .next (s.runFill p c (fPattern c)) :=
  State.onCmd_rowCmd h _

theorem exec_scrub (h : s.rowCmd p q slot.toNat (fun c => c.op == opFill && fScrub c) = some c) :
    exec (.scrub p q slot) s = .next (s.runFill p c 0) :=
  State.onCmd_rowCmd h _

end

section
variable {s t : State} {p : Nat} {c : Cmd}

/-- The bytes of a COPY at an offset. -/
def State.copySource (p : Nat) (c : Cmd) (s : State) (off n : Nat) : State × XR (List Byte) :=
  s.xread (s.moverReq p (cSrc c + off)) (cSrc c + off) n

/-- The bytes of a FILL at an offset: those of its word. -/
def State.fillSource (word : Nat) (s : State) (off n : Nat) : State × XR (List Byte) :=
  (s, .ok ((List.range n).map fun i => (leBytes 8 word).getD ((off + i) % 8) 0))

/-- Ranges that do not overlap: what is read is what is written. -/
theorem State.runCopy_apart (hapart : cDst c + cLen c ≤ cSrc c ∨ cSrc c + cLen c ≤ cDst c) :
    s.runCopy p c = s.endMove p c (cDst c) (cLen c)
      (moveGo p c (cDst c) (State.copySource p c) (piecesOf (cDst c) (cLen c)) s) := by
  have hover : decide (cSrc c < cDst c + cLen c ∧ cDst c < cSrc c + cLen c) = false :=
    decide_eq_false (by omega)
  rw [State.runCopy, hover]
  congr 2
  funext s off n
  rw [State.copySource]
  split
  next hread => rw [hread]; rfl
  next => rfl

theorem State.runFill_eq (word : Nat) : s.runFill p c word = s.endMove p c (fDst c) (fLen c)
    (moveGo p c (fDst c) (State.fillSource word) (piecesOf (fDst c) (fLen c)) s) := rfl

variable (dst n : Nat)

theorem State.endMove_ok : s.endMove p c dst n (t, .ok ()) = t.finish p c (endDone n) := rfl

/-- A failed move keeps its destination where its writes are staged (R235). -/
theorem State.endMove_fail_staged (h : staged c = true) (st : Nat) (m : Miss) :
    s.endMove p c dst n (t, .fail st m) = t.finish p c (endAt st m true) := by
  simp only [State.endMove, h, if_true]

theorem State.endMove_fail_direct (h : staged c = false) (st : Nat) (m : Miss) :
    s.endMove p c dst n (t, .fail st m) = (t.scramble p dst n).finish p c (endAt st m false) := by
  simp only [State.endMove, h, Bool.false_eq_true, if_false]

end

/-- Settles O30: each row runs its command, and a data command ends as its move does. -/
theorem queueCommandsComplete : Obligations.QueueCommandsComplete := by
  unfold Obligations.QueueCommandsComplete
  refine And.intro ?control ?data
  case control =>
    intro p q slot s c
    exact ⟨exec_fence_oldest, exec_signalAdd, exec_signalSet, exec_wait_reached, exec_nop, exec_mark⟩
  case data =>
    intro p q slot s c fill copy
    refine ⟨fun h hapart => ?copies, fun h t ht => ?fills, fun h t ht => ?scrubs⟩
    case copies =>
      rw [exec_copy h, State.runCopy_apart hapart]
      refine ⟨fun t ht => ?done, fun t st m ht => ⟨fun hst => ?kept, fun hst => ?undefined⟩⟩
      case done => rw [← State.endMove_ok, ← ht]; rfl
      case kept => rw [← State.endMove_fail_staged _ _ hst, ← ht]; rfl
      case undefined => rw [← State.endMove_fail_direct _ _ hst, ← ht]; rfl
    case fills =>
      rw [exec_fill h, State.runFill_eq, ← State.endMove_ok, ← ht]
      rfl
    case scrubs =>
      rw [exec_scrub h, State.runFill_eq, ← State.endMove_ok, ← ht]
      rfl

end Sys2Proof.Machine
end

section
/-! SUPPORT. ABORT (O51; R233, R234): every scope ends its targets, stops queues, and reports. -/

namespace Sys2Proof.Machine

section
variable {s t : State} {p n : Nat} {c : Cmd} {f : Cmd → Bool}
  (h : abortGo p ((s.part p).cmds.filter fun y => abortable y && y.outcome.isNone && f y) s 0 = (t, n))
include h

/-- A scope that stops no queue. -/
theorem State.runAbort_stopsNone :
    s.runAbort p c f [] = t.finish p c (endWith (if n = 0 then stAbortNothing else stDone) 0 n) := by
  rw [State.runAbort, h]
  rfl

/-- A scope that stops queues: where the ABORT's own is one of them, its targets there let it go on. -/
theorem State.runAbort_stops (qs : List Nat) :
    s.runAbort p c f qs = (if c.q ∈ qs then (t.abortStop p c qs).abortGoesOn p c
        ((s.part p).cmds.filter fun y => abortable y && y.outcome.isNone && f y)
      else t.abortStop p c qs).finish p c (endWith (if n = 0 then stAbortNothing else stDone) 0 n) := by
  rw [State.runAbort, h]
  simp only [List.contains_iff_mem]

end

section
variable {p : Fin 16} {q : Fin 64} {slot : BitVec 16} {s : State} {c : Cmd}

theorem exec_abortCommand (h : s.rowCmd p q slot.toNat (isAbort 0) = some c) :
    exec (.abortCommand p q slot) s = .next (s.runAbort p c (fun t => t.q == aQueue c
      && cmdSlot (s.part p) t == aSlot c && t.tag == aTag c) []) :=
  State.onCmd_rowCmd h _

theorem exec_abortQueue (h : s.rowCmd p q slot.toNat (isAbort 1) = some c) :
    exec (.abortQueue p q slot) s =
      .next (s.runAbort p c (fun t => t.dispatched && t.q == aQueue c) [aQueue c]) :=
  State.onCmd_rowCmd h _

theorem exec_abortCluster (h : s.rowCmd p q slot.toNat (isAbort 2) = some c) :
    exec (.abortCluster p q slot) s =
      .next (s.runAbort p c (fun t => t.dispatched && s.usesCluster p t (aCluster c)) []) :=
  State.onCmd_rowCmd h _

theorem exec_abortPartition (h : s.rowCmd p q slot.toNat (isAbort 3) = some c) :
    exec (.abortPartition p q slot) s =
      .next (s.runAbort p c (fun t => t.dispatched) (List.range 64)) :=
  State.onCmd_rowCmd h _

end

/-- Settles O51: each scope is `runAbort` with its own targets and its own queues. -/
theorem abortsComplete : Obligations.AbortsComplete := by
  unfold Obligations.AbortsComplete
  intro p q slot s c is targets ended
  refine ⟨fun h t n hgo => ?command, fun h t n hgo => ?queue, fun h t n hgo => ?cluster,
    fun h hq t n hgo => ?partition⟩
  case command => rw [exec_abortCommand h, State.runAbort_stopsNone hgo]
  case queue =>
    rw [exec_abortQueue h, State.runAbort_stops hgo]
    simp only [List.mem_singleton, eq_comm (a := c.q)]
    rfl
  case cluster => rw [exec_abortCluster h, State.runAbort_stopsNone hgo]
  case partition => rw [exec_abortPartition h, State.runAbort_stops hgo, if_pos (List.mem_range.2 hq)]

end Sys2Proof.Machine
end

section
/-! SUPPORT. MOD_RESET and the end of a reset (O35; R155, R264, R464 to R467): the word that each row writes,
what a write of it does, and which of the running resets end. -/

namespace Sys2Proof.Machine

/-! The word that the rows write (R467). -/

theorem packWord_four (i a j b k c l d : Nat) : packWord [(i, a), (j, b), (k, c), (l, d)] =
    BitVec.ofNat 32 (a * 2 ^ i + b * 2 ^ j + c * 2 ^ k + d * 2 ^ l) := by
  simp [packWord]

section
variable {k t : Nat} (hk : k < 4) (ht : t < 256) (scrub : Bool)
include hk ht

theorem resetWord_toNat : (resetWord k t scrub).toNat = 2 ^ 31 + 8 * t + 4 * b2n scrub + k := by
  have hs : b2n scrub ≤ 1 := by cases scrub <;> decide
  rw [resetWord, packWord_four, BitVec.toNat_ofNat]
  omega

theorem resetWord_kind : fld (resetWord k t scrub).toNat 0 2 = k := by
  rw [resetWord_toNat hk ht, fld_zero]
  omega

theorem resetWord_scrub : bit (resetWord k t scrub).toNat 2 = scrub := by
  rw [Bool.eq_iff_iff, bit_iff, resetWord_toNat hk ht]
  cases scrub
  case false =>
    simp only [b2n, Bool.false_eq_true, if_false, iff_false]
    omega
  case true =>
    simp only [b2n, if_true, iff_true]
    omega

theorem resetWord_target : BitVec.ofNat 8 ((resetWord k t scrub).toNat / 8) = BitVec.ofNat 8 t := by
  have hs : b2n scrub ≤ 1 := by cases scrub <;> decide
  apply BitVec.eq_of_toNat_eq
  simp only [BitVec.toNat_ofNat, resetWord_toNat hk ht]
  omega

theorem resetWord_go : bit (resetWord k t scrub).toNat 31 = true := by
  have hs : b2n scrub ≤ 1 := by cases scrub <;> decide
  rw [bit_iff, resetWord_toNat hk ht]
  omega

end

/-! The write of MOD_RESET (R467). -/

section
variable {s : State} {g : Agent} {v k t : Nat} {scrub : Bool}

/-- While a reset of the host runs, a GO of another kind than the module reset is ignored. -/
theorem State.writeReset_busy (hgo : bit v 31 = true) (hkind : fld v 0 2 ≠ 3) (h : resetBusy s = true) :
    s.writeReset g v = s.resetErr 1 := by
  simp [State.writeReset, hgo, hkind, h]

/-- SCRUB is reserved but for a partition reset; a GO that is not ignored sets the fields and acts. -/
theorem State.writeReset_go (hgo : bit v 31 = true) (hkind : fld v 0 2 = k) (hscrub : bit v 2 = scrub)
    (htarget : BitVec.ofNat 8 (v / 8) = BitVec.ofNat 8 t) (h : resetBusy s = false ∨ k = 3)
    (hlegal : scrub = false ∨ k = 2) :
    s.writeReset g v = if k = 3 then (withReset s k t scrub).moduleReset 1 (s.uid g)
      else (withReset s k t scrub).hostReset (s.uid g) := by
  have hpass : (true && k != 3 && resetBusy s) = false := by
    rcases h with h | h <;> simp [h]
  have hfield : (!scrub || k == 2) = true := by simpa using hlegal
  rw [State.writeReset]
  dsimp only
  rw [hkind, hscrub, htarget, hgo, hpass, hfield, if_neg (by decide), if_neg (by decide), State.field,
    if_pos rfl]
  rfl

/-- What keeps a reset that the host has asked for from starting, once S9 is reached. -/
theorem State.hostReset_withReset {kind : ResetKind} (hk : resetCode kind < 3) (ht : t < 256) (unit : Nat)
    (hbusy : resetBusy s = false) (h9 : s.reachedS9 = true) :
    (withReset s (resetCode kind) t scrub).hostReset unit =
      if s.resetAbsent (resetCode kind) t then (withReset s (resetCode kind) t scrub).resetErr 2
      else ((withReset s (resetCode kind) t scrub).resetErr 0).startReset
        ⟨kind, t, scrub, BitVec.ofNat 16 unit, true⟩ := by
  have hcode : (withReset s (resetCode kind) t scrub).rst.kind.toNat = resetCode kind :=
    Nat.mod_eq_of_lt (by omega)
  have htarget : (withReset s (resetCode kind) t scrub).rst.target.toNat = t := Nat.mod_eq_of_lt (by omega)
  have hbusy' : resetBusy (withReset s (resetCode kind) t scrub) = false := hbusy
  have h9' : (withReset s (resetCode kind) t scrub).reachedS9 = true := h9
  rw [State.hostReset, hcode, htarget, hbusy', h9', if_neg (by decide), if_neg (by decide)]
  cases kind with
  | core => rfl
  | cluster => rfl
  | partition => rfl
  | module => exact absurd hk (by decide)

end

section
variable {a : Agent} {s : State} (h : s.hasAccess a 0x210 = true)
include h

theorem State.writeAddr_reset (v : Word) : s.writeAddr a 0x210 v = s.writeReset a v.toNat :=
  State.writeAddr_hasAccess (r := .mod .reset) h rfl v

section
variable (kind : ResetKind) {t : Nat} (hk : resetCode kind < 3) (ht : t < 256)
include hk ht

theorem State.writeAddr_resetWord_busy (scrub : Bool) (hbusy : resetBusy s = true) :
    s.writeAddr a 0x210 (resetWord (resetCode kind) t scrub) = s.resetErr 1 := by
  have hcode := resetWord_kind (by omega : resetCode kind < 4) ht scrub
  rw [State.writeAddr_reset h, State.writeReset_busy (resetWord_go (by omega) ht scrub) (by omega) hbusy]

variable {scrub : Bool} (hlegal : scrub = false ∨ resetCode kind = 2) (hbusy : resetBusy s = false)
include hlegal hbusy

theorem State.writeAddr_resetWord : s.writeAddr a 0x210 (resetWord (resetCode kind) t scrub) =
    (withReset s (resetCode kind) t scrub).hostReset (s.uid a) := by
  have hk' : resetCode kind < 4 := by omega
  rw [State.writeAddr_reset h, State.writeReset_go (resetWord_go hk' ht scrub) (resetWord_kind hk' ht scrub)
    (resetWord_scrub hk' ht scrub) (resetWord_target hk' ht scrub) (Or.inl hbusy) hlegal,
    if_neg (by omega)]

variable (h9 : s.reachedS9 = true)
include h9

theorem State.writeAddr_resetWord_absent (habsent : s.resetAbsent (resetCode kind) t = true) :
    s.writeAddr a 0x210 (resetWord (resetCode kind) t scrub) =
      (withReset s (resetCode kind) t scrub).resetErr 2 := by
  rw [State.writeAddr_resetWord h kind hk ht hlegal hbusy, State.hostReset_withReset hk ht _ hbusy h9,
    if_pos habsent]

theorem State.writeAddr_resetWord_starts (hthere : s.resetAbsent (resetCode kind) t = false) :
    s.writeAddr a 0x210 (resetWord (resetCode kind) t scrub) =
      ((withReset s (resetCode kind) t scrub).resetErr 0).startReset
        ⟨kind, t, scrub, BitVec.ofNat 16 (s.uid a), true⟩ := by
  rw [State.writeAddr_resetWord h kind hk ht hlegal hbusy, State.hostReset_withReset hk ht _ hbusy h9,
    if_neg (Bool.eq_false_iff.1 hthere)]

end

/-- An agent that has an access stands on a module with power good, and so a module reset is accepted. -/
theorem exec_moduleReset : exec (.moduleReset a) s = .next ((((List.range 16).foldl
    (fun s p => s.leaveGroups p) ((withReset s 3 0 false).resetRecord 0x7020
      ⟨.module, 0, false, BitVec.ofNat 16 (s.uid a), false⟩)).wiped 1).startS0
    (some (BitVec.ofNat 16 (s.uid a)))) := by
  have hgood : (withReset s 3 0 false).pwr.input = .good := by
    simp only [State.hasAccess, State.agentLive, Bool.and_eq_true, beq_iff_eq] at h
    exact h.1.1
  refine congrArg Host.Outcome.next ?_
  rw [State.writeAddr_reset h, State.writeReset_go (resetWord_go (by decide) (by decide) _)
    (resetWord_kind (by decide) (by decide) _) (resetWord_scrub (by decide) (by decide) _)
    (resetWord_target (by decide) (by decide) _) (Or.inr rfl) (Or.inl rfl), if_pos rfl,
    State.moduleReset, hgood, if_neg (by decide)]
  rfl

end

/-! The end of a reset (R466). -/

section
variable {s : State} {k : ResetKind} {target : Nat} {r : RunningReset}
  (h : (s.rst.running.find? fun r => r.kind == k && r.target == target) = some r)
include h

theorem exec_resetEnd : exec (.resetEnd k target) s = .next (s.endReset r) := by
  refine congrArg Host.Outcome.next ?_
  rw [h]

theorem runningReset_named : r.kind = k ∧ r.target = target := by
  simpa using List.find?_some h

end

section
variable {s : State} {r : RunningReset}

theorem State.endReset_covered
    (h : (s.rst.running.any fun x => s.resetCovers x r && !s.resetCovers r x) = true) :
    s.endReset r = s := if_pos h

variable (h : (s.rst.running.any fun x => s.resetCovers x r && !s.resetCovers r x) = false)
include h

theorem State.endReset_core (hk : r.kind = .core) :
    s.endReset r = (s.endResets r).releaseCores [r.target] := by
  simp [State.endReset, h, hk]

theorem State.endReset_cluster (hk : r.kind = .cluster) :
    s.endReset r = (s.endResets r).releaseCores (clusterCores r.target) := by
  simp [State.endReset, h, hk]

/-- A partition reset ends once the descriptors that its queues expose are absorbed (R236). -/
theorem State.endReset_partition (hk : r.kind = .partition) {t : State}
    (ht : s.absorbAll r.target = .on t) :
    s.endReset r = ((t.finishPartReset r.target ((s.rst.running.filter fun x => s.resetCovers r x).any
      fun x => x.kind == .partition && x.scrub)).endResets r).afterPartReset r.target := by
  simp [State.endReset, h, hk, ht]

end

/-- Settles O35: the words of the rows by what a write of MOD_RESET does, the ends by the reset's kind. -/
theorem resetsComplete : Obligations.ResetsComplete := by
  unfold Obligations.ResetsComplete
  refine And.intro ?starts ?ends
  case starts =>
    intro a s h start
    refine ⟨fun hbusy => ⟨fun c => congrArg Host.Outcome.next ?_, fun cl => congrArg Host.Outcome.next ?_,
        fun p scrub => congrArg Host.Outcome.next ?_⟩,
      fun hbusy h9 => ⟨fun c hc => congrArg Host.Outcome.next ?_, fun cl hcl => congrArg Host.Outcome.next ?_,
        fun p scrub hp => congrArg Host.Outcome.next ?_, fun p scrub hp => congrArg Host.Outcome.next ?_⟩,
      exec_moduleReset h⟩
    · exact State.writeAddr_resetWord_busy h .core (by decide) (by omega) _ hbusy
    · exact State.writeAddr_resetWord_busy h .cluster (by decide) (by omega) _ hbusy
    · exact State.writeAddr_resetWord_busy h .partition (by decide) (by omega) _ hbusy
    · exact State.writeAddr_resetWord_starts h .core (by decide) (by omega) (.inl rfl) hbusy h9 hc
    · exact State.writeAddr_resetWord_starts h .cluster (by decide) (by omega) (.inl rfl) hbusy h9 hcl
    · exact State.writeAddr_resetWord_starts h .partition (by decide) (by omega) (.inr rfl) hbusy h9 hp
    · exact State.writeAddr_resetWord_absent h .partition (by decide) (by omega) (.inr rfl) hbusy h9 hp
  case ends =>
    intro k target s r hfind
    obtain ⟨rfl, rfl⟩ := runningReset_named hfind
    rw [exec_resetEnd hfind]
    refine ⟨fun hwider => ?covered, fun halone => ⟨fun hk => ?core, fun hk => ?cluster,
      fun t hk ht => ?partition⟩⟩
    case covered => rw [State.endReset_covered hwider]
    case core => rw [State.endReset_core halone hk]
    case cluster => rw [State.endReset_cluster halone hk]
    case partition => rw [State.endReset_partition halone hk ht]

end Sys2Proof.Machine
end

section
/-! SUPPORT. PL_CTL and UL_CTL (O38; R253, R257, R258, R495, R496): which register stands at the addresses of
links and ports, the words that the rows write, and what each of their bits does. -/

namespace Sys2Proof.Machine

/-! Addresses (R58). -/

theorem regAt_plCtl (l : Fin 64) : regAt (plBase l + 4) = some (.pl l .ctl) := by
  have hl := l.isLt
  have hal : (plBase l + 4) % 4 = 0 := by unfold plBase; omega
  have hblock : (plBase l + 4) / 0x10000 = 0x11 := by unfold plBase; omega
  have hoff : (plBase l + 4) % 0x10000 = l.val * 0x400 + 4 := by unfold plBase; omega
  have hreg : (l.val * 0x400 + 4) % 0x400 = 4 := by omega
  have hnum : (l.val * 0x400 + 4) / 0x400 = l.val := by omega
  unfold regAt
  rw [hal, hblock, hoff]
  dsimp only
  rw [hreg, hnum]
  rfl

theorem regAt_ulCtl (u : Fin 2) : regAt (ulBase u + 4) = some (.ul u .ctl) := by
  obtain hu | hu : u.val = 0 ∨ u.val = 1 := by omega
  all_goals rw [hu]; rfl

theorem State.writeAddr_plCtl {s : State} {a : Agent} {l : Fin 64} (h : s.hasAccess a (plBase l + 4) = true)
    (v : Word) : s.writeAddr a (plBase l + 4) v = s.writePlCtl a l v.toNat :=
  State.writeAddr_hasAccess h (regAt_plCtl l) v

theorem State.writeAddr_ulCtl {s : State} {a : Agent} {u : Fin 2} (h : s.hasAccess a (ulBase u + 4) = true)
    (v : Word) : s.writeAddr a (ulBase u + 4) v = s.writeUlCtl u v.toNat :=
  State.writeAddr_hasAccess h (regAt_ulCtl u) v

/-! Words: the bits of what is read, and of a word whose RETRAIN and QCLR are clear. -/

theorem packWord_pair (i a j b : Nat) :
    packWord [(i, a), (j, b)] = BitVec.ofNat 32 (a * 2 ^ i + b * 2 ^ j) := by
  simp [packWord]

theorem readPl_ctl_toNat (s : State) (l : Nat) :
    (s.readPl l .ctl).toNat = b2n (s.link l).disable + 256 * (s.link l).ceLog2.toNat := by
  have hd : b2n (s.link l).disable ≤ 1 := by cases (s.link l).disable <;> decide
  have hc := (s.link l).ceLog2.isLt
  rw [State.readPl, packWord_pair, BitVec.toNat_ofNat]
  omega

theorem readUl_ctl_toNat (s : State) (u : Nat) : (s.readUl u .ctl).toNat = b2n (s.port u).disable := by
  cases h : (s.port u).disable <;> rw [State.readUl, h] <;> rfl

theorem bit_zero_eq (v : Nat) : bit v 0 = decide (v % 2 = 1) := by
  rw [Bool.eq_iff_iff, bit_iff, decide_eq_true_iff]
  omega

theorem bit_zero_of_mod {v : Nat} {b : Bool} (h : v % 2 = b2n b) : bit v 0 = b := by
  rw [bit_zero_eq, h]
  cases b <;> rfl

theorem bit_clear_of_mod_eight {v i : Nat} (h : v % 8 < 2) (hi : i = 1 ∨ i = 2) : bit v i = false := by
  rw [← Bool.not_eq_true, bit_iff]
  obtain rfl | rfl := hi <;> omega

/-- RETRAIN or QCLR set in a word that has neither: that one alone is set. -/
theorem bit_withBit_order {w : Word} {i j : Nat} (hw : w.toNat % 8 < 2)
    (hj : j = 1 ∨ j = 2) : bit (withBit w i).toNat j = decide (i = j) := by
  by_cases hij : i = j
  · rw [hij, bit_withBit (by omega), decide_eq_true rfl]
  · rw [bit_withBit_of_ne w hij, bit_clear_of_mod_eight hw hj, decide_eq_false hij]

/-! PL_CE_LOG2 (R258). -/

/-- PL_CE_LOG2 takes `n`, or keeps its value and records 0x8021. -/
def State.setCeLog2 (s : State) (g : Agent) (l n : Nat) : State :=
  if 10 ≤ n ∧ n ≤ 30 then s.updLink l fun k => { k with ceLog2 := BitVec.ofNat 5 n }
  else s.event 0x8021 (s.uid g)

section
variable (s : State) (g : Agent) (l n : Nat)

@[simp] theorem State.setCeLog2_bu : (s.setCeLog2 g l n).bu = s.bu := by
  unfold State.setCeLog2
  split <;> simp [State.event]

@[simp] theorem State.setCeLog2_mod : (s.setCeLog2 g l n).mod = s.mod := by
  unfold State.setCeLog2
  split <;> simp [State.event]

@[simp] theorem State.setCeLog2_disable : ((s.setCeLog2 g l n).link l).disable = (s.link l).disable := by
  unfold State.setCeLog2
  split <;> simp [State.event]

@[simp] theorem State.setCeLog2_quar : ((s.setCeLog2 g l n).link l).quar = (s.link l).quar := by
  unfold State.setCeLog2
  split <;> simp [State.event]

/-- PL_CTL's field, then its bits in turn. -/
theorem State.writePlCtl_eq (v : Nat) : s.writePlCtl g l v =
    (let t := (s.setCeLog2 g l (v / 256 % 32)).plDisable l (bit v 0)
     let u := if bit v 1 then t.plRetrain l else t
     if bit v 2 then u.plQclr l else u) := by
  have hfield : fld v 8 5 = v / 256 % 32 := rfl
  have hword : BitVec.ofNat 5 (v / 256 % 32) = BitVec.ofNat 5 (v / 256) := by
    apply BitVec.eq_of_toNat_eq
    simp
  rw [State.writePlCtl, State.field_decide, hfield, ← hword]
  rfl

end

/-! DISABLE and RETRAIN of a link (R258). -/

section
variable {s : State} {l : Nat}

theorem State.plDisable_same : s.plDisable l (s.link l).disable = s := by
  simp [State.plDisable]

theorem State.plDisable_off (h : (s.link l).disable = false) :
    s.plDisable l true = s.withService l fun s =>
      (s.updLink l fun k => { k with disable := true, state := 0, lanes := 0 }).emit
        (.control l true true) := by
  simp [State.plDisable, h]

theorem State.plDisable_on (h : (s.link l).disable = true) :
    s.plDisable l false =
      ((s.updLink l fun k => { k with disable := false }).emit (.control l false true)).plRetrain l := by
  simp [State.plDisable, h]

theorem State.plRetrain_trains (h8 : s.stepDone 8 = true) (hc : s.connected l = true)
    (hd : (s.link l).disable = false) : s.plRetrain l = s.withService l fun s =>
      s.updLink l fun k => { k with state := 1, replayCount := 0, fails := 0 } := by
  simp [State.plRetrain, h8, hc, hd]

theorem State.plRetrain_idle
    (h : (s.link l).disable = true ∨ s.stepDone 8 = false ∨ s.connected l = false) :
    s.plRetrain l = s := by
  rw [State.plRetrain, if_neg]
  rcases h with h | h | h <;> simp [h]

/-- A link that comes back trains, where there is something to train. -/
theorem State.plDisable_on_trains (h : (s.link l).disable = true) (h8 : s.stepDone 8 = true)
    (hc : s.connected l = true) : s.plDisable l false =
      ((s.updLink l fun k => { k with disable := false }).emit (.control l false true)).withService l fun s =>
        s.updLink l fun k => { k with state := 1, replayCount := 0, fails := 0 } :=
  (State.plDisable_on h).trans (State.plRetrain_trains h8 hc (by simp))

theorem State.plDisable_on_idle (h : (s.link l).disable = true)
    (hidle : s.stepDone 8 = false ∨ s.connected l = false) : s.plDisable l false =
      (s.updLink l fun k => { k with disable := false }).emit (.control l false true) :=
  (State.plDisable_on h).trans (State.plRetrain_idle (Or.inr hidle))

/-- Bring-up and connection look at what no link's own registers hold. -/
theorem State.stepDone_congr {t : State} (h : t.bu = s.bu) (n : Nat) : t.stepDone n = s.stepDone n := by
  rw [State.stepDone, State.stepDone, h]

theorem State.dimSize_congr {t : State} (h : t.mod = s.mod) (n : Nat) : t.dimSize n = s.dimSize n := by
  unfold State.dimSize
  rw [h]

theorem State.connected_congr {t : State} (h : t.mod = s.mod) : t.connected l = s.connected l := by
  rw [State.connected, State.connected, State.dimSize_congr h, State.tileCut, State.tileCut, h]

end

/-! The rows of PL_CTL. -/

section
variable {a : Agent} {s : State} {l : Fin 64} (h : s.hasAccess a (plBase l + 4) = true)
include h

/-- A word whose RETRAIN and QCLR are clear. -/
theorem exec_plDisable {v : Word} (hv : v.toNat % 8 < 2) : exec (.plDisable a l v) s =
    .next ((s.setCeLog2 a l (v.toNat / 256 % 32)).plDisable l (bit v.toNat 0)) := by
  refine congrArg Host.Outcome.next ?_
  rw [State.writeAddr_plCtl h, State.writePlCtl_eq, bit_clear_of_mod_eight hv (Or.inl rfl),
    bit_clear_of_mod_eight hv (Or.inr rfl)]
  rfl

/-- What is read, with a bit set beside DISABLE: the field and DISABLE stay as they are. -/
theorem State.writeAddr_readPl_withBit {i : Nat} (hi : i = 1 ∨ i = 2) :
    s.writeAddr a (plBase l + 4) (withBit (s.readPl l .ctl) i) =
      (if i = 1 then (s.setCeLog2 a l (s.link l).ceLog2.toNat).plRetrain l
        else (s.setCeLog2 a l (s.link l).ceLog2.toNat).plQclr l) := by
  have hd : b2n (s.link l).disable ≤ 1 := by cases (s.link l).disable <;> decide
  have hword := readPl_ctl_toNat s l
  have hce : (withBit (s.readPl l .ctl) i).toNat / 256 % 32 = (s.link l).ceLog2.toNat := by
    have hfld : (withBit (s.readPl l .ctl) i).toNat / 256 % 32 = (s.readPl l .ctl).toNat / 256 % 32 :=
      fld_withBit (s.readPl l .ctl) i 8 5 (by omega)
    have hlt := (s.link l).ceLog2.isLt
    omega
  have hzero : bit (withBit (s.readPl l .ctl) i).toNat 0 = (s.link l).disable := by
    rw [bit_withBit_of_ne _ (by omega)]
    exact bit_zero_of_mod (by omega)
  have hsame : (s.setCeLog2 a l (s.link l).ceLog2.toNat).plDisable l (s.link l).disable =
      s.setCeLog2 a l (s.link l).ceLog2.toNat := by
    rw [← State.setCeLog2_disable s a, State.plDisable_same]
  rw [State.writeAddr_plCtl h, State.writePlCtl_eq, hce, hzero, hsame,
    bit_withBit_order (by omega) (Or.inl rfl), bit_withBit_order (by omega) (Or.inr rfl)]
  obtain rfl | rfl := hi <;> rfl

theorem exec_plRetrain : exec (.plRetrain a l) s =
    .next ((s.setCeLog2 a l (s.link l).ceLog2.toNat).plRetrain l) :=
  congrArg Host.Outcome.next (State.writeAddr_readPl_withBit h (Or.inl rfl))

theorem exec_plQclr : exec (.plQclr a l) s =
    .next ((s.setCeLog2 a l (s.link l).ceLog2.toNat).plQclr l) :=
  congrArg Host.Outcome.next (State.writeAddr_readPl_withBit h (Or.inr rfl))

end

/-! The rows of UL_CTL. -/

section
variable {s : State} {u : Nat}

theorem State.ulDisable_same : s.ulDisable u (s.port u).disable = s := by
  simp [State.ulDisable]

theorem State.ulDisable_off (h : (s.port u).disable = false) :
    s.ulDisable u true = (s.updPort u fun x => { x with disable := true }).portDown u 0 := by
  simp [State.ulDisable, h]

theorem State.ulDisable_on (h : (s.port u).disable = true) :
    s.ulDisable u false = (s.updPort u fun x => { x with disable := false }).ulRetrain u := by
  simp [State.ulDisable, h]

theorem State.ulRetrain_trains (hd : (s.port u).disable = false) (hc : s.tileCut (3 * u) = false) :
    s.ulRetrain u = s.portDown u 1 := by
  simp [State.ulRetrain, tileOfPort, hd, hc]

theorem State.ulRetrain_idle (h : (s.port u).disable = true ∨ s.tileCut (3 * u) = true) :
    s.ulRetrain u = s := by
  rw [State.ulRetrain, if_pos]
  simpa [tileOfPort] using h

theorem State.ulDisable_on_trains (h : (s.port u).disable = true) (hc : s.tileCut (3 * u) = false) :
    s.ulDisable u false = (s.updPort u fun x => { x with disable := false }).portDown u 1 :=
  (State.ulDisable_on h).trans (State.ulRetrain_trains (by simp) hc)

theorem State.ulDisable_on_idle (h : (s.port u).disable = true) (hc : s.tileCut (3 * u) = true) :
    s.ulDisable u false = s.updPort u fun x => { x with disable := false } :=
  (State.ulDisable_on h).trans (State.ulRetrain_idle (Or.inr hc))

end

section
variable {a : Agent} {s : State} {u : Fin 2} (h : s.hasAccess a (ulBase u + 4) = true)
include h

theorem exec_ulDisable {v : Word} (hv : v.toNat % 8 < 2) :
    exec (.ulDisable a u v) s = .next (s.ulDisable u (bit v.toNat 0)) := by
  refine congrArg Host.Outcome.next ?_
  rw [State.writeAddr_ulCtl h, State.writeUlCtl, bit_clear_of_mod_eight hv (Or.inl rfl),
    bit_clear_of_mod_eight hv (Or.inr rfl)]
  rfl

theorem State.writeAddr_readUl_withBit {i : Nat} (hi : i = 1 ∨ i = 2) :
    s.writeAddr a (ulBase u + 4) (withBit (s.readUl u .ctl) i) =
      if i = 1 then s.ulRetrain u else s.ulQclr u := by
  have hd : b2n (s.port u).disable ≤ 1 := by cases (s.port u).disable <;> decide
  have hword := readUl_ctl_toNat s u
  have hzero : bit (withBit (s.readUl u .ctl) i).toNat 0 = (s.port u).disable := by
    rw [bit_withBit_of_ne _ (by omega)]
    exact bit_zero_of_mod (by omega)
  rw [State.writeAddr_ulCtl h, State.writeUlCtl, hzero, State.ulDisable_same,
    bit_withBit_order (by omega) (Or.inl rfl), bit_withBit_order (by omega) (Or.inr rfl)]
  obtain rfl | rfl := hi <;> rfl

theorem exec_ulRetrain : exec (.ulRetrain a u) s = .next (s.ulRetrain u) :=
  congrArg Host.Outcome.next (State.writeAddr_readUl_withBit h (Or.inl rfl))

theorem exec_ulQclr : exec (.ulQclr a u) s = .next (s.ulQclr u) :=
  congrArg Host.Outcome.next (State.writeAddr_readUl_withBit h (Or.inr rfl))

end

/-- Settles O38: each row's word, then what its one bit does. -/
theorem linkControlRegistersComplete : Obligations.LinkControlRegistersComplete := by
  unfold Obligations.LinkControlRegistersComplete
  intro a s
  refine And.intro ?links ?ports
  case links =>
    intro l h ce same train
    have h8 (n : Nat) : (ce n).stepDone 8 = s.stepDone 8 := State.stepDone_congr (s.setCeLog2_bu a l n) 8
    have hcon (n : Nat) : (ce n).connected l = s.connected l :=
      State.connected_congr (s.setCeLog2_mod a l n)
    have hdis (n : Nat) : ((ce n).link l).disable = (s.link l).disable := s.setCeLog2_disable a l n
    have hretrain : exec (.plRetrain a l) s = .next (same.plRetrain l) := exec_plRetrain h
    have hqclr : exec (.plQclr a l) s = .next (same.plQclr l) := exec_plQclr h
    have hquar : (same.link l).quar = (s.link l).quar := s.setCeLog2_quar a l _
    refine ⟨fun v hv => ?disable, fun hd hstep hc => ?retrain, fun hidle => ?idle, fun hq => ?clear,
      fun hq => ?clean⟩
    case disable =>
      intro t
      have hrow : exec (.plDisable a l v) s = .next (t.plDisable l (bit v.toNat 0)) := exec_plDisable h hv
      rw [hrow]
      refine ⟨fun hbit => ?same, fun hbit hd => ?off, fun hbit hd hstep hc => ?on,
        fun hbit hd hidle => ?down⟩
      case same => rw [bit_zero_of_mod hbit, ← hdis, State.plDisable_same]
      case off => rw [bit_zero_of_mod (b := true) hbit, State.plDisable_off ((hdis _).trans hd)]
      case on =>
        rw [bit_zero_of_mod (b := false) hbit,
          State.plDisable_on_trains ((hdis _).trans hd) ((h8 _).trans hstep) ((hcon _).trans hc)]
      case down =>
        rw [bit_zero_of_mod (b := false) hbit,
          State.plDisable_on_idle ((hdis _).trans hd) (hidle.imp (h8 _).trans (hcon _).trans)]
    case retrain =>
      rw [hretrain, State.plRetrain_trains ((h8 _).trans hstep) ((hcon _).trans hc) ((hdis _).trans hd)]
    case idle =>
      rw [hretrain, State.plRetrain_idle (hidle.imp (hdis _).trans (Or.imp (h8 _).trans (hcon _).trans))]
    case clear => rw [hqclr, State.plQclr, if_pos (hquar.trans hq)]
    case clean => rw [hqclr, State.plQclr, if_neg (Bool.eq_false_iff.1 (hquar.trans hq))]
  case ports =>
    intro u h
    refine ⟨fun v hv => ?disable, fun hd hc => ?retrain, fun hidle => ?idle, fun hq => ?clear,
      fun hq => ?clean⟩
    case disable =>
      rw [exec_ulDisable h hv]
      refine ⟨fun hbit => ?same, fun hbit hd => ?off, fun hbit hd hc => ?on, fun hbit hd hc => ?down⟩
      case same => rw [bit_zero_of_mod hbit, State.ulDisable_same]
      case off => rw [bit_zero_of_mod (b := true) hbit, State.ulDisable_off hd]
      case on => rw [bit_zero_of_mod (b := false) hbit, State.ulDisable_on_trains hd hc]
      case down => rw [bit_zero_of_mod (b := false) hbit, State.ulDisable_on_idle hd hc]
    case retrain => rw [exec_ulRetrain h, State.ulRetrain_trains hd hc]
    case idle => rw [exec_ulRetrain h, State.ulRetrain_idle hidle]
    case clear => rw [exec_ulQclr h, State.ulQclr, if_pos hq]
    case clean => rw [exec_ulQclr h, State.ulQclr, if_neg (Bool.eq_false_iff.1 hq)]

end Sys2Proof.Machine
end

section
/-! SUPPORT. Groups (O45; R260 to R265): what FORM and REFORM do with the member table that they read, how
a forming command ends or commits, and what breaks a group. -/

namespace Sys2Proof.Machine

/-! FORM and REFORM, from the reading of the member table on (R260, R263). -/

/-- The state in which the member table is read: REFORM has broken its group. -/
def State.beforeForm (s : State) (p : Nat) (c : Cmd) (reform : Bool) : State :=
  if reform && s.groupFor p (c.f 0x20 12) then s.breakGroup (c.f 0x20 12) 0x1012 0xFFFF else s

/-- The reading of the member table. -/
def State.readTable (s : State) (p : Nat) (c : Cmd) (reform : Bool) : State × XR (List Byte) :=
  (s.beforeForm p c reform).xread ((s.beforeForm p c reform).helmReq p) (c.va 0x18) (4 * c.f 0x22 9)

/-- The member table's words. -/
def formWords (c : Cmd) (bs : List Byte) : List Nat :=
  (List.range (c.f 0x22 9)).map fun i => bAt bs (4 * i) 4

/-- What the forming command keeps, of the table's bytes and an epoch. -/
def State.formingOf (s : State) (p : Nat) (c : Cmd) (bs : List Byte) (epoch : BitVec 8) (reform : Bool) :
    Forming :=
  { group := c.f 0x20 12, epoch := epoch, members := (formWords c bs).map memberOf
    rank := ((formWords c bs).map memberOf).idxOf ⟨BitVec.ofNat 8 s.coord, BitVec.ofNat 4 p⟩
    hash := listHashOf (c.f 0x20 12) epoch.toNat (c.f 0x22 9) bs, reform := reform, got := [] }

section
variable {s t : State} {p : Nat} {c : Cmd} {reform : Bool} {bs : List Byte}

section
variable (h : s.readTable p c reform = (t, .ok bs))
include h

/-- The rows of R263 in their order, the table read. -/
theorem State.startForm_read : s.startForm p c reform =
    if t.tableBad p (formWords c bs) then t.finish p c (endWith stDeviceFault 0x0204)
    else if reform then
      if t.groupFor p (c.f 0x20 12)
          && ((formWords c bs).map memberOf).isSublist (t.group (c.f 0x20 12)).members then
        t.formStart p c (t.formingOf p c bs ((t.group (c.f 0x20 12)).epoch + 1) true)
      else t.finish p c (endWith stDeviceFault 0x1010)
    else if 4096 ≤ t.groupsUsed then t.finish p c (endWith stBusy 0x1031)
    else if (t.group (c.f 0x20 12)).inUse then t.finish p c (endWith stBusy 0x1032)
    else (t.updGroup (c.f 0x20 12) fun _ =>
        { part := p, members := (t.formingOf p c bs 0 false).members
          rank := (t.formingOf p c bs 0 false).rank, state := .forming }).formStart p c
      (t.formingOf p c bs 0 false) := by
  rw [State.readTable, State.beforeForm] at h
  rw [State.startForm]
  dsimp only
  rw [h]
  cases reform
  case false =>
    simp only [Bool.false_eq_true, if_false]
    rfl
  case true =>
    simp only [if_true]
    rfl

theorem State.startForm_badTable (hbad : t.tableBad p (formWords c bs) = true) :
    s.startForm p c reform = t.finish p c (endWith stDeviceFault 0x0204) := by
  rw [State.startForm_read h, if_pos hbad]

end

section
variable (h : s.readTable p c false = (t, .ok bs)) (hok : t.tableBad p (formWords c bs) = false)
include h hok

/-- FORM with every group id in use. -/
theorem State.startForm_full (hfull : 4096 ≤ t.groupsUsed) :
    s.startForm p c false = t.finish p c (endWith stBusy 0x1031) := by
  rw [State.startForm_read h, hok, if_neg (by decide), if_neg (by decide), if_pos hfull]

/-- FORM of an id that is in use. -/
theorem State.startForm_inUse (hroom : t.groupsUsed < 4096)
    (huse : (t.group (c.f 0x20 12)).inUse = true) :
    s.startForm p c false = t.finish p c (endWith stBusy 0x1032) := by
  rw [State.startForm_read h, hok, if_neg (by decide), if_neg (by decide), if_neg (Nat.not_le.2 hroom),
    if_pos huse]

theorem State.startForm_forms (hroom : t.groupsUsed < 4096)
    (huse : (t.group (c.f 0x20 12)).inUse = false) :
    s.startForm p c false = (t.updGroup (c.f 0x20 12) fun _ =>
      { part := p, members := (t.formingOf p c bs 0 false).members
        rank := (t.formingOf p c bs 0 false).rank, state := .forming }).formStart p c
      (t.formingOf p c bs 0 false) := by
  rw [State.startForm_read h, hok, if_neg (by decide), if_neg (by decide), if_neg (Nat.not_le.2 hroom),
    if_neg (Bool.eq_false_iff.1 huse)]

end

section
variable (h : s.readTable p c true = (t, .ok bs)) (hok : t.tableBad p (formWords c bs) = false)
include h hok

/-- REFORM of no group of the partition's, or with members that the group does not have. -/
theorem State.startForm_notSubgroup (hsub : (t.groupFor p (c.f 0x20 12)
      && ((formWords c bs).map memberOf).isSublist (t.group (c.f 0x20 12)).members) = false) :
    s.startForm p c true = t.finish p c (endWith stDeviceFault 0x1010) := by
  rw [State.startForm_read h, hok, if_neg (by decide), if_pos rfl, if_neg (Bool.eq_false_iff.1 hsub)]

theorem State.startForm_reforms (hsub : (t.groupFor p (c.f 0x20 12)
      && ((formWords c bs).map memberOf).isSublist (t.group (c.f 0x20 12)).members) = true) :
    s.startForm p c true =
      t.formStart p c (t.formingOf p c bs ((t.group (c.f 0x20 12)).epoch + 1) true) := by
  rw [State.startForm_read h, hok, if_neg (by decide), if_pos rfl, if_pos hsub]

end

end

section
variable {p : Fin 16} {q : Fin 64} {slot : BitVec 16} {s : State} {c : Cmd}

theorem exec_form (h : s.rowCmd p q slot.toNat (fun c => isForm 0 c && c.prog == .none) = some c) :
    exec (.form p q slot) s = .next (s.startForm p c false) :=
  State.onCmd_rowCmd h _

theorem exec_reform (h : s.rowCmd p q slot.toNat (fun c => isForm 1 c && c.prog == .none) = some c) :
    exec (.reform p q slot) s = .next (s.startForm p c true) :=
  State.onCmd_rowCmd h _

/-! DISSOLVE (R262, R264). -/

section
variable (h : s.rowCmd p q slot.toNat (fun c => isForm 2 c && c.prog == .none) = some c)
include h

theorem exec_dissolve_notFor (hfor : s.groupFor p (c.f 0x20 12) = false) :
    exec (.dissolve p q slot) s = .next (s.finish p c (endWith stDeviceFault 0x1010)) :=
  (State.onCmd_rowCmd h _).trans (congrArg Host.Outcome.next (if_neg (Bool.eq_false_iff.1 hfor)))

theorem exec_dissolve_frees (hfor : s.groupFor p (c.f 0x20 12) = true) :
    let t := (s.breakGroup (c.f 0x20 12) 0x1012 0xFFFF).forgetEpochs p (c.f 0x20 12) fun _ => false
    exec (.dissolve p q slot) s =
      .next (({ t with groups := SMap.set {} t.groups (c.f 0x20 12) {} }).finish p c (endDone 0)) :=
  (State.onCmd_rowCmd h _).trans (congrArg Host.Outcome.next (if_pos hfor))

end

/-! A forming command: its hashes, its limit and its commit (R261, R263). -/

/-- A silent member ends the command after its limit: the lowest rank that has not sent its hash. -/
theorem exec_groupFormTimeout {f : Forming} {r : Nat}
    (h : s.rowCmd p q slot.toNat (fun c => c.op == opGroupForm) = some c) (hprog : c.prog = .form f)
    (hr : (List.range f.members.length).find? (formWants f) = some r) :
    exec (.groupFormTimeout p q slot) s = .next (s.endForm p c stMemberLost 0x1033 r) := by
  refine congrArg Host.Outcome.next ?_
  rw [h]
  dsimp only
  rw [hprog]
  dsimp only
  rw [hr]
  rfl

end

section
variable {s : State} {p : Nat} {c : Cmd} {f : Forming}

theorem exec_leave {g : BitVec 12} {r : Fin 256} (hr : r.val < (s.group g.toNat).n)
    (hme : r.val ≠ (s.group g.toNat).rank) :
    exec (.leave g r) s = .next (s.breakGroup g.toNat 0x1011 r) :=
  congrArg Host.Outcome.next (if_pos (by simp [hr, hme]))

/-- A hash that the forming command waits for. -/
theorem exec_listHash {g : BitVec 12} {coord : BitVec 8} {hash : Dword}
    (hcmd : s.formingCmd g.toNat = some (p, c, f)) (hwants : formWants f (formRank f coord.toNat) = true) :
    exec (.listHash g coord hash) s = .next (s.formTake p c (formRank f coord.toNat) hash) := by
  refine congrArg Host.Outcome.next ?_
  rw [hcmd]
  exact if_pos hwants

section
variable (hprog : (s.cmdNow p c).prog = .form f) {rank : Nat} {hash : Dword}
include hprog

theorem State.formTake_differs (hne : hash ≠ f.hash) :
    s.formTake p c rank hash = s.endForm p c stDescMismatch 0x1030 hash.toNat := by
  rw [State.formTake, hprog]
  exact if_pos hne

/-- The last hash agrees as the others did. -/
theorem State.formTake_last (hlast : f.got.length + 2 = f.members.length) :
    s.formTake p c rank f.hash =
      (s.updCmd p c fun y => { y with prog := .form { f with got := f.got ++ [(rank, f.hash)] } }).formDone
        p c { f with got := f.got ++ [(rank, f.hash)] } := by
  rw [State.formTake, hprog]
  dsimp only
  rw [if_neg (not_not.2 rfl), if_pos (by simpa using hlast)]

end

/-- A group of one has nobody to send its hash to, and commits at once. -/
theorem State.formStart_alone (hone : f.members.length = 1) (hrank : f.rank = 0) :
    s.formStart p c f = (s.updCmd p c fun y => { y with prog := .form f }).formDone p c f := by
  obtain ⟨m, hm⟩ := List.length_eq_one_iff.1 hone
  rw [State.formStart]
  dsimp only
  rw [if_pos hone, hm, List.zipIdx_singleton, List.foldl_cons, List.foldl_nil, if_pos hrank.symm]

end

/-- Settles O45: the rows of R263 in their order, then what breaks, ends or commits a group. -/
theorem groupsComplete : Obligations.GroupsComplete := by
  unfold Obligations.GroupsComplete
  intro p q slot s c
  refine ⟨?form, ?reform, ?dissolve, fun g r => exec_leave, ?listHash, fun f r => exec_groupFormTimeout,
    fun f => State.formStart_alone, fun f => rfl⟩
  case form =>
    intro hrow g n t bs hread ws ms rank
    have htable : s.readTable p c false = (t, .ok bs) := hread
    rw [exec_form hrow]
    refine ⟨fun hbad => ?badTable, fun hok hfull => ?full, fun hok hroom huse => ?inUse,
      fun hok hroom huse => ?forms⟩
    case badTable => rw [State.startForm_badTable htable hbad]
    case full => rw [State.startForm_full htable hok hfull]
    case inUse => rw [State.startForm_inUse htable hok hroom huse]
    case forms =>
      have hzero : (0 : BitVec 8).toNat = 0 := rfl
      rw [State.startForm_forms htable hok hroom huse, State.formingOf, hzero]
      rfl
  case reform =>
    intro hrow g n s1 t bs hread ws ms epoch
    have htable : s.readTable p c true = (t, .ok bs) := hread
    rw [exec_reform hrow]
    refine ⟨fun hbad => ?badTable, fun hok hsub => ?notSubgroup, fun hok hsub => ?reforms⟩
    case badTable => rw [State.startForm_badTable htable hbad]
    case notSubgroup => rw [State.startForm_notSubgroup htable hok hsub]
    case reforms =>
      rw [State.startForm_reforms htable hok hsub]
      rfl
  case dissolve =>
    exact fun hrow => ⟨exec_dissolve_notFor hrow, exec_dissolve_frees hrow⟩
  case listHash =>
    intro g coord hash f hcmd hprog hwants
    rw [exec_listHash hcmd hwants]
    refine ⟨fun hne => ?differs, fun heq hlast => ?last⟩
    case differs => rw [State.formTake_differs hprog hne]
    case last => rw [heq, State.formTake_last hprog hlast]

end Sys2Proof.Machine
end

section
/-! SUPPORT. The start of collectives (O46; R267, R273, R274, R280, R282, R284): the rows that hand a
COLLECTIVE to the collective engine, and its admission check by check. -/

namespace Sys2Proof.Machine

section
variable {p : Fin 16} {q : Fin 64} {slot : BitVec 16} {s : State} {c : Cmd}

/-- The row of a COLLECTIVE leaves it waiting for its admission. -/
theorem State.onNew_isColl {op : Nat}
    (h : s.rowCmd p q slot.toNat (fun c => c.op == opCollective && colOp c == op && c.prog == .none) =
      some c) : s.onNew p q slot (isColl op) (fun c => s.startColl p.val c) = .next (s.startColl p c) :=
  State.onCmd_rowCmd h _

/-- COLLECTIVE_ADMIT lets what was held go on, and takes the command whose turn it is. -/
theorem exec_collectiveAdmit (hen : s.enabled p = true)
    (hnext : (s.resumeGroups p).nextAdmit p = some c) (hcoll : c.coll.isSome = true) :
    exec (.collectiveAdmit p) s = .next ((s.resumeGroups p).admitCmd p c) := by
  refine congrArg Host.Outcome.next ?_
  rw [hen, if_neg (by decide)]
  dsimp only
  rw [hnext]
  exact if_pos hcoll

end

/-! The checks of an admission, in the order of log entry 22. -/

/-- The ordinal is not above the last one admitted. -/
def State.ordLate (s : State) (p : Nat) (c : Cmd) : Bool :=
  (s.part p).col.any && decide (gOrd c ≤ (s.part p).col.last.toNat)

/-- Another member has abandoned the command's ordinal. -/
def State.ordGone (s : State) (p : Nat) (c : Cmd) : Bool :=
  (s.part p).abandoned.contains (gGroup c, (s.group (gGroup c)).epoch.toNat, gOrd c)

/-- The ordinal counts as admitted, and those before it are forgotten. -/
def State.ordTaken (s : State) (p : Nat) (c : Cmd) : State :=
  s.updPart p fun x => { x with
    col := { x.col with last := BitVec.ofNat 48 (gOrd c), any := true }
    abandoned := x.abandoned.filter fun e => decide (gOrd c < e.2.2) }

section
variable {s : State} {p : Nat} {c : Cmd}

theorem State.admitCmd_noGroup (h : s.groupFor p (gGroup c) = false) :
    s.admitCmd p c = s.endGroup p c stDeviceFault 0x1010 :=
  if_pos (by rw [h]; rfl)

section
variable (hfor : s.groupFor p (gGroup c) = true)
include hfor

theorem State.admitCmd_broken (h : (s.group (gGroup c)).state = .broken) :
    s.admitCmd p c = s.endGroup p c stMemberLost 0x1011 (some (s.group (gGroup c)).lostRank) := by
  simp [State.admitCmd, hfor, h]

variable (hst : (s.group (gGroup c)).state ≠ .broken)
include hst

/-- The checks that are left in a group that stands. -/
theorem State.admitCmd_standing : s.admitCmd p c =
    if c.op == opCollective && collSizeBad c (s.group (gGroup c)).n then
      s.endGroup p c stDeviceFault 0x0204
    else if s.ordLate p c then
      (s.eventP 0x3023 (s.uPartHelm p) p).endGroup p c stOrderStall 0x1001 none false (some s.seqNext)
    else if c.op == opCollective && s.stagingBad p then s.endGroup p c stBusy 0x1022
    else if c.op == opCollective && s.stagingFull p then s
    else if s.ordGone p c then (s.ordTaken p c).endGroup p c stOrderStall 0x1003
    else if c.op == opCollective then
      ((s.ordTaken p c).takeSlot p c).admitColl p c (s.group (gGroup c)).epoch.toNat
    else if isLoad c then (s.ordTaken p c).admitLoad p c (s.group (gGroup c)).epoch.toNat
    else (s.ordTaken p c).admitLoom p c (s.group (gGroup c)).epoch.toNat := by
  rw [State.admitCmd]
  dsimp only
  rw [hfor, if_neg (by decide), if_neg (by simpa using hst)]
  rfl

/-- ROOT and the sizes of a COLLECTIVE come first (R267). -/
theorem State.admitCmd_sizeBad (hop : c.op = opCollective)
    (hsize : collSizeBad c (s.group (gGroup c)).n = true) :
    s.admitCmd p c = s.endGroup p c stDeviceFault 0x0204 := by
  rw [State.admitCmd_standing hfor hst, if_pos (by simp [hop, hsize])]

variable (hsize : c.op = opCollective → collSizeBad c (s.group (gGroup c)).n = false)
include hsize

theorem State.admitCmd_late (hlate : s.ordLate p c = true) : s.admitCmd p c =
    (s.eventP 0x3023 (s.uPartHelm p) p).endGroup p c stOrderStall 0x1001 none false (some s.seqNext) := by
  rw [State.admitCmd_standing hfor hst, if_neg (by simpa using hsize), if_pos hlate]

variable (hlate : s.ordLate p c = false)
include hlate

/-- No staging core, or one that is not the partition's (R280). -/
theorem State.admitCmd_stagingBad (hop : c.op = opCollective) (hbad : s.stagingBad p = true) :
    s.admitCmd p c = s.endGroup p c stBusy 0x1022 := by
  rw [State.admitCmd_standing hfor hst, if_neg (by simpa using hsize), if_neg (Bool.eq_false_iff.1 hlate),
    if_pos (by simp [hop, hbad])]

variable (hstage : c.op = opCollective → s.stagingBad p = false)
include hstage

theorem State.admitCmd_stagingFull (hop : c.op = opCollective) (hfull : s.stagingFull p = true) :
    s.admitCmd p c = s := by
  rw [State.admitCmd_standing hfor hst, if_neg (by simpa using hsize), if_neg (Bool.eq_false_iff.1 hlate),
    if_neg (by simpa using hstage), if_pos (by simp [hop, hfull])]

variable (hroom : c.op = opCollective → s.stagingFull p = false)
include hroom

/-- What is left once the checks hold: an ordinal that another member has abandoned, and the admission. -/
theorem State.admitCmd_checked : s.admitCmd p c =
    if s.ordGone p c then (s.ordTaken p c).endGroup p c stOrderStall 0x1003
    else if c.op == opCollective then
      ((s.ordTaken p c).takeSlot p c).admitColl p c (s.group (gGroup c)).epoch.toNat
    else if isLoad c then (s.ordTaken p c).admitLoad p c (s.group (gGroup c)).epoch.toNat
    else (s.ordTaken p c).admitLoom p c (s.group (gGroup c)).epoch.toNat := by
  rw [State.admitCmd_standing hfor hst, if_neg (by simpa using hsize), if_neg (Bool.eq_false_iff.1 hlate),
    if_neg (by simpa using hstage), if_neg (by simpa using hroom)]

theorem State.admitCmd_gone (hgone : s.ordGone p c = true) :
    s.admitCmd p c = (s.ordTaken p c).endGroup p c stOrderStall 0x1003 := by
  rw [State.admitCmd_checked hfor hst hsize hlate hstage hroom, if_pos hgone]

variable (hgone : s.ordGone p c = false)
include hgone

theorem State.admitCmd_collective (hop : c.op = opCollective) : s.admitCmd p c =
    ((s.ordTaken p c).takeSlot p c).admitColl p c (s.group (gGroup c)).epoch.toNat := by
  rw [State.admitCmd_checked hfor hst hsize hlate hstage hroom, if_neg (Bool.eq_false_iff.1 hgone),
    if_pos (by simpa using hop)]

/-- A LOAD or a LOOM_MOVE. -/
theorem State.admitCmd_other (hop : c.op ≠ opCollective) : s.admitCmd p c =
    if isLoad c then (s.ordTaken p c).admitLoad p c (s.group (gGroup c)).epoch.toNat
    else (s.ordTaken p c).admitLoom p c (s.group (gGroup c)).epoch.toNat := by
  rw [State.admitCmd_checked hfor hst hsize hlate hstage hroom, if_neg (Bool.eq_false_iff.1 hgone),
    if_neg (by simpa using hop)]

end

end

/-- Settles O46: each row's command waits; the admission's checks in their order. -/
theorem collectivesStart : Obligations.CollectivesStart := by
  unfold Obligations.CollectivesStart
  refine And.intro ?rows ?admission
  case rows =>
    intro p q slot s c e he hrow
    simp only [List.mem_cons, List.not_mem_nil, or_false] at he
    obtain rfl | rfl | rfl | rfl | rfl | rfl := he
    all_goals exact State.onNew_isColl hrow
  case admission =>
    intro p s c hen t g last late gone u hnext hcoll
    rw [exec_collectiveAdmit hen hnext hcoll]
    refine ⟨fun hfor => ?noGroup, fun hfor hst => ?broken, fun hfor hst hop => ?collective,
      fun hfor hst hop => ?other⟩
    case noGroup => rw [State.admitCmd_noGroup hfor]
    case broken => rw [State.admitCmd_broken hfor hst]
    case collective =>
      refine ⟨fun hsize => ?sizeBad, fun hsize hlate => ?late, fun hsize hlate hbad => ?stagingBad,
        fun hsize hlate hbad hfull => ?stagingFull,
        fun hsize hlate hbad hfull => ⟨fun hgone => ?gone, fun hgone => ?admitted⟩⟩
      case sizeBad => rw [State.admitCmd_sizeBad hfor hst hop hsize]
      case late => rw [State.admitCmd_late hfor hst (fun _ => hsize) hlate]
      case stagingBad => rw [State.admitCmd_stagingBad hfor hst (fun _ => hsize) hlate hop hbad]
      case stagingFull =>
        rw [State.admitCmd_stagingFull hfor hst (fun _ => hsize) hlate (fun _ => hbad) hop hfull]
      case gone =>
        rw [State.admitCmd_gone hfor hst (fun _ => hsize) hlate (fun _ => hbad) (fun _ => hfull) hgone]
        rfl
      case admitted =>
        rw [State.admitCmd_collective hfor hst (fun _ => hsize) hlate (fun _ => hbad) (fun _ => hfull) hgone
          hop]
        rfl
    case other =>
      have hnot {P : Prop} (heq : c.op = opCollective) : P := absurd heq hop
      refine ⟨fun hlate => ?late, fun hlate hgone => ?gone, fun hlate hgone => ?admitted⟩
      case late => rw [State.admitCmd_late hfor hst hnot hlate]
      case gone =>
        rw [State.admitCmd_gone hfor hst hnot hlate hnot hnot hgone]
        rfl
      case admitted =>
        rw [State.admitCmd_other hfor hst hnot hlate hnot hnot hgone hop]
        rfl

end Sys2Proof.Machine
end

section
/-! SUPPORT. The messages of a collective's other members (O47; R273, R275 to R278, R281, R282, R284, R382):
what each does to the command that it names, or for one that this member has not come to. -/

namespace Sys2Proof.Machine

section
variable {p : Fin 16} {g : GroupName} {ord : BitVec 48} {s : State} {c : Cmd}

/-- A message of another epoch of the group names no command (R275). -/
theorem State.epochCmd_otherEpoch {p : Nat} (h : (s.group g.id.toNat).epoch ≠ g.epoch) (f : Cmd → Bool) :
    s.epochCmd p g ord f = none := by
  simp [State.epochCmd, h]

/-! Headers (R275, R277). -/

/-- One of an ordinal that this member has not come to is kept, once for each rank. -/
theorem exec_collectiveHeader_early {h : CollHeader} (hnone : s.epochCmd p g ord cmdAdmitted = none)
    (hahead : s.ordAhead p ord = true)
    (hnew : ((s.part p).early.any fun e => e.1 == g.id.toNat && e.2.1 == g.epoch.toNat
      && e.2.2.1 == ord.toNat && e.2.2.2.rank == h.rank) = false) :
    exec (.collectiveHeader p g ord h) s = .next (s.updPart p fun x => { x with
      early := x.early ++ [(g.id.toNat, g.epoch.toNat, ord.toNat, h)] }) := by
  refine congrArg Host.Outcome.next ?_
  rw [hnone]
  exact if_neg (by simp [hahead, hnew])

theorem exec_collectiveHeader_past {h : CollHeader} (hnone : s.epochCmd p g ord cmdAdmitted = none)
    (hpast : s.ordAhead p ord = false) : exec (.collectiveHeader p g ord h) s = .next s := by
  refine congrArg Host.Outcome.next ?_
  rw [hnone]
  exact if_pos (by rw [hpast]; rfl)

theorem exec_collectiveHeader (hcmd : s.epochCmd p g ord cmdAdmitted = some c) (h : CollHeader) :
    exec (.collectiveHeader p g ord h) s = .next (s.takeHeader p c h) := by
  refine congrArg Host.Outcome.next ?_
  rw [hcmd]

/-- The first header of a rank counts in the header phase. -/
theorem State.takeHeader_counts {p : Nat} {h : CollHeader} {k : Coll} (hk : s.collNow p c = some k)
    (hphase : k.phase = .header) (hrank : h.rank < (s.group k.group).n)
    (hnew : (k.headers.any fun x => x.rank == h.rank) = false) :
    s.takeHeader p c h = (s.updColl p c fun k => { k with headers := k.headers ++ [h] }).headersDone p c := by
  rw [State.takeHeader, hk]
  exact if_neg (by simp [hphase, hnew, Nat.not_le.2 hrank])

/-! Chunks and batches (R276, R278). -/

section
variable {chunk : Nat} {data : ChunkData}

theorem exec_collectiveChunk_none (hnone : s.epochCmd p g ord cmdAdmitted = none) :
    exec (.collectiveChunk p g ord chunk data) s = .next s := by
  refine congrArg Host.Outcome.next ?_
  rw [hnone]

variable (hcmd : s.epochCmd p g ord cmdAdmitted = some c)
include hcmd

theorem exec_collectiveChunk_data (hphase : cmdPhase c = .data) :
    exec (.collectiveChunk p g ord chunk data) s =
      .next ((s.takeChunk p c chunk data).groupStep p c) := by
  refine congrArg Host.Outcome.next ?_
  rw [hcmd]
  exact if_pos (by rw [hphase]; rfl)

theorem exec_collectiveChunk_kept (hphase : cmdPhase c ≠ .data) :
    exec (.collectiveChunk p g ord chunk data) s =
      .next (s.updColl p c fun k => { k with inbox := k.inbox ++ [(chunk, data)] }) := by
  refine congrArg Host.Outcome.next ?_
  rw [hcmd]
  exact if_neg (by simpa using hphase)

end

section
variable {batch : Nat} {es : List (BitVec 16)}

theorem exec_exponentBatch_none
    (hnone : s.epochCmd p g ord (fun c => cmdAdmitted c && isSumRed c && c.op == opCollective) = none) :
    exec (.exponentBatch p g ord batch es) s = .next s := by
  refine congrArg Host.Outcome.next ?_
  rw [hnone]

/-- A batch is kept, and in the data phase what it completes goes on. -/
theorem exec_exponentBatch
    (hcmd : s.epochCmd p g ord (fun c => cmdAdmitted c && isSumRed c && c.op == opCollective) = some c) :
    let t := s.updColl p c fun k => { k with batchIn := k.batchIn ++ [(batch, es)] }
    exec (.exponentBatch p g ord batch es) s =
      .next (if cmdPhase c == .data then (t.drainAll p c).groupStep p c else t) := by
  refine congrArg Host.Outcome.next ?_
  rw [hcmd]

end

/-! Limits, ABANDON and KEEP_ALIVE (R281, R282, R284, R382). -/

section
variable {g : BitVec 12}

/-- A condition given in another form picks the same command. -/
theorem State.groupCmd_of_eq {p n o : Nat} {f f' : Cmd → Bool} (h : s.groupCmd p n o f = some c)
    (hf : ∀ c, f' c = f c) : s.groupCmd p n o f' = some c := by
  rw [funext hf, h]

/-- A command stalls in its data phase, or before its own header. -/
theorem exec_collectiveStallTimeout
    (hcmd : s.groupCmd p g.toNat ord.toNat (fun c => !isLoad c && (cmdPhase c == .data
      || (cmdPhase c == .header && (c.coll.map fun k =>
        !(k.headers.any fun h => h.rank == (s.group k.group).rank)).getD false))) = some c) :
    exec (.collectiveStallTimeout p g ord) s = .next (s.endGroup p c stOrderStall 0x1002 none true) := by
  refine congrArg Host.Outcome.next ?_
  rw [State.groupCmd_of_eq hcmd fun c => by cases c.coll <;> rfl]

theorem exec_headerTimeout
    (hcmd : s.groupCmd p g.toNat ord.toNat (fun c => cmdPhase c == .header) = some c) :
    exec (.headerTimeout p g ord) s = .next (s.endGroup p c stOrderStall 0x1004 none true) := by
  refine congrArg Host.Outcome.next ?_
  rw [hcmd]

theorem exec_keepAlive {rank : Fin 256} (hrank : rank.val < (s.group g.toNat).n)
    (hcmd : s.groupCmd p g.toNat ord.toNat (fun c => isLoomGroup c && cmdPhase c == .data) = some c) :
    exec (.keepAlive p g ord rank) s = .next (s.groupStep p c) := by
  refine congrArg Host.Outcome.next ?_
  simp only [hrank, decide_true, Bool.and_true]
  rw [hcmd]

end

section
variable {rank : Fin 256} (hrank : rank.val < (s.group g.id.toNat).n)
  (hother : rank.val ≠ (s.group g.id.toNat).rank)
include hrank hother

/-- A live command that another member abandons ends at once. -/
theorem exec_abandon_live (hcmd : s.epochCmd p g ord (fun _ => true) = some c) :
    exec (.abandon p g ord rank) s = .next (s.endGroup p c stOrderStall 0x1003) := by
  refine congrArg Host.Outcome.next ?_
  rw [if_neg (by simp [hrank, hother]), hcmd]

/-- One that this member has not come to is noted, once. -/
theorem exec_abandon_ahead (hnone : s.epochCmd p g ord (fun _ => true) = none)
    (hahead : s.ordAhead p ord = true)
    (hnew : (s.part p).abandoned.contains (g.id.toNat, g.epoch.toNat, ord.toNat) = false) :
    exec (.abandon p g ord rank) s = .next (s.updPart p fun x => { x with
      abandoned := x.abandoned ++ [(g.id.toNat, g.epoch.toNat, ord.toNat)] }) := by
  refine congrArg Host.Outcome.next ?_
  rw [if_neg (by simp [hrank, hother]), hnone]
  exact if_pos (by rw [hahead, hnew]; rfl)

end

end

/-- Settles O47: each message by the command that it names, or by the ordinals that are still to come. -/
theorem collectiveMessagesComplete : Obligations.CollectiveMessagesComplete := by
  unfold Obligations.CollectiveMessagesComplete
  intro p g epoch ord s c found named
  refine ⟨fun h => exec_collectiveHeader_early, fun h => exec_collectiveHeader_past, ?header, ?otherEpoch,
    fun chunk data hcmd => ⟨exec_collectiveChunk_data hcmd, exec_collectiveChunk_kept hcmd⟩, ?batch,
    exec_collectiveStallTimeout, exec_headerTimeout, fun rank hrank hother =>
      ⟨exec_abandon_live hrank hother, exec_abandon_ahead hrank hother⟩, fun rank => exec_keepAlive⟩
  case header =>
    intro h k hcmd hk hphase hrank hnew
    rw [exec_collectiveHeader hcmd, State.takeHeader_counts hk hphase hrank hnew]
  case otherEpoch =>
    exact fun chunk data batch es hne => ⟨exec_collectiveChunk_none (State.epochCmd_otherEpoch hne _),
      exec_exponentBatch_none (State.epochCmd_otherEpoch hne _)⟩
  case batch =>
    intro batch es hcmd t
    rw [exec_exponentBatch hcmd]
    exact ⟨fun hphase => by rw [if_pos (by rw [hphase]; rfl)],
      fun hphase => by rw [if_neg (by simpa using hphase)]⟩

end Sys2Proof.Machine
end

section
/-! SUPPORT. Arriving packets and acknowledgements (O60; R243 to R247, R251, R256, R257): what the link layer
does with a flit, by its CRC, the rules of the protocol and its sequence number. -/

namespace Sys2Proof.Machine

section
variable {s : State} {l : Nat} {body : List Byte} {crc : Word} {credit : Bool}

theorem State.takeFlit_badCrc (h : bodyOk body crc = false) : s.takeFlit l body crc credit =
    (s.updLink l fun k => { k with crcFail := satInc k.crcFail, rxDiscard := true }).emit
      (.nack (uLink l) (some (s.link l).rxNext.toNat) 0x01) :=
  if_pos (by rw [h]; rfl)

variable (h : bodyOk body crc = true)
include h

theorem State.takeFlit_violates {r : Nat} (hbad : s.flitBad l (readFlit body) credit = some r) :
    s.takeFlit l body crc credit = s.violation l (readFlit body).seq.toNat r := by
  simp [State.takeFlit, h, hbad]

variable (hok : s.flitBad l (readFlit body) credit = none) {t : State}
  (ht : (s.ackThrough l (readFlit body).ack).commitAcked = t)
include hok ht

/-- A flit that the protocol allows frees what it acknowledges; then its own number decides. -/
theorem State.takeFlit_allowed : s.takeFlit l body crc credit =
    if !sequenced (readFlit body) then t
    else if (readFlit body).seq == (t.link l).rxNext then
      ((t.updLink l fun k => { k with rxNext := k.rxNext + 1, rxDiscard := false }).emit
        (.ack l (readFlit body).seq.toNat)).forward l (readFlit body)
    else if repeats (t.link l) (readFlit body) then t.emit (.ack l ((t.link l).rxNext - 1).toNat)
    else t := by
  subst ht
  rw [State.takeFlit]
  dsimp only
  rw [h, if_neg (by decide), hok]

theorem State.takeFlit_unsequenced (hseq : sequenced (readFlit body) = false) :
    s.takeFlit l body crc credit = t := by
  rw [State.takeFlit_allowed h hok ht, if_pos (by rw [hseq]; rfl)]

variable (hseq : sequenced (readFlit body) = true)
include hseq

/-- The next one in order is acknowledged, taken and sent on. -/
theorem State.takeFlit_next (hnext : (readFlit body).seq = (t.link l).rxNext) :
    s.takeFlit l body crc credit =
      ((t.updLink l fun k => { k with rxNext := k.rxNext + 1, rxDiscard := false }).emit
        (.ack l (readFlit body).seq.toNat)).forward l (readFlit body) := by
  rw [State.takeFlit_allowed h hok ht, hseq, if_neg (by decide), if_pos (by simpa using hnext)]

variable (hnext : (readFlit body).seq ≠ (t.link l).rxNext)
include hnext

/-- One that has come before is acknowledged again. -/
theorem State.takeFlit_repeated (hrep : repeats (t.link l) (readFlit body) = true) :
    s.takeFlit l body crc credit = t.emit (.ack l ((t.link l).rxNext - 1).toNat) := by
  rw [State.takeFlit_allowed h hok ht, hseq, if_neg (by decide), if_neg (by simpa using hnext), if_pos hrep]

theorem State.takeFlit_discarded (hrep : repeats (t.link l) (readFlit body) = false) :
    s.takeFlit l body crc credit = t := by
  rw [State.takeFlit_allowed h hok ht, hseq, if_neg (by decide), if_neg (by simpa using hnext),
    if_neg (Bool.eq_false_iff.1 hrep)]

end

section
variable {s : State} {l : Fin 64}

/-- A link takes packets while it runs or stands in quarantine, in management mode those of management
and link control alone (R249, R449). -/
theorem exec_dataPacket {body : List Byte} {crc : Word} {credit : Bool}
    (hmode : (s.link l).mgmtMode = false ∨ (readFlit body).kind = 5 ∨ (readFlit body).kind = 6)
    (hst : linkRuns (s.link l) = true ∨ (s.link l).state = 4) :
    exec (.dataPacket l body crc credit) s = .next (s.takeFlit l body crc credit) := by
  refine congrArg Host.Outcome.next ?_
  dsimp only
  rw [if_neg, if_pos (by simpa using hst)]
  rcases hmode with h | h | h <;> simp [h]

/-! ACK, NACK, timeout and the lanes' windows (R245 to R247). -/

section
variable (hrun : linkRuns (s.link l) = true)
include hrun

theorem exec_ackNack_ack (seq : BitVec 12) :
    exec (.ackNack l seq false) s = .next (s.ackThrough l seq).commitAcked := by
  refine congrArg Host.Outcome.next ?_
  rw [hrun, if_neg (by decide), if_neg (by decide)]

theorem exec_ackNack_nack (seq : BitVec 12) : exec (.ackNack l seq true) s =
    .next ((s.ackThrough l (seq - 1)).commitAcked.replayOrRetrain l) := by
  refine congrArg Host.Outcome.next ?_
  rw [hrun, if_neg (by decide), if_pos rfl]

theorem exec_ackTimeout (hsent : (s.link l).sent ≠ []) :
    exec (.ackTimeout l) s = .next (s.replayOrRetrain l) := by
  refine congrArg Host.Outcome.next ?_
  rw [if_pos (by simp [hrun, hsent])]

variable {lane : Bool} {corr : BitVec 32} {spares : Fin 3}

/-- A lane that is out of use already, or whose window is good, stays as it is. -/
theorem exec_laneFecWindow_stays (h : corr.toNat ≤ 2 ^ (s.link l).ceLog2.toNat
      ∨ (if lane then (s.link l).lane1Bad else (s.link l).lane0Bad) = true) :
    exec (.laneFecWindow l lane corr spares) s =
      .next (s.updLink l fun k => { k with fecCorr := satAdd k.fecCorr corr.toNat }) := by
  refine congrArg Host.Outcome.next ?_
  dsimp only
  rw [hrun, if_neg (by decide), if_pos (by simpa using h)]

theorem exec_laneFecWindow_goes (hcorr : 2 ^ (s.link l).ceLog2.toNat < corr.toNat)
    (hbad : (if lane then (s.link l).lane1Bad else (s.link l).lane0Bad) = false) :
    exec (.laneFecWindow l lane corr spares) s =
      .next ((s.updLink l fun k => { k with fecCorr := satAdd k.fecCorr corr.toNat }).withService l fun t =>
        (t.linkLanes l (lane && !(s.link l).lane0Bad) (!lane && !(s.link l).lane1Bad) spares.val
          5).linkResumes l) := by
  refine congrArg Host.Outcome.next ?_
  dsimp only
  rw [hrun, if_neg (by decide), if_neg (by simpa [hbad] using hcorr)]

end

section
variable {s : State} {l : Nat}

theorem State.replayOrRetrain_replays (h : (s.link l).replayCount < 8) :
    s.replayOrRetrain l = s.replayLink l := if_neg (Nat.not_le.2 h)

theorem State.replayOrRetrain_retrains (h : 8 ≤ (s.link l).replayCount) :
    s.replayOrRetrain l = s.updLink l fun k => { k with state := 1, replayCount := 0 } := if_pos h

end

end

end Sys2Proof.Machine
end

section
/-! SUPPORT. Trainings of links and ports, and what the other end and other modules report (O60; R246 to
R249, R253, R257, R258, R449, R493): the branches of a training by what it shows. -/

namespace Sys2Proof.Machine

/-! Training of links (R246 to R249, R258, R449). -/

/-- What the end of a training tells of the partner. -/
def State.seePartner (s : State) (l : Nat) (x : Partner) : State :=
  s.updLink l fun k => { k with
    peerCoord := x.coord, peerLink := x.link, mated := true, mgmtMode := false
    partnerOut := k.partnerOut && k.state == 1 }

/-- The trainings that have failed in a row, this one counted. -/
def failsNow (k : Link) (ok : Bool) : Nat := if ok then 0 else k.fails + 1

section
variable {s : State} {l : Nat} {t : LinkTraining}

/-- What a row leaves depends on the state that its body answers alone. -/
theorem State.withService_eq {f : State → State} {u : State} (h : f s = u) :
    s.withService l f = s.withService l fun _ => u := by
  rw [State.withService, State.withService, h]

theorem State.trainBody_idle (h : s.connected l = false ∨ (s.link l).disable = true) :
    s.trainBody l t = s := by
  rw [State.trainBody, if_pos (by simpa using h)]

section
variable (hcon : s.connected l = true) (hdis : (s.link l).disable = false)
include hcon hdis

/-- A link that leads where it should, or shows no lane, is trained; one cabled wrongly stays DOWN. -/
theorem State.trainBody_connected : s.trainBody l t =
    if (t.partner.coord.toNat = s.neighbour s.coord (dirOf l) ∧ t.partner.link.toNat = partnerLink l)
        ∨ ¬ (t.lanes.getLsbD 0 = true ∨ t.lanes.getLsbD 1 = true) then
      (s.seePartner l t.partner).trained l t
    else ((s.seePartner l t.partner).updLink l fun k => { k with state := 0, lanes := 0 }).event 0x3006
      (uLink l) := by
  have hgo : (!s.connected l || (s.link l).disable) = false := by simp [hcon, hdis]
  have hplace : (s.seePartner l t.partner).neighbour (s.seePartner l t.partner).coord (dirOf l) =
      s.neighbour s.coord (dirOf l) := rfl
  rw [State.trainBody, hgo, if_neg (by decide)]
  dsimp only
  rw [← State.seePartner, hplace]
  simp only [Bool.or_eq_true, Bool.and_eq_true, beq_iff_eq, Bool.not_eq_true', Bool.or_eq_false_iff,
    not_or, Bool.not_eq_true]

theorem State.trainBody_trained
    (h : (t.partner.coord.toNat = s.neighbour s.coord (dirOf l) ∧ t.partner.link.toNat = partnerLink l)
      ∨ ¬ (t.lanes.getLsbD 0 = true ∨ t.lanes.getLsbD 1 = true)) :
    s.trainBody l t = (s.seePartner l t.partner).trained l t := by
  rw [State.trainBody_connected hcon hdis, if_pos h]

theorem State.trainBody_miscabled
    (h : ¬ (t.partner.coord.toNat = s.neighbour s.coord (dirOf l) ∧ t.partner.link.toNat = partnerLink l))
    (hlanes : t.lanes.getLsbD 0 = true ∨ t.lanes.getLsbD 1 = true) : s.trainBody l t =
      ((s.seePartner l t.partner).updLink l fun k => { k with state := 0, lanes := 0 }).event 0x3006
        (uLink l) := by
  rw [State.trainBody_connected hcon hdis, if_neg (not_or.2 ⟨h, not_not.2 hlanes⟩)]

end

section
variable {n : Nat} (hn : failsNow (s.link l) t.ok = n)
include hn

theorem State.trained_eq : s.trained l t =
    if 3 ≤ n then ((s.updLink l fun k => { k with fails := n }).updLink l fun k =>
        { k with state := 5, lanes := 0 }).event 0x3001 (uLink l)
    else if !t.ok && t.lanes.getLsbD 0 && t.lanes.getLsbD 1 then
      (s.updLink l fun k => { k with fails := n }).updLink l fun k => { k with state := 1 }
    else ((s.updLink l fun k => { k with fails := n }).linkLanes l (t.lanes.getLsbD 0) (t.lanes.getLsbD 1)
      t.partner.spares.val 6).linkResumes l := by
  subst hn
  rfl

theorem State.trained_fails (h3 : 3 ≤ n) : s.trained l t =
    ((s.updLink l fun k => { k with fails := n }).updLink l fun k =>
      { k with state := 5, lanes := 0 }).event 0x3001 (uLink l) := by
  rw [State.trained_eq hn, if_pos h3]

/-- With no lane to blame the link trains once more. -/
theorem State.trained_again (h3 : n < 3) (hok : t.ok = false)
    (hboth : t.lanes.getLsbD 0 = true ∧ t.lanes.getLsbD 1 = true) : s.trained l t =
      (s.updLink l fun k => { k with fails := n }).updLink l fun k => { k with state := 1 } := by
  rw [State.trained_eq hn, if_neg (Nat.not_le.2 h3), if_pos (by simp [hok, hboth])]

theorem State.trained_lanes (h3 : n < 3)
    (h : t.ok = true ∨ ¬ (t.lanes.getLsbD 0 = true ∧ t.lanes.getLsbD 1 = true)) : s.trained l t =
      ((s.updLink l fun k => { k with fails := n }).linkLanes l (t.lanes.getLsbD 0) (t.lanes.getLsbD 1)
        t.partner.spares.val 6).linkResumes l := by
  rw [State.trained_eq hn, if_neg (Nat.not_le.2 h3), if_neg]
  rcases h with h | h
  · simp [h]
  · simpa [and_assoc] using fun _ => not_and.1 h

end

end

section
variable {s : State} {l : Fin 64} {t : LinkTraining} (hl : t.link.val = l.val)
include hl

theorem exec_linkRetrainDone_link (hst : (s.link l).state = 1) :
    exec (.linkRetrainDone t.link t.lanes t.ok t.partner) s = .next (s.trainLink l t) := by
  refine congrArg Host.Outcome.next ?_
  rw [hl, if_pos l.isLt, if_pos (by simp [hst])]

section
variable (hst : (s.link l).state = 0 ∨ (s.link l).mgmtMode = true)
include hst

theorem exec_partnerLinkTraining_link (h8 : s.stepDone 8 = true) (hmgmt : t.partner.mgmt = false) :
    exec (.partnerLinkTraining t) s = .next (s.trainLink l t) := by
  refine congrArg Host.Outcome.next ?_
  dsimp only
  rw [hl, if_pos l.isLt, if_neg (by simpa using or_iff_not_imp_left.1 hst), hmgmt,
    if_neg (by decide), if_pos h8]

/-- A partner that has not come to S8 trains in management mode (R449). -/
theorem exec_partnerLinkTraining_mgmt (h1 : s.stepDone 1 = true) (hmgmt : t.partner.mgmt = true)
    (hcon : s.connected l = true) (hdis : (s.link l).disable = false) :
    exec (.partnerLinkTraining t) s = .next (s.trainMgmt l t) := by
  refine congrArg Host.Outcome.next ?_
  dsimp only
  rw [hl, if_pos l.isLt, if_neg (by simpa using or_iff_not_imp_left.1 hst), if_pos hmgmt,
    if_pos (by simp [h1, hcon, hdis])]

end

end

/-! Training of host-link ports (R493). -/

section
variable {s : State} {u : Fin 2} {t : LinkTraining} (hu : t.link.val = 64 + u.val)
  (hcut : s.tileCut (tileOfPort u) = false) (hdis : (s.port u).disable = false)
include hu hcut hdis

theorem exec_partnerLinkTraining_port (h1 : s.stepDone 1 = true)
    (hst : (s.port u).state = 0 ∨ (s.port u).state = 1) :
    exec (.partnerLinkTraining t) s = .next (s.trainPort u t.lanes) := by
  refine congrArg Host.Outcome.next ?_
  dsimp only
  rw [hu, if_neg (by omega), Nat.add_sub_cancel_left,
    if_pos (by simpa [State.portTrains, h1, hcut, hdis] using hst)]

theorem exec_linkRetrainDone_port (hst : (s.port u).state = 1) :
    exec (.linkRetrainDone t.link t.lanes t.ok t.partner) s = .next (s.trainPort u t.lanes) := by
  refine congrArg Host.Outcome.next ?_
  rw [hu, if_neg (by omega), Nat.add_sub_cancel_left,
    if_pos (by simpa [State.portTrains, hcut, hdis] using hst)]

end

/-! What the other end and other modules report (R253, R257). -/

theorem exec_linkStateExchange {s : State} {coord : BitVec 8} {mask : BitVec 64}
    (h8 : s.stepDone 8 = true) (hcoord : s.coordOk coord.toNat = true) (hother : coord.toNat ≠ s.coord)
    (hnew : SMap.get 0 s.remote coord.toNat ≠ mask) :
    exec (.linkStateExchange coord mask) s = .next
      (({ s with remote := SMap.set 0 s.remote coord.toNat mask } : State).routesChanged 0) := by
  refine congrArg Host.Outcome.next ?_
  rw [if_pos (by simpa [h8, hcoord, hother] using hnew)]

section
variable {s : State} {l : Fin 64} (hdis : (s.link l).disable = false) (hdown : (s.link l).state ≠ 0)
  (hfailed : (s.link l).state ≠ 5)
include hdis hdown hfailed

theorem exec_linkControl_disabled : exec (.linkControl l true true) s =
    .next (s.withService l fun s => s.updLink l fun k => { k with
      partnerOut := true, state := 0, lanes := 0 }) := by
  refine congrArg Host.Outcome.next ?_
  dsimp only
  rw [if_neg (by simpa [hdis] using ⟨hdown, hfailed⟩)]
  rfl

theorem exec_linkControl_quarantined (out : Bool) : exec (.linkControl l out false) s =
    .next (s.withService l fun s => s.updLink l fun k => { k with partnerOut := out }) := by
  refine congrArg Host.Outcome.next ?_
  dsimp only
  rw [if_neg (by simpa [hdis] using ⟨hdown, hfailed⟩), Bool.and_false]
  rfl

end

/-- Settles O60: packets by what is wrong with them and by their number, then the acknowledgements, the
windows, the trainings by what they show, and the reports. -/
theorem peerLinksComplete : Obligations.PeerLinksComplete := by
  unfold Obligations.PeerLinksComplete
  intro s l k
  refine ⟨?packets, fun hrun => ⟨exec_ackNack_ack hrun, exec_ackNack_nack hrun, ?replays, ?retrains,
    ?windows⟩, ?trainings, fun t u hu hcut hdis => ⟨exec_partnerLinkTraining_port hu hcut hdis,
      exec_linkRetrainDone_port hu hcut hdis⟩, fun coord mask => exec_linkStateExchange,
    fun hdis hdown hfailed => ⟨exec_linkControl_disabled hdis hdown hfailed,
      exec_linkControl_quarantined hdis hdown hfailed⟩⟩
  case packets =>
    intro body crc credit f come hmode hst
    have hcome : come = .next (s.takeFlit l body crc credit) := exec_dataPacket hmode hst
    rw [hcome]
    refine ⟨fun hcrc => ?badCrc, fun r hcrc hbad => ?violates, fun hcrc hok => ⟨fun hseq => ?unsequenced,
      fun hseq hnext => ?next, fun hseq hnext => ⟨fun hrep => ?repeated, fun hrep => ?discarded⟩⟩⟩
    case badCrc => rw [State.takeFlit_badCrc hcrc]
    case violates => rw [State.takeFlit_violates hcrc hbad]
    case unsequenced => rw [State.takeFlit_unsequenced hcrc hok rfl hseq]
    case next => rw [State.takeFlit_next hcrc hok rfl hseq hnext]
    case repeated => rw [State.takeFlit_repeated hcrc hok rfl hseq hnext hrep]
    case discarded => rw [State.takeFlit_discarded hcrc hok rfl hseq hnext hrep]
  case replays =>
    intro hsent hcount
    rw [exec_ackTimeout hrun hsent, State.replayOrRetrain_replays hcount]
  case retrains =>
    intro hsent hcount
    rw [exec_ackTimeout hrun hsent, State.replayOrRetrain_retrains hcount]
  case windows =>
    exact fun lane corr spares => ⟨exec_laneFecWindow_stays hrun, exec_laneFecWindow_goes hrun⟩
  case trainings =>
    intro t hl ends v right some_ both n w
    have hends {u : State} (h : s.trainBody l t = u) : ends u :=
      ⟨fun hst => (exec_linkRetrainDone_link hl hst).trans (congrArg _ (State.withService_eq h)),
        fun h8 hst hmgmt => (exec_partnerLinkTraining_link hl hst h8 hmgmt).trans
          (congrArg _ (State.withService_eq h))⟩
    have hn : failsNow (v.link l) t.ok = n := by simp [failsNow, v, n, k]
    refine ⟨fun hidle => ?idle, fun hcon hdis => ⟨fun hwrong hsome => ?miscabled, fun hright h3 => ?fails,
      fun hright h3 hok hboth => ?again, fun hright h3 hlanes => ?lanes, fun h1 hst hmgmt => ?management⟩⟩
    case idle => exact hends (State.trainBody_idle hidle)
    case miscabled => exact hends (State.trainBody_miscabled hcon hdis hwrong hsome)
    case fails => exact hends ((State.trainBody_trained hcon hdis hright).trans (State.trained_fails hn h3))
    case again =>
      exact hends ((State.trainBody_trained hcon hdis hright).trans (State.trained_again hn h3 hok hboth))
    case lanes =>
      exact hends ((State.trainBody_trained hcon hdis hright).trans (State.trained_lanes hn h3 hlanes))
    case management => exact exec_partnerLinkTraining_mgmt hl hst h1 hmgmt hcon hdis

end Sys2Proof.Machine
end

section
/-! SUPPORT. What an access of memory leaves of the partitions: a line that is sensed, retired or written
changes the tiers, the Logbook and the persistent store, and no partition (R190 to R196). -/

namespace Sys2Proof.Machine

section
variable (s : State)

theorem State.event_parts (code unit : Nat) : (s.event code unit).parts = s.parts := s.record_parts _

theorem State.eventP_parts (code unit p : Nat) : (s.eventP code unit p).parts = s.parts := s.record_parts _

theorem State.lineEvent_parts (code : Nat) (t : Tier) (line : Nat) (found : Option (Nat × Nat))
    (low : Nat) : (s.lineEvent code t line found low).parts = s.parts := by
  unfold State.lineEvent
  dsimp only
  repeat' split
  all_goals exact s.record_parts _

theorem State.countCorr_parts (t : Tier) (a : Nat) : (s.countCorr t a).parts = s.parts := by
  cases t <;> rfl

theorem State.countUncorr_parts (t : Tier) (a : Nat) : (s.countUncorr t a).parts = s.parts := by
  cases t <;> rfl

theorem State.settleLine_parts (t : Tier) (line : Nat) (wrong : Bool) :
    (s.settleLine t line wrong).parts = s.parts := by
  cases wrong <;> rfl

theorem State.poisonLine_parts (t : Tier) (line : Nat) (found : Option (Nat × Nat)) :
    (s.poisonLine t line found).parts = s.parts := by
  rw [State.poisonLine, State.countUncorr_parts, State.poisonEvent, State.lineEvent_parts]
  rfl

theorem State.moveLine_parts (t : Tier) (line : Nat) : (s.moveLine t line).parts = s.parts := by
  unfold State.moveLine
  split <;> simp only [State.countCorr_parts, State.settleLine_parts, State.poisonLine_parts]

theorem State.moveRow_parts (t : Tier) (a : Nat) : (s.moveRow t a).parts = s.parts :=
  foldl_unchanged State.parts (fun s l => s.moveLine_parts t l) _ s

theorem State.prsOwn_parts (i : Nat) (v : Dword) : (s.prsOwn i v).parts = s.parts := by
  unfold State.prsOwn State.wearEvents
  dsimp only
  repeat' split
  all_goals simp only [State.event_parts]

theorem State.noteMapFull_parts : s.noteMapFull.parts = s.parts := by
  unfold State.noteMapFull
  split
  · rfl
  · rw [State.event_parts]

theorem State.repairRec_parts (unit sub kind cause : Nat) :
    (s.repairRec unit sub kind cause).parts = s.parts := by
  unfold State.repairRec
  dsimp only
  repeat' split
  all_goals simp only [State.noteMapFull_parts, State.event_parts, State.prsOwn_parts]

theorem State.withdraw_parts (t : Tier) (g n : Nat) : (s.withdraw t g n).parts = s.parts := rfl

theorem State.retireBd_parts (a cause : Nat) : (s.retireBd a cause).parts = s.parts := by
  unfold State.retireBd
  dsimp only
  repeat' split
  · simp only [State.event_parts, State.updBdp_parts, State.moveRow_parts, State.repairRec_parts]
  · rfl
  · simp only [State.granuleEvent, State.lineEvent_parts, State.updBdp_parts, State.withdraw_parts,
      State.repairRec_parts]

theorem State.retireLp_parts (a cause : Nat) : (s.retireLp a cause).parts = s.parts := by
  unfold State.retireLp
  dsimp only
  repeat' split
  · simp only [State.event_parts, State.updLpc_parts, State.moveRow_parts, State.repairRec_parts]
  · rfl
  · simp only [State.granuleEvent, State.lineEvent_parts, State.updLpc_parts, State.withdraw_parts,
      State.repairRec_parts]

theorem State.corrected_parts (t : Tier) (line : Nat) (wrong : Bool) :
    (s.corrected t line wrong).parts = s.parts := by
  unfold State.corrected
  dsimp only
  repeat' split
  all_goals simp only [State.retireBd_parts, State.retireLp_parts, State.updBdp_parts, State.updLpc_parts,
    State.countCorr_parts, State.settleLine_parts]

theorem State.uncorrectable_parts (t : Tier) (line : Nat) (found : Option (Nat × Nat)) :
    (s.uncorrectable t line found).parts = s.parts := by
  unfold State.uncorrectable State.retireRow
  split <;> simp only [State.retireBd_parts, State.retireLp_parts, State.poisonLine_parts]

theorem State.senseLine_parts (t : Tier) (line : Nat) (found : Option (Nat × Nat)) :
    (s.senseLine t line found).1.parts = s.parts := by
  unfold State.senseLine
  repeat' split
  all_goals simp only [State.corrected_parts, State.uncorrectable_parts, State.settleLine_parts]

theorem State.senseLines_parts (t : Tier) (ls : List Nat) (found : Option (Nat × Nat)) :
    (s.senseLines t ls found).1.parts = s.parts :=
  foldl_unchanged (fun x : State × Found => x.1.parts) (fun x l => x.1.senseLine_parts t l found) ls (s, [])

theorem State.senseLeaf_parts (p unit va : Nat) : (s.senseLeaf p unit va).1.parts = s.parts := by
  simp only [State.senseLeaf, State.senseTables, State.senseLines_parts]

theorem State.queueWake_parts (isl : Nat) : (s.queueWake isl).parts = s.parts := by
  unfold State.queueWake
  dsimp only
  split <;> rfl

theorem State.rawWriteLine_parts (t : Tier) (key a : Nat) (bs : List Byte) :
    (s.rawWriteLine t key a bs).parts = s.parts := by
  unfold State.rawWriteLine
  dsimp only
  repeat' split
  all_goals rfl

theorem State.rawWrite_parts (t : Tier) (key a : Nat) (bs : List Byte) :
    (s.rawWrite t key a bs).parts = s.parts :=
  foldl_unchanged (fun x : State × List Byte => x.1.parts) (fun x _ => x.1.rawWriteLine_parts t key _ _) _
    (s, bs)

theorem State.scramble_parts (p va n : Nat) : (s.scramble p va n).parts = s.parts := by
  refine foldl_unchanged State.parts (fun s pc => ?_) (piecesOf va n) s
  repeat' split
  · rfl
  · exact s.rawWriteLine_parts ..
  · rfl

theorem State.sendHeld_parts (l : Nat) : (s.sendHeld l).parts = s.parts := by
  unfold State.sendHeld
  dsimp only
  split
  · exact foldl_unchanged State.parts (fun t f => t.emit_parts (.packet l (flitWire f))) _ _
  · rfl

theorem State.sendFlit_parts (l : Nat) (f : Flit) : (s.sendFlit l f).parts = s.parts :=
  State.sendHeld_parts _ l

theorem State.post_parts (kind coord part g stream : Nat) (payload : List Byte) :
    (s.post kind coord part g stream payload).parts = s.parts := by
  unfold State.post
  split
  · rfl
  · split
    · exact s.event_parts ..
    · split
      · exact s.event_parts ..
      · exact foldl_unchanged State.parts (fun t f => t.sendFlit_parts _ f) _ _

end

end Sys2Proof.Machine
end

section
/-! SUPPORT. EN and PARK of the serving engines, the two switches of PAR_GEN_CTL (R290). What the engine does
to its records, an access of memory, and the recovery of a weight set that an access may start leave them as
they are. -/

namespace Sys2Proof

/-- EN and PARK of an engine. -/
def Gen.switches (g : Gen) : Bool × Bool := (g.en, g.park)

/-! The engine's records (R294 to R298, R321 to R327). -/

theorem Gen.push_switches (g : Gen) (e : GenEvent) : (g.push e).switches = g.switches := rfl

theorem Gen.rekey_switches (g : Gen) (salt : Dword) : (g.rekey salt).switches = g.switches := rfl

theorem Gen.hold_switches (g : Gen) (w i n : Nat) : (g.hold w i n).switches = g.switches := rfl

theorem Gen.drop_switches (g : Gen) (n : Nat) : (g.drop n).switches = g.switches := by
  unfold Gen.drop
  dsimp only
  split <;> rfl

theorem Gen.freeWin_switches (g : Gen) (w : Nat) : (g.freeWin w).switches = g.switches := by
  refine Machine.foldl_unchanged Gen.switches (fun g n => ?_) (SMap.get [] g.wins w) g
  split
  · rfl
  · exact g.drop_switches n

theorem Gen.share_switches (g : Gen) (src dst n : Nat) : (g.share src dst n).switches = g.switches := by
  refine Machine.foldl_unchanged Gen.switches (fun g i => ?_) _ g
  split
  · rfl
  · exact g.hold_switches dst i _

theorem Gen.handOver_switches (g : Gen) (r : GenReq) : (g.handOver r).switches = g.switches := by
  unfold Gen.handOver
  split
  · rfl
  · exact g.share_switches ..

theorem Gen.release_switches (g : Gen) (r : GenReq) : (g.release r).switches = g.switches :=
  ((g.handOver r).freeWin_switches r.window).trans (g.handOver_switches r)

theorem Gen.endReq_switches (g : Gen) (r : GenReq) (kind status reason step : Nat) :
    (g.endReq r kind status reason step).switches = g.switches := by
  unfold Gen.endReq
  dsimp only
  split
  · rfl
  · exact Gen.release_switches _ r

theorem Gen.weightLost_switches (g : Gen) : g.weightLost.switches = g.switches :=
  Machine.foldl_unchanged Gen.switches (fun g r => g.endReq_switches r ..) _ g

/-- EN and PARK of every partition's engine. -/
def switchesOf (parts : SMap Part) (p : Nat) : Bool × Bool := (SMap.get {} parts p).gen.switches

end Sys2Proof

namespace Sys2Proof.Machine

section
variable (s : State)

/-- An update of a partition that keeps its engine's two bits. -/
theorem State.updPart_switches (p : Nat) {f : Part → Part}
    (hf : ∀ x, (f x).gen.switches = x.gen.switches) :
    switchesOf (s.updPart p f).parts = switchesOf s.parts := by
  funext q
  change ((s.updPart p f).part q).gen.switches = (s.part q).gen.switches
  rw [State.updPart_part]
  split
  next hq => rw [hq, hf]
  next => rfl

/-! The upper half's tables and the directory (R162, R170, R293, R295). -/

theorem State.wr64_parts (a v : Nat) : (s.wr64 a v).parts = s.parts := rfl

theorem State.kvSlots_parts (tbl va e v : Nat) : (s.kvSlots tbl va e v).parts = s.parts :=
  foldl_unchanged State.parts (fun t _ => t.wr64_parts _ v) _ s

theorem State.invalidate_switches (p va n : Nat) :
    switchesOf (s.invalidate p va n).parts = switchesOf s.parts :=
  s.updPart_switches p (by exact fun _ => rfl)

theorem State.kvTable_switches (p va d : Nat) :
    switchesOf (s.kvTable p va d).1.parts = switchesOf s.parts := by
  induction d with
  | zero => rfl
  | succ d ih =>
    rw [State.kvTable]
    split
    next h => rwa [h] at ih
    next h =>
      rw [h] at ih
      dsimp only
      split
      · exact ih
      · split
        · exact ih
        · rw [State.tickFree_parts, State.updPart_switches, State.wr64_parts, State.rawWrite_parts, ih]
          exact fun _ => rfl

theorem State.kvMap_switches (p va e : Nat) : switchesOf (s.kvMap p va e).parts = switchesOf s.parts := by
  have htable := s.kvTable_switches p va (4 - leafLevel e)
  unfold State.kvMap
  split
  next h => rwa [h] at htable
  next h =>
    rw [h] at htable
    rw [State.updPart_switches, State.kvSlots_parts, htable]
    exact fun _ => rfl

theorem State.kvUnmap_switches (p va : Nat) : switchesOf (s.kvUnmap p va).parts = switchesOf s.parts := by
  unfold State.kvUnmap
  dsimp only
  rw [State.updPart_switches]
  · split
    · rfl
    · rw [State.kvSlots_parts]
  · exact fun _ => rfl

theorem State.kvSync_switches (p : Nat) : switchesOf (s.kvSync p).parts = switchesOf s.parts := by
  have hunmap (t : State) (e : Nat × Nat) :
      switchesOf (t.kvUnmap p e.1).parts = switchesOf t.parts := t.kvUnmap_switches p e.1
  have hmap (t : State) (w : Nat × Nat) : switchesOf (if SMap.get 0 (t.gen p).mapped w.1 = w.2 then t
      else t.kvMap p w.1 w.2).parts = switchesOf t.parts := by
    split
    · rfl
    · exact t.kvMap_switches p w.1 w.2
  unfold State.kvSync
  dsimp only
  split
  · rfl
  · exact (foldl_unchanged (fun t : State => switchesOf t.parts) hmap _ _).trans
      (foldl_unchanged (fun t : State => switchesOf t.parts) hunmap _ s)

theorem State.kvClear_switches (p : Nat) : switchesOf (s.kvClear p).parts = switchesOf s.parts := by
  unfold State.kvClear
  dsimp only
  rw [State.updPart_switches]
  · split
    · exact congrArg switchesOf (foldl_unchanged State.parts (fun t _ => t.wr64_parts _ 0) _ s)
    · rfl
  · exact fun _ => rfl

theorem State.dirSync_parts (p : Nat) (old : List DirNode) : (s.dirSync p old).parts = s.parts := by
  refine foldl_unchanged State.parts (fun t i => ?_) _ s
  split
  · rfl
  · exact t.scramble_parts ..

/-- A change by the engine that keeps its two bits. -/
theorem State.updGen_switches (p : Nat) {f : Gen → Gen} (hf : ∀ g, (f g).switches = g.switches) :
    switchesOf (s.updGen p f).parts = switchesOf s.parts := by
  simp only [State.updGen, State.invalidate_switches, State.kvSync_switches, State.dirSync_parts]
  exact s.updPart_switches p fun x => hf x.gen

/-! Accesses up to their data (R160, R167, R190). -/

theorem State.cacheLeaf_switches (p unit va leaf : Nat) :
    switchesOf (s.cacheLeaf p unit va leaf).parts = switchesOf s.parts := by
  refine s.updPart_switches p fun x => ?_
  split <;> rfl

theorem State.xpiece_switches (r : Req) (acc : Access) (va n : Nat) :
    switchesOf (s.xpiece r acc va n).1.parts = switchesOf s.parts := by
  unfold State.xpiece
  dsimp only
  repeat' split
  all_goals simp only [State.queueWake_parts, State.eventP_parts, State.poisonEvent, State.lineEvent_parts,
    State.cacheLeaf_switches, State.senseLines_parts, State.senseLeaf_parts]

theorem xreadGo_switches (r : Req) (ps : List (Nat × Nat)) (acc : List Byte) (f : Found) :
    switchesOf (xreadGo r ps s acc f).1.parts = switchesOf s.parts := by
  induction ps generalizing s acc f with
  | nil => rfl
  | cons pc ps ih =>
    have hpiece := s.xpiece_switches r .read pc.1 pc.2
    rw [xreadGo]
    split
    next h => rw [h] at hpiece; rw [ih, hpiece]
    next h => rwa [h] at hpiece
    next h => rwa [h] at hpiece

theorem xwriteGo_switches (r : Req) (acc : Access) (ps : List (Nat × Nat)) (bs : List Byte) (f : Found) :
    switchesOf (xwriteGo r acc ps s bs f).1.parts = switchesOf s.parts := by
  induction ps generalizing s bs f with
  | nil => rfl
  | cons pc ps ih =>
    have hpiece := s.xpiece_switches r acc pc.1 pc.2
    rw [xwriteGo]
    split
    next h => rw [h] at hpiece; rw [ih, State.rawWriteLine_parts, hpiece]
    next h => rwa [h] at hpiece
    next h => rwa [h] at hpiece

theorem State.xreadLit_switches (r : Req) (va n : Nat) :
    switchesOf (s.xreadLit r va n).1.parts = switchesOf s.parts := by
  unfold State.xreadLit
  dsimp only
  split
  · exact xreadGo_switches s.lit r _ _ _
  · exact xreadGo_switches s r _ _ _

/-! The recovery of a weight set's chunk (R399 to R402). -/

theorem State.updSet_switches (p k : Nat) (f : WeightSet → WeightSet) :
    switchesOf (s.updSet p k f).parts = switchesOf s.parts :=
  s.updPart_switches p (by exact fun _ => rfl)

theorem State.changeLeaf_switches (p va : Nat) (f : Nat → Nat) :
    switchesOf (s.changeLeaf p va f).parts = switchesOf s.parts := by
  unfold State.changeLeaf State.setLeaf
  split
  · rw [State.invalidate_switches]
    exact congrArg switchesOf (foldl_unchanged State.parts (fun t _ => t.wr64_parts _ _) _ s)
  · rfl

theorem State.repairChunk_switches (p k va : Nat) (bs : List Byte) :
    switchesOf (s.repairChunk p k va bs).parts = switchesOf s.parts := by
  have hlines (pcs : List (Nat × Nat)) (f : State → Nat × Nat → State)
      (hf : ∀ t pc, (f t pc).parts = t.parts) : (pcs.foldl f s).parts = s.parts :=
    foldl_unchanged State.parts hf pcs s
  unfold State.repairChunk
  extract_lets t
  have ht : t.parts = s.parts := by
    refine hlines _ _ fun t pc => ?_
    split
    · dsimp only
      split
      · exact t.rawWriteLine_parts ..
      · rfl
    · rfl
  rw [← ht]
  split
  · rfl
  · refine foldl_unchanged (fun t : State => switchesOf t.parts) (fun t g => ?_) _ _
    split
    · rw [State.updSet_switches, State.changeLeaf_switches]
    · rfl

theorem State.loseSet_switches (p k : Nat) (r : Recovery) :
    switchesOf (s.loseSet p k r).parts = switchesOf s.parts := by
  rw [State.loseSet, State.genWeights, State.updGen_switches _ p Gen.weightLost_switches]
  simp only [State.eventP_parts, State.updSet_switches]

theorem State.offerChunk_switches (p k : Nat) (r : Recovery) (crc : Nat) (bs : List Byte) :
    switchesOf (s.offerChunk p k r crc bs).1.parts = switchesOf s.parts := by
  unfold State.offerChunk State.endRecovery
  dsimp only
  split
  · rw [State.updSet_switches, State.repairChunk_switches]
  · exact s.updSet_switches ..

theorem State.askReplica_parts (p k : Nat) (r : Recovery) (i : Nat) :
    (s.askReplica p k r i).1.parts = s.parts := by
  unfold State.askReplica
  dsimp only
  split
  · rfl
  · exact s.post_parts ..

theorem State.tryHost_switches (p k : Nat) (r : Recovery) (crc : Nat) :
    switchesOf (s.tryHost p k r crc).1.parts = switchesOf s.parts := by
  unfold State.tryHost State.replaceRecovery
  dsimp only
  repeat' split
  all_goals simp only [State.updSet_switches, State.offerChunk_switches, State.xreadLit_switches]

theorem State.recoverFrom_switches (p k : Nat) (r : Recovery) (crc i : Nat) :
    switchesOf (s.recoverFrom p k r crc i).1.parts = switchesOf s.parts := by
  unfold State.recoverFrom State.replaceRecovery
  dsimp only
  split <;> simp only [State.tryHost_switches, State.updSet_switches, State.askReplica_parts]

theorem tryCopy_switches (p k : Nat) (r : Recovery) (crc unit : Nat) (e : ManEntry)
    (x : State × Bool × Found) (j : Nat) :
    switchesOf (tryCopy p k r crc unit e x j).1.parts = switchesOf x.1.parts := by
  unfold tryCopy tryEnd
  repeat' split
  all_goals simp only [State.offerChunk_switches, State.xreadLit_switches]

theorem State.tryLocal_switches (p k : Nat) (r : Recovery) (crc : Nat) :
    switchesOf (s.tryLocal p k r crc).1.parts = switchesOf s.parts := by
  have hcopies (unit : Nat) (e : ManEntry) (js : List Nat) :
      switchesOf (js.foldl (tryCopy p k r crc unit e) (s, false, [])).1.parts = switchesOf s.parts :=
    foldl_unchanged (fun x : State × Bool × Found => switchesOf x.1.parts)
      (tryCopy_switches p k r crc unit e) js (s, false, [])
  unfold State.tryLocal
  dsimp only
  repeat' split
  all_goals simp only [State.offerChunk_switches, hcopies]

theorem State.tableCrc_switches (p k shard chunk : Nat) :
    switchesOf (s.tableCrc p k shard chunk).1.parts = switchesOf s.parts := s.xreadLit_switches ..

theorem State.startRecovery_switches (p k shard c j va : Nat) :
    switchesOf (s.startRecovery p k shard c j va).1.parts = switchesOf s.parts := by
  unfold State.startRecovery
  extract_lets r s1 s2 s3 t
  have ht : switchesOf t.1.parts = switchesOf s.parts := by
    simp only [t, s3, s2, s1, State.tableCrc_switches, State.eventP_parts, State.updSet_switches,
      State.changeLeaf_switches]
  clear_value t
  split
  · exact (t.1.loseSet_switches p k r).trans ht
  next crc _ =>
    extract_lets l
    have hl : switchesOf l.1.parts = switchesOf s.parts := (t.1.tryLocal_switches p k r crc).trans ht
    clear_value l
    split
    · exact hl
    · exact (l.1.recoverFrom_switches p k r crc 0).trans hl

theorem foundGo_switches (fuel : Nat) (hs : List (Nat × Nat × Nat × Nat × Nat × Nat)) :
    switchesOf (foundGo fuel s hs).parts = switchesOf s.parts := by
  induction fuel generalizing s hs with
  | zero => rfl
  | succ fuel ih =>
    unfold foundGo
    extract_lets x
    have hx : switchesOf x.1.parts = switchesOf s.parts := by
      refine foldl_unchanged (fun x : State × Found => switchesOf x.1.parts) (fun a h => ?_) hs (s, [])
      dsimp only
      rw [State.startRecovery_switches]
    clear_value x
    split
    · exact hx
    · rw [ih, hx]

theorem State.found_switches (f : Found) : switchesOf (s.found f).parts = switchesOf s.parts := by
  unfold State.found
  split
  · rfl
  · exact foundGo_switches s 8 _

theorem State.xwrite_switches (r : Req) (va : Nat) (bs : List Byte) :
    switchesOf (s.xwrite r va bs).1.parts = switchesOf s.parts :=
  (State.found_switches ..).trans (xwriteGo_switches ..)

/-! Events that go out, the end of the requests and a rekeying (R326, R328, R410). -/

theorem evtGo_switches (p fuel : Nat) : switchesOf (evtGo p fuel s).parts = switchesOf s.parts := by
  induction fuel generalizing s with
  | zero => rfl
  | succ fuel ih =>
    rw [evtGo]
    dsimp only
    split
    · rfl
    · split
      · rfl
      · split
        next => rfl
        next h =>
          have hwrite := congrArg (fun x : State × XR Unit => switchesOf x.1.parts) h
          rw [ih, State.updPart_switches, ← hwrite, State.xwrite_switches]
          exact fun _ => rfl

theorem State.genEvents_switches (p : Nat) : switchesOf (s.genEvents p).parts = switchesOf s.parts :=
  evtGo_switches s p _

theorem State.genEnd_switches (p : Nat) : switchesOf (s.genEnd p).parts = switchesOf s.parts := by
  unfold State.genEnd
  rw [State.genEvents_switches, State.kvClear_switches]
  exact s.updGen_switches p fun g =>
    foldl_unchanged Gen.switches (fun g r => g.push_switches (reqEvent r evFailed stAborted 4)) _ g

theorem State.genRekey_switches (p : Nat) : switchesOf (s.genRekey p).parts = switchesOf s.parts := by
  unfold State.genRekey
  dsimp only
  split
  · rw [State.updPart_switches]
    · exact s.updGen_switches p fun g => g.rekey_switches _
    · exact fun _ => rfl
  · rfl

end

end Sys2Proof.Machine
end

section
/-! SUPPORT. PAR_GEN_CTL and PAR_GEN_REQ_TAIL (O33; R290, R318, R328): what a write of each register does in
an open partition. -/

namespace Sys2Proof.Machine

/-! Words: the bits after one is cleared. -/

theorem bit_noBit (v : Word) (i : Nat) {k : Nat} (hk : k < 32) :
    bit (noBit v i).toNat k = (bit v.toNat k && decide (i ≠ k)) := by
  rw [bit_eq_testBit, bit_eq_testBit, noBit, BitVec.testBit_toNat, BitVec.testBit_toNat, BitVec.getLsbD_and,
    BitVec.getLsbD_not, BitVec.getLsbD_ofNat, Nat.testBit_two_pow]
  simp [hk]

section
variable {s : State} {a : Agent} {p : Fin 16}

/-! PAR_GEN_CTL. -/

section
variable (hopen : s.parOpen p = true) (h : s.hasAccess a (parBase p + 0x900) = true) (v : Word)
include hopen h

theorem exec_genEnable : exec (.genEnable a p v) s = .next (s.writeGenCtl p (withBit v 0).toNat) :=
  congrArg Host.Outcome.next (State.writeAddr_own (r := .genCtl) hopen h _)

theorem exec_genDisable : exec (.genDisable a p v) s = .next (s.writeGenCtl p (noBit v 0).toNat) :=
  congrArg Host.Outcome.next (State.writeAddr_own (r := .genCtl) hopen h _)

theorem exec_genPark : exec (.genPark a p v) s = .next (s.writeGenCtl p (withBit v 1).toNat) :=
  congrArg Host.Outcome.next (State.writeAddr_own (r := .genCtl) hopen h _)

theorem exec_genUnpark : exec (.genUnpark a p v) s = .next (s.writeGenCtl p (noBit v 1).toNat) :=
  congrArg Host.Outcome.next (State.writeAddr_own (r := .genCtl) hopen h _)

end

end

section
variable {s t : State} {p w : Nat}

theorem State.gen_en_of_switches (h : switchesOf t.parts = switchesOf s.parts) (p : Nat) :
    (t.gen p).en = (s.gen p).en := congrArg Prod.fst (congrFun h p)

theorem State.gen_park_of_switches (h : switchesOf t.parts = switchesOf s.parts) (p : Nat) :
    (t.gen p).park = (s.gen p).park := congrArg Prod.snd (congrFun h p)

theorem State.updPart_gen (s : State) (p : Nat) (f : Part → Part) :
    (s.updPart p f).gen p = (f (s.part p)).gen := by
  rw [State.gen, State.updPart_part, if_pos rfl]

theorem State.genParkOn_en : ((s.genParkOn p).gen p).en = (s.gen p).en := by
  rw [State.genParkOn, State.updPart_gen]
  rfl

theorem State.genParkOff_en : ((s.genParkOff p).gen p).en = (s.gen p).en := by
  rw [State.genParkOff, State.gen_en_of_switches (State.genRekey_switches _ p), State.updPart_gen]
  dsimp only
  split <;> rfl

/-- What the disable sets at once (R328). -/
def State.genStop (s : State) (p : Nat) : State :=
  s.updPart p fun x => { x with gen := { x.gen with en := false, stopping := x.gen.active } }

theorem State.genStop_gen : (s.genStop p).gen p =
    { s.gen p with en := false, stopping := (s.gen p).active } := s.updPart_gen p _

/-- Without a step the disable ends the requests at once. -/
theorem State.genOff_idle (hact : (s.gen p).active = true) (hstep : (s.gen p).step.isNone = true) :
    s.genOff p = (s.genStop p).genEnd p := by
  have hgo : (((s.genStop p).gen p).active && ((s.genStop p).gen p).step.isNone) = true := by
    rw [State.genStop_gen, hstep, Bool.and_true]
    exact hact
  exact if_pos hgo

/-- With one they end when it has completed. -/
theorem State.genOff_running (hstep : (s.gen p).step.isSome = true) : s.genOff p = s.genStop p := by
  have hwait : (((s.genStop p).gen p).active && ((s.genStop p).gen p).step.isNone) = false := by
    rw [State.genStop_gen, Option.isNone_eq_false_iff.2 hstep, Bool.and_false]
  exact if_neg (Bool.eq_false_iff.1 hwait)

theorem State.genOff_park : ((s.genOff p).gen p).park = (s.gen p).park := by
  have hstop : ((s.genStop p).gen p).park = (s.gen p).park := by rw [State.genStop_gen]
  rw [← hstop]
  unfold State.genOff
  rw [← State.genStop]
  dsimp only
  split
  · exact State.gen_park_of_switches (State.genEnd_switches _ p) p
  · rfl

/-- PARK is written as it was: an engine that is off and has ended is enabled. -/
theorem State.writeGenCtl_enables (hen : bit w 0 = true) (hpark : bit w 1 = (s.gen p).park)
    (hoff : (s.gen p).en = false) (hact : (s.gen p).active = false) :
    s.writeGenCtl p w = s.genOn p := by
  simp [State.writeGenCtl, hen, hpark, hoff, hact]

theorem State.writeGenCtl_disables (hen : bit w 0 = false) (hpark : bit w 1 = (s.gen p).park)
    (hon : (s.gen p).en = true) : s.writeGenCtl p w = s.genOff p := by
  simp [State.writeGenCtl, hen, hpark, hon, State.genOff_park]

/-- EN is written as it was: only PARK acts. -/
theorem State.writeGenCtl_parks (hen : bit w 0 = true) (hpark : bit w 1 = true)
    (hon : (s.gen p).en = true) (hrun : (s.gen p).park = false) :
    s.writeGenCtl p w = s.genParkOn p := by
  simp [State.writeGenCtl, hen, hpark, hrun, State.genParkOn_en, hon]

theorem State.writeGenCtl_unparks (hen : bit w 0 = true) (hpark : bit w 1 = false)
    (hon : (s.gen p).en = true) (hparked : (s.gen p).park = true) :
    s.writeGenCtl p w = s.genParkOff p := by
  simp [State.writeGenCtl, hen, hpark, hparked, State.genParkOff_en, hon]

end

/-! The checks of the enable (R289 to R294, R300). -/

section
variable {s : State} {p va : Nat} (hact : (s.gen p).active = false) (hva : (s.gen p).descVa.toNat = va)
include hact hva

/-- A descriptor that is not in pinned memory is reason 1. -/
theorem State.genOn_unpinned (hpin : (s.touchTables p va 256).pinnedRange p va 256 false = false) :
    s.genOn p = (s.touchTables p va 256).updPart p fun x => { x with gen := { x.gen with err := 1 } } := by
  subst hva
  simp [State.genOn, hact, hpin]

/-- A descriptor, a template and a pool as they must be: the engine starts. -/
theorem State.genOn_starts {s1 s2 s3 : State} {b tb pb : List Byte} {d : GenDesc} (hd : genDescOf b = d)
    (hpin : (s.touchTables p va 256).pinnedRange p va 256 false = true)
    (hdesc : (s.touchTables p va 256).peek p va 256 = (s1, some b))
    (hrings : (s1.genTouch p d).genRingsBad p d = false) (hfields : genFieldsBad b = false)
    (hqueue : stepQueueBad ((s1.genTouch p d).part p) d.stepQ = false)
    (htpl : (s1.genTouch p d).peek p d.tplVa (64 * d.tplN) = (s2, some tb))
    (hcmds : templateBad d tb = false) (hpool : s2.peek p d.poolVa (16 * d.poolN) = (s3, some pb))
    (hext : ∀ i, i < d.poolN → s3.extentBad d ((pb.drop (16 * i)).take 16) = false) :
    s.genOn p = ((s3.kvClear p).updGen p fun g =>
      { en := true, park := g.park, descVa := g.descVa, reqTail := g.reqTail, reqHead := g.reqHead
        evtTail := g.evtTail, evtHead := g.evtHead, state := if g.park then 2 else 1
        desc := d, extents := poolOf d pb }).scramble p d.dirVa (dirEntryBytes d * d.dirN) := by
  subst hva hd
  have hpools : ((List.range (genDescOf b).poolN).any fun i =>
      s3.extentBad (genDescOf b) ((pb.drop (16 * i)).take 16)) = false :=
    List.any_eq_false.2 fun i hi => Bool.eq_false_iff.1 (hext i (List.mem_range.1 hi))
  simp only [State.genOn, hact, hpin, hdesc, hrings, hfields, hqueue, htpl, hcmds, hpool, hpools,
    Bool.not_true, Bool.false_eq_true, if_false]

end

/-! PAR_GEN_REQ_TAIL (R318). -/

theorem exec_genReqDoorbell {s : State} {a : Agent} {p : Fin 16} (hopen : s.parOpen p = true)
    (h : s.hasAccess a (parBase p + 0x90C) = true) (hq : s.quarantined a = false) (v : Word) :
    exec (.genReqDoorbell a p v) s = .next (s.genDoorbell p (v.toNat % 2 ^ 17) (s.uid a)) := by
  have hwrite : s.writeOwn a p v.toNat .genReqTail = s.genDoorbell p (fld v.toNat 0 17) (s.uid a) :=
    if_neg (Bool.eq_false_iff.1 hq)
  rw [← fld_zero, ← hwrite]
  exact congrArg Host.Outcome.next (State.writeAddr_own (r := .genReqTail) hopen h v)

section
variable {s : State} {p v unit : Nat} {g : Gen} (hg : s.gen p = g)
include hg

theorem State.genDoorbell_taken (hact : g.active = true)
    (hv : tailOk g.reqN g.reqHead.toNat g.reqTail.toNat v = true) :
    s.genDoorbell p v unit = s.updPart p fun x =>
      { x with gen := { x.gen with reqTail := BitVec.ofNat 17 v } } := by
  rw [State.genDoorbell, hg, hact, hv]
  rfl

/-- A doorbell of an engine that is off, or one whose tail cannot be, is refused. -/
theorem State.genDoorbell_refused
    (h : g.active = false ∨ tailOk g.reqN g.reqHead.toNat g.reqTail.toNat v = false) :
    s.genDoorbell p v unit = s.eventP 0x4001 unit p := by
  have hno : (g.active && tailOk g.reqN g.reqHead.toNat g.reqTail.toNat v) = false := by
    rcases h with h | h <;> simp [h]
  rw [State.genDoorbell, hg]
  exact if_neg (Bool.eq_false_iff.1 hno)

end

/-- Settles O33: each row of PAR_GEN_CTL changes one bit of the word, so that the other switch does not act; the
doorbell is `genDoorbell`. -/
theorem servingControlComplete : Obligations.ServingControlComplete := by
  unfold Obligations.ServingControlComplete
  intro a p v s hopen g
  have hdisables (h : s.hasAccess a (parBase p + 0x900) = true) (hpark : v.getLsbD 1 = g.park)
      (hon : g.en = true) : exec (.genDisable a p v) s = .next (s.genOff p) := by
    have hclear : bit (noBit v 0).toNat 0 = false := by simp [bit_noBit v 0]
    have hkept : bit (noBit v 0).toNat 1 = (s.gen p).park := by
      rw [bit_noBit v 0 (by decide), bit_eq_testBit, BitVec.testBit_toNat, hpark]
      exact Bool.and_true _
    rw [exec_genDisable hopen h, State.writeGenCtl_disables hclear hkept hon]
  refine ⟨fun h hpark => ⟨fun hoff hact => ?enable, fun hon hact hstep => ?disableIdle,
      fun hon hact hstep => ?disableRunning⟩,
    fun h hen hon => ⟨fun hrun => ?parks, fun hparked => ?unparks⟩, fun h hq => ⟨?taken, ?refused⟩⟩
  case enable =>
    have hkept : bit (withBit v 0).toNat 1 = (s.gen p).park := by
      rw [bit_withBit_of_ne v (by decide), bit_eq_testBit, BitVec.testBit_toNat, hpark]
    rw [exec_genEnable hopen h, State.writeGenCtl_enables (bit_withBit (by decide)) hkept hoff hact]
    refine ⟨fun hpin => by rw [State.genOn_unpinned hact rfl hpin], ?starts⟩
    intro s1 b hpin hdesc d u hrings hfields hqueue s2 s3 tb pb htpl hcmds hpool hext
    rw [State.genOn_starts hact rfl rfl hpin hdesc hrings hfields hqueue htpl hcmds hpool hext]
  case disableIdle => rw [hdisables h hpark hon, State.genOff_idle hact hstep, State.genStop]
  case disableRunning => rw [hdisables h hpark hon, State.genOff_running hstep, State.genStop]
  case parks =>
    have hkept : bit (withBit v 1).toNat 0 = true := by
      rw [bit_withBit_of_ne v (by decide), bit_eq_testBit, BitVec.testBit_toNat, hen]
    rw [exec_genPark hopen h, State.writeGenCtl_parks hkept (bit_withBit (by decide)) hon hrun,
      State.genParkOn]
  case unparks =>
    have hkept : bit (noBit v 1).toNat 0 = true := by
      rw [bit_noBit v 1 (by decide), bit_eq_testBit, BitVec.testBit_toNat, hen]
      rfl
    have hclear : bit (noBit v 1).toNat 1 = false := by simp [bit_noBit v 1]
    rw [exec_genUnpark hopen h, State.writeGenCtl_unparks hkept hclear hon hparked]
  case taken =>
    intro hact hv
    rw [exec_genReqDoorbell hopen h hq, State.genDoorbell_taken rfl hact hv]
  case refused =>
    intro hno
    rw [exec_genReqDoorbell hopen h hq, State.genDoorbell_refused rfl hno]

end Sys2Proof.Machine
end

section
/-! SUPPORT. The commands over rows (O43; R301 to R315, R339 to R341): how ATTEND, SAMPLE, VERIFY_HEADS and
SOUND_READ end, by what their reads and their rows answer. -/

namespace Sys2Proof.Machine

section
variable {p : Fin 16} {q : Fin 64} {slot : BitVec 16} {s : State} {c : Cmd}

theorem exec_attend (h : s.rowCmd p q slot.toNat (·.op == opAttend) = some c) :
    exec (.attend p q slot) s = .next (s.runAttend p c) := State.onCmd_rowCmd h _

theorem exec_sample (h : s.rowCmd p q slot.toNat (·.op == opSample) = some c) :
    exec (.sample p q slot) s = .next (s.runSample p c) := State.onCmd_rowCmd h _

theorem exec_verifyHeads (h : s.rowCmd p q slot.toNat (·.op == opVerify) = some c) :
    exec (.verifyHeads p q slot) s = .next (s.runVerify p c) := State.onCmd_rowCmd h _

theorem exec_soundRead (h : s.rowCmd p q slot.toNat (·.op == opSoundRead) = some c) :
    exec (.soundRead p q slot) s = .next (s.runSoundRead p c) := State.onCmd_rowCmd h _

end

section
variable {s s1 s2 s3 s4 : State} {p : Nat} {c : Cmd}

/-! How a command over rows ends. -/

theorem State.endRows_ok (dst : List (Nat × Nat)) (t : State) (n : Nat) :
    s.endRows p c dst (t, .ok n) = t.finish p c (endDone n) := rfl

theorem State.endRows_fault (dst : List (Nat × Nat)) (t : State) (d r : Nat) :
    s.endRows p c dst (t, .fault d r) = t.finish p c (endWith stDeviceFault d r true) := rfl

/-! ATTEND (R304 to R307). -/

/-- The heads of the rows, as ATTEND computes them. -/
def attendHeads (x : Profile) (rows : List GenRow) : List (GenRow × Nat × Nat) :=
  rows.zipIdx.flatMap fun e => (List.range x.hq).map fun g => (e.1, e.2, g)

/-- The keys and values that ATTEND appends: none unless it is asked to. -/
def attendAdds (c : Cmd) (d : GenDesc) (rows : List GenRow) : List (GenRow × Nat × Nat × Bool) :=
  if aAppend c then
    rows.zipIdx.flatMap fun e => [false, true].flatMap fun v =>
      (List.range d.hkv).map fun h => (e.1, e.2, h, v)
  else []

/-- The first row whose position lies beyond the cache (R307). -/
def rowBeyond (d : GenDesc) (rows : List GenRow) : Option Nat :=
  rows.findIdx? fun r => decide (d.posMax < r.pos)

/-- Without an engine there is no profile (R307). -/
theorem State.runAttend_off (hact : (s.gen p).active = false) :
    s.runAttend p c = s.finish p c (endWith stDeviceFault 0x1101 0 true) := by
  have hprofile : s.attendProfile p c = (s, .inr (.fault 0x1101 0)) := by
    simp [State.attendProfile, hact]
  rw [State.runAttend, hprofile]
  exact State.endRows_fault ..

section
variable {x : Profile} {rows : List GenRow} (hprofile : s.attendProfile p c = (s1, .inl x))
  (hbatch : s1.readBatch p (c.va 0x28) = (s2, .ok rows))
include hprofile hbatch

theorem State.runAttend_broken {i : Nat} (hrows : rowsBroken [] rows = some i) :
    s.runAttend p c = s2.finish p c (endWith stDeviceFault 0x1102 i true) := by
  simp only [State.runAttend, hprofile, hbatch, hrows, State.endRows_fault]

variable (hrows : rowsBroken [] rows = none)
include hrows

theorem State.runAttend_beyond {i : Nat} (hpos : rowBeyond (s.gen p).desc rows = some i) :
    s.runAttend p c = s2.finish p c (endWith stDeviceFault 0x1103 i true) := by
  unfold rowBeyond at hpos
  simp only [State.runAttend, hprofile, hbatch, hrows, hpos, State.endRows_fault]

/-- Rows in order and within the cache are appended and computed, and counted (R306). -/
theorem State.runAttend_done {n m : Nat} (hpos : rowBeyond (s.gen p).desc rows = none)
    (hadds : appendGo p c (s.gen p).desc (aLayer c) (attendAdds c (s.gen p).desc rows) s2 = (s3, .ok n))
    (hheads : attendGo p c x (s.gen p).desc (attendHeads x rows) s3 = (s4, .ok m)) :
    s.runAttend p c = s4.finish p c (endDone rows.length) := by
  unfold rowBeyond at hpos
  unfold attendAdds at hadds
  unfold attendHeads at hheads
  simp only [State.runAttend, hprofile, hbatch, hrows, hpos, hadds, hheads, State.endRows_ok]

end

/-! SAMPLE (R308 to R314). -/

theorem State.runSample_reserved (h : 4 < saHead c ∨ saV c < 2 ∨ 1048576 < saV c) :
    s.runSample p c = s.finish p c (endWith stDeviceFault 0x1104 0 true) := by
  rw [State.runSample, if_pos h, State.endRows_fault]

theorem State.runSample_done {rows : List GenRow} {n : Nat} (hhead : saHead c ≤ 4) (hlo : 2 ≤ saV c)
    (hhi : saV c ≤ 1048576) (hbatch : s.readBatch p (c.va 0x20) = (s1, .ok rows))
    (hgo : sampleGo p c rows.zipIdx 0 s1 = (s2, .ok n)) :
    s.runSample p c = s2.tickFree.finish p c (endDone n) := by
  rw [State.runSample, if_neg (by omega)]
  simp only [hbatch, hgo, State.endRows_ok]

/-! VERIFY_HEADS (R315). -/

theorem State.runVerify_done {rows : List GenRow} {ts : List Word} {n : Nat}
    (hbatch : s.readBatch p (c.va 0x18) = (s1, .ok rows))
    (htokens : tokensGo p c rows.zipIdx s1 = (s2, .ok ts))
    (hverdicts : verdictGo p c (verdictsGo none (rows.zip ts)).zipIdx s2 = (s3, .ok n)) :
    s.runVerify p c =
      s3.finish p c (endDone ((verdictsGo none (rows.zip ts)).filter (·.2)).length) := by
  simp only [State.runVerify, hbatch, htokens, hverdicts, State.endRows_ok]

/-! SOUND_READ (R340, R341). -/

theorem State.runSoundRead_off (hen : (s.part p).snd.en = false) :
    s.runSoundRead p c = s.finish p c (endWith stDeviceFault 0x1210 0 true) := by
  rw [State.runSoundRead, hen]
  rfl

/-- A staged CLEAR clears the entries once all are copied; any other command ends as it is. -/
theorem State.runSoundRead_done {n : Nat} (hen : (s.part p).snd.en = true)
    (hgo : sndReadGo p c (List.range (sndN c)) s = (s1, .ok n)) :
    s.runSoundRead p c = (if sndClear c && staged c then
        (List.range (sndN c)).foldl (fun s i => (s.sndClearEntry p (sndFirst c + i)).1) s1
      else s1).finish p c (endDone (sndN c)) := by
  simp only [State.runSoundRead, hen, Bool.not_true, Bool.false_eq_true, if_false, hgo, State.endRows_ok]

end

/-- Settles O43: each command by its checks, its batch table and its rows. -/
theorem rowCommandsComplete : Obligations.RowCommandsComplete := by
  unfold Obligations.RowCommandsComplete
  intro p q slot s c
  refine ⟨fun hrow => ?attend, fun hrow => ?sample, fun hrow => ?verify, fun hrow => ?sound⟩
  case attend =>
    rw [exec_attend hrow]
    refine ⟨fun hact => by rw [State.runAttend_off hact], ?rows⟩
    intro s1 x s2 rows hprofile hbatch d bad heads adds
    refine ⟨fun i hbroken => ?broken, fun i hrows hpos => ?beyond,
      fun s3 s4 n m hrows hpos hadds hheads => ?done⟩
    case broken => rw [State.runAttend_broken hprofile hbatch hbroken]
    case beyond => rw [State.runAttend_beyond hprofile hbatch hrows hpos]
    case done => rw [State.runAttend_done hprofile hbatch hrows hpos hadds hheads]
  case sample =>
    rw [exec_sample hrow]
    exact ⟨fun h => by rw [State.runSample_reserved h],
      fun s1 rows s2 n hhead hlo hhi hbatch hgo => by rw [State.runSample_done hhead hlo hhi hbatch hgo]⟩
  case verify =>
    intro s1 rows s2 ts s3 n hbatch htokens hverdicts
    rw [exec_verifyHeads hrow, State.runVerify_done hbatch htokens hverdicts]
  case sound =>
    rw [exec_soundRead hrow]
    refine ⟨fun hen => by rw [State.runSoundRead_off hen], fun s1 n hen hgo => ?_⟩
    rw [State.runSoundRead_done hen hgo]
    exact ⟨fun hkeep => by rw [hkeep]; rfl, fun hclear => by rw [hclear]; rfl⟩

end Sys2Proof.Machine
end

section
/-! SUPPORT. Request entries (O52; R318 to R325): the entry that a row takes, and what SUBMIT, CANCEL, PAUSE
and RESUME do with it. -/

namespace Sys2Proof.Machine

/-- A change by the engine looks only at the engine as it is. -/
theorem State.updGen_congr {s : State} {p : Nat} {f g : Gen → Gen} (h : f (s.gen p) = g (s.gen p)) :
    s.updGen p f = s.updGen p g := by
  have hpart : (s.updPart p fun x => { x with gen := f x.gen }) =
      s.updPart p fun x => { x with gen := g x.gen } :=
    State.updPart_congr (congrArg (fun y => { s.part p with gen := y }) h)
  rw [State.updGen, hpart, State.updGen]

/-- The entry at the head has been taken from the request ring (R318). -/
def State.entryTaken (t : State) (p : Nat) : State :=
  t.updPart p fun x => { x with gen := { x.gen with
    reqHead := BitVec.ofNat 17 (((t.gen p).reqHead.toNat + 1) % (2 * (t.gen p).reqN)) } }

section
variable {s t : State} {b : List Byte}

/-- An entry of the row's kind is taken once the event ring has room for it (R319). -/
theorem State.onEntry_taken {p : Nat} (hnext : s.nextEntry p = .on (t, b)) {kind : Nat → Bool}
    (hkind : kind (eKind b) = true) {room : List Byte → Nat} (hroom : room b ≤ (t.gen p).evtRoom)
    (f : State → List Byte → State) :
    s.onEntry p kind room f = .next ((f (t.entryTaken p) b).genEvents p) := by
  have hgo : (!kind (eKind b) || decide ((t.gen p).evtRoom < room b)) = false := by
    simpa [hkind] using hroom
  simp only [State.onEntry, hnext, hgo]
  rfl

variable {p : Fin 16} (hnext : s.nextEntry p = .on (t, b))
include hnext

/-- A SUBMIT, or an entry of a reserved kind, that no quarantined prompt holds. -/
theorem exec_submit (hkind : ¬ (2 ≤ eKind b ∧ eKind b ≤ 4))
    (hprompt : submitBad (t.gen p).desc b = true
      ∨ ∀ v, t.xread (t.helmReq p) (bVa b 0x10) (4 * bAt b 0x18 4) ≠ (v, .held))
    (hroom : submitRoom (s.gen p) b ≤ (t.gen p).evtRoom) {u : State}
    (hu : (t.entryTaken p).submit p b = u) : exec (.submit p) s = .next (u.genEvents p) := by
  rw [← hu, ← State.onEntry_taken hnext (kind := fun k => !(decide (2 ≤ k ∧ k ≤ 4))) (by simp [hkind])
    hroom fun s b => s.submit p b]
  change execSubmit p s = _
  unfold execSubmit
  rw [hnext]
  by_cases hbad : submitBad (t.gen p).desc b = true
  · simp only [hbad, if_true]
  · have hfree := hprompt.resolve_left hbad
    simp only [hbad]
    cases hread : t.xread (t.helmReq p) (bVa b 0x10) (4 * bAt b 0x18 4) with
    | mk v r =>
      cases r with
      | held => exact absurd hread (hfree v)
      | ok bs => rfl
      | fail st m => rfl

end

/-! What CANCEL, PAUSE and RESUME do to the engine's records. -/

/-- CANCEL (R323). -/
def cancelEntry (b : List Byte) (g : Gen) : Gen :=
  match g.live (eId b) with
  | none => g.push (entryDone b stAbortNothing none)
  | some r => (g.endReq r evCancelled stCancelled 0).push (entryDone b stDone (some r))

/-- PAUSE (R324): one that comes while a step runs waits for its end. -/
def pauseEntry (b : List Byte) (g : Gen) : Gen :=
  match g.live (eId b) with
  | none => g.push (entryDone b stAbortNothing none)
  | some r =>
    if r.paused.isSome || r.pausing then g.push (entryDone b stAbortNothing (some r))
    else if g.step.isNone then g.pause r 1
    else g.updReq r.window fun x => { x with pausing := true }

/-- RESUME (R325): of a request that the host has paused. -/
def resumeEntry (b : List Byte) (g : Gen) : Gen :=
  match g.live (eId b) with
  | none => g.push (entryDone b stAbortNothing none)
  | some r =>
    if r.paused = some 1 then
      g.updReq r.window fun x => { x with paused := none, resumed := true, moved := false }
    else g.push (entryDone b stAbortNothing (some r))

section
variable {s t : State} {b : List Byte} {p : Fin 16} (hnext : s.nextEntry p = .on (t, b)) {f : Gen → Gen}
include hnext

theorem exec_cancel (hkind : eKind b = 2) (hroom : 2 ≤ (t.gen p).evtRoom)
    (hf : cancelEntry b ((t.entryTaken p).gen p) = f ((t.entryTaken p).gen p)) :
    exec (.cancel p) s = .next (((t.entryTaken p).updGen p f).genEvents p) := by
  rw [← State.updGen_congr hf]
  exact State.onEntry_taken hnext (kind := (· == 2)) (beq_iff_eq.2 hkind) (room := fun _ => 2) hroom
    fun s b => s.updGen p (cancelEntry b)

theorem exec_pause (hkind : eKind b = 3) (hroom : 1 ≤ (t.gen p).evtRoom)
    (hf : pauseEntry b ((t.entryTaken p).gen p) = f ((t.entryTaken p).gen p)) :
    exec (.pause p) s = .next (((t.entryTaken p).updGen p f).genEvents p) := by
  rw [← State.updGen_congr hf]
  exact State.onEntry_taken hnext (kind := (· == 3)) (beq_iff_eq.2 hkind) (room := fun _ => 1) hroom
    fun s b => s.updGen p (pauseEntry b)

theorem exec_resume (hkind : eKind b = 4) (hroom : 1 ≤ (t.gen p).evtRoom)
    (hf : resumeEntry b ((t.entryTaken p).gen p) = f ((t.entryTaken p).gen p)) :
    exec (.resume p) s = .next (((t.entryTaken p).updGen p f).genEvents p) := by
  rw [← State.updGen_congr hf]
  exact State.onEntry_taken hnext (kind := (· == 4)) (beq_iff_eq.2 hkind) (room := fun _ => 1) hroom
    fun s b => s.updGen p (resumeEntry b)

end

section
variable {b : List Byte} {g : Gen} {r : GenReq}

theorem cancelEntry_absent (h : g.live (eId b) = none) :
    cancelEntry b g = g.push (entryDone b stAbortNothing none) := by
  simp only [cancelEntry, h]

theorem pauseEntry_absent (h : g.live (eId b) = none) :
    pauseEntry b g = g.push (entryDone b stAbortNothing none) := by
  simp only [pauseEntry, h]

theorem resumeEntry_absent (h : g.live (eId b) = none) :
    resumeEntry b g = g.push (entryDone b stAbortNothing none) := by
  simp only [resumeEntry, h]

variable (h : g.live (eId b) = some r)
include h

theorem cancelEntry_live : cancelEntry b g =
    (g.endReq r evCancelled stCancelled 0).push (entryDone b stDone (some r)) := by
  simp only [cancelEntry, h]

/-- A request that is paused, or is to be, is not paused again. -/
theorem pauseEntry_paused (hp : r.paused.isSome = true ∨ r.pausing = true) :
    pauseEntry b g = g.push (entryDone b stAbortNothing (some r)) := by
  simp only [pauseEntry, h, Bool.or_eq_true, if_pos hp]

theorem pauseEntry_idle (hp : r.paused = none) (hw : r.pausing = false) (hstep : g.step = none) :
    pauseEntry b g = g.pause r 1 := by
  simp [pauseEntry, h, hp, hw, hstep]

theorem pauseEntry_stepping (hp : r.paused = none) (hw : r.pausing = false) (hstep : g.step ≠ none) :
    pauseEntry b g = g.updReq r.window fun x => { x with pausing := true } := by
  simp [pauseEntry, h, hp, hw, hstep]

theorem resumeEntry_other (hp : r.paused ≠ some 1) :
    resumeEntry b g = g.push (entryDone b stAbortNothing (some r)) := by
  simp only [resumeEntry, h, if_neg hp]

theorem resumeEntry_paused (hp : r.paused = some 1) : resumeEntry b g =
    g.updReq r.window fun x => { x with paused := none, resumed := true, moved := false } := by
  simp only [resumeEntry, h, if_pos hp]

end

/-! SUBMIT (R321, R322). -/

theorem State.submit_bad {s : State} {p : Nat} {b : List Byte} (hbad : submitBad (s.gen p).desc b = true) :
    s.submit p b = s.reject p b stDeviceFault 1 := if_pos hbad

/-- The words of a prompt as it was read. -/
def promptOf (b pb : List Byte) : List Word :=
  (List.range (bAt b 0x18 4)).map fun i => BitVec.ofNat 32 (bAt pb (4 * i) 4)

/-- One of the ids that the entry asks for is live. -/
def idsUsed (g : Gen) (b : List Byte) : Bool :=
  (List.range (bAt b 2 2)).any fun j => (g.live (eId b + BitVec.ofNat 32 j)).isSome

/-- The nodes that a SUBMIT hits: none for a scoring request or one that does not share (R296). -/
def submitHits (g : Gen) (b : List Byte) (prompt : List Word) : List DirNode × Bool :=
  if bit (bAt b 1 1) 2 || bit (bAt b 1 1) 4 then ([], false) else g.lookup prompt

/-- A lookup that stopped at other tokens is recorded. -/
def State.noteStop (s : State) (p : Nat) (stopped : Bool) : State :=
  if stopped then s.eventP 0x4011 (s.uPartHelm p) p else s

/-- `f` on every node that was hit. -/
def onHits (hits : List DirNode) (f : DirNode → DirNode) (g : Gen) : Gen :=
  { g with dir := g.dir.map fun x => if hits.any fun h => h.key == x.key then f x else x }

/-- The search for an admission's frames, which evicts no node that was hit (R322). -/
def State.submitFrames (s : State) (p : Nat) (d : GenDesc) (b : List Byte) (hits : List DirNode) :
    State × Bool :=
  (s.updGen p (onHits hits fun x => { x with refs := x.refs + 1 })).reclaim p (bAt b 1 1 % 4)
    (admitNeed d (bit (bAt b 1 1) 2) (bAt b 0x18 4) (hits.length * d.tokens) (bAt b 2 2))

/-- The windows of the samples (R321). -/
def submitWindows (g : Gen) (v : State) (b : List Byte) : List Nat :=
  pickWindows g (Config.freePick v.free) (bAt b 2 2)

section
variable {u v : State} {p : Nat} {b pb : List Byte} {g : Gen} {look : List DirNode × Bool}
  (hgood : submitBad (u.gen p).desc b = false)
  (hread : u.xread (u.helmReq p) (bVa b 0x10) (4 * bAt b 0x18 4) = (v, .ok pb)) (hg : u.gen p = g)
  (hlook : submitHits (v.gen p) b (promptOf b pb) = look)
include hgood hread hg hlook

/-- A good SUBMIT whose prompt has been read: its ids, its windows and its frames are looked for in turn. -/
theorem State.submit_read : u.submit p b =
    if idsUsed g b then v.reject p b stBusy 2
    else if (submitWindows g v b).length < bAt b 2 2 then v.reject p b stBusy 3
    else if !((v.noteStop p look.2).submitFrames p g.desc b look.1).2 then
      (v.noteStop p look.2).reject p b stNoPages 4
    else ((((v.noteStop p look.2).submitFrames p g.desc b look.1).1.updGen p
      (onHits look.1 fun x => { x with refs := x.refs - 1 })).admitFan p b (promptOf b pb)
        (submitWindows g v b) look.1).tickFree := by
  subst hg hlook
  unfold State.submit
  simp only [hgood, hread, List.any_map]
  rfl

theorem State.submit_idUsed (hused : idsUsed g b = true) : u.submit p b = v.reject p b stBusy 2 := by
  rw [State.submit_read hgood hread hg hlook, if_pos hused]

variable (hfresh : idsUsed g b = false)
include hfresh

theorem State.submit_fewWindows (hfew : (submitWindows g v b).length < bAt b 2 2) :
    u.submit p b = v.reject p b stBusy 3 := by
  rw [State.submit_read hgood hread hg hlook, if_neg (Bool.eq_false_iff.1 hfresh), if_pos hfew]

variable (hmany : bAt b 2 2 ≤ (submitWindows g v b).length)
include hmany

theorem State.submit_noFrames (hnone : ((v.noteStop p look.2).submitFrames p g.desc b look.1).2 = false) :
    u.submit p b = (v.noteStop p look.2).reject p b stNoPages 4 := by
  rw [State.submit_read hgood hread hg hlook, if_neg (Bool.eq_false_iff.1 hfresh),
    if_neg (Nat.not_lt.2 hmany), hnone, Bool.not_false, if_pos rfl]

theorem State.submit_admitted (hframes : ((v.noteStop p look.2).submitFrames p g.desc b look.1).2 = true) :
    u.submit p b = ((((v.noteStop p look.2).submitFrames p g.desc b look.1).1.updGen p
      (onHits look.1 fun x => { x with refs := x.refs - 1 })).admitFan p b (promptOf b pb)
        (submitWindows g v b) look.1).tickFree := by
  rw [State.submit_read hgood hread hg hlook, if_neg (Bool.eq_false_iff.1 hfresh),
    if_neg (Nat.not_lt.2 hmany), hframes, Bool.not_true, if_neg Bool.false_ne_true]

end

end Sys2Proof.Machine
end

section
/-! SUPPORT. The serving engine's steps (O52; R298 to R303, R324, R327): how one starts and how one ends. -/

namespace Sys2Proof.Machine

/-! The start of a step (R298 to R303). -/

section
variable {p : Fin 16} {s t : State} {late : List Word} {items : List (GenReq × List GenRow)}
  (hmay : s.mayStep p = true) (hplan : s.planStep p late = (t, items))
include hmay hplan

/-- With no rows to run nothing starts. -/
theorem exec_genStepStart_none (hnone : items = []) :
    exec (.genStepStart p late) s = .next (t.genEvents p) := by
  refine congrArg Host.Outcome.next ?_
  simp [hmay, hplan, hnone]

variable (hsome : items ≠ [])
include hsome

/-- The events of a commit would not fit (R327). -/
theorem exec_genStepStart_full (hshort : evtShort (t.gen p) items = true) :
    exec (.genStepStart p late) s =
      .next (s.updPart p fun y => { y with gen := { y.gen with evtFull := true } }) := by
  refine congrArg Host.Outcome.next ?_
  simp [hmay, hplan, hsome, hshort]

theorem exec_genStepStart_launched {u : State} (hfits : evtShort (t.gen p) items = false)
    (hlaunch : (t.genEvents p).launch p (items.flatMap (·.2)) = .on u) :
    exec (.genStepStart p late) s = .next u.tickFree := by
  refine congrArg Host.Outcome.next ?_
  simp [hmay, hplan, hsome, hfits, hlaunch]

end

/-! The end of a step whose template has run (R302, R327). -/

section
variable {p : Fin 16} {s : State} {st : GenStep} (hstep : (s.gen p).step = some st) (hleft : st.left = 0)
  (hen : s.enabled p = true)
include hstep hleft hen

/-- An engine that stops commits nothing (R328). -/
theorem exec_genStepCommit_stopping (hstop : (s.gen p).stopping = true) :
    exec (.genStepCommit p) s = .next (s.stepEnd p) := by
  refine congrArg Host.Outcome.next ?_
  simp [hstep, hleft, hen, hstop]

variable (hruns : (s.gen p).stopping = false)
include hruns

theorem exec_genStepCommit_failed {f : BitVec 8 × BitVec 64} (hfailed : st.failed = some f) :
    exec (.genStepCommit p) s = .next ((s.discard p st f.1.toNat f.2.toNat).stepEnd p) := by
  refine congrArg Host.Outcome.next ?_
  simp [hstep, hleft, hen, hruns, hfailed]

theorem exec_genStepCommit_commits {t u : State} {os : List RowOut} (hfailed : st.failed = none)
    (houts : s.outputs p st = (t, .ok os)) (hgo : commitGo p st.no (stepReqs (s.gen p) os) t = .on u) :
    exec (.genStepCommit p) s = .next ((u.updPart p fun x => { x with gen := { x.gen with
      stepNo := BitVec.ofNat 64 st.no, discards := 0, retry := false } }).stepEnd p) := by
  refine congrArg Host.Outcome.next ?_
  simp [hstep, hleft, hen, hruns, hfailed, houts, hgo]

end

/-- A request long paused moves its own pages to LPDDR6, once (R324). -/
theorem exec_pauseTimeout {p : Fin 16} {s : State} {id : Word} {r : GenReq}
    (hlive : (s.gen p).live id = some r) (hen : s.enabled p = true) (hpaused : r.paused.isSome = true)
    (hmoved : r.moved = false) :
    exec (.pauseTimeout p id) s = .next ((s.moveWindow p r.window true).updGen p
      (·.updReq r.window fun x => { x with moved := true })) := by
  refine congrArg Host.Outcome.next ?_
  simp [hlive, hen, hpaused, hmoved]

/-- Settles O52: the entries by their kind and what they find, then the steps by what they answer. -/
theorem servingComplete : Obligations.ServingComplete := by
  unfold Obligations.ServingComplete
  refine ⟨?entries, fun p s => ⟨fun late t items hmay hplan => ⟨exec_genStepStart_none hmay hplan,
      exec_genStepStart_full hmay hplan, fun u hsome => exec_genStepStart_launched hmay hplan hsome⟩,
    fun st hstep hleft hen => ⟨exec_genStepCommit_stopping hstep hleft hen,
      fun hruns => ⟨fun f => exec_genStepCommit_failed hstep hleft hen hruns,
        fun t os u => exec_genStepCommit_commits hstep hleft hen hruns⟩⟩,
    fun id r => exec_pauseTimeout⟩⟩
  intro p s t b hnext g u now none_
  refine ⟨fun hkind hbad hbadBefore hbadNow hroom => ?rejected,
    fun hkind hgood hgoodBefore hgoodNow hroom => ?submits,
    fun hkind hroom => ⟨fun hlive => ?cancelNone, fun r hlive => ?cancels⟩,
    fun hkind hroom => ⟨fun hlive => ?pauseNone, fun r hlive hpaused => ?pauseAgain,
      fun r hlive hruns hpausing => ⟨fun hstep => ?pauses, fun hstep => ?pauseWaits⟩⟩,
    fun hkind hroom => ⟨fun hlive => ?resumeNone, fun r hlive hpaused => ?resumeOther,
      fun r hlive hpaused => ?resumes⟩⟩
  case rejected =>
    have hone : submitRoom (s.gen p) b = 1 := if_pos hbadBefore
    exact exec_submit hnext hkind (Or.inl hbad) (hone ▸ hroom) (State.submit_bad hbadNow)
  case submits =>
    intro n flags hfree v pb hread prompt fan ws look v1 hold free used
    have hends {w : State} (hw : u.submit p b = w) : exec (.submit p) s = .next (w.genEvents p) :=
      exec_submit hnext (by omega) (Or.inr hfree) hroom hw
    exact ⟨fun hused => hends (State.submit_idUsed hgoodNow hread rfl rfl hused),
      fun hfresh hfew => hends (State.submit_fewWindows hgoodNow hread rfl rfl hfresh hfew),
      fun hfresh hmany hnone => hends (State.submit_noFrames hgoodNow hread rfl rfl hfresh hmany hnone),
      fun hfresh hmany hframes =>
        hends (State.submit_admitted hgoodNow hread rfl rfl hfresh hmany hframes)⟩
  case cancelNone => exact exec_cancel hnext hkind hroom (cancelEntry_absent hlive)
  case cancels => exact exec_cancel hnext hkind hroom (cancelEntry_live hlive)
  case pauseNone => exact exec_pause hnext hkind hroom (pauseEntry_absent hlive)
  case pauseAgain => exact exec_pause hnext hkind hroom (pauseEntry_paused hlive hpaused)
  case pauses => exact exec_pause hnext hkind hroom (pauseEntry_idle hlive hruns hpausing hstep)
  case pauseWaits => exact exec_pause hnext hkind hroom (pauseEntry_stepping hlive hruns hpausing hstep)
  case resumeNone => exact exec_resume hnext hkind hroom (resumeEntry_absent hlive)
  case resumeOther => exact exec_resume hnext hkind hroom (resumeEntry_other hlive hpaused)
  case resumes => exact exec_resume hnext hkind hroom (resumeEntry_paused hlive hpaused)

end Sys2Proof.Machine
end

section
/-! SUPPORT. PAR_SND_CTL and PAR_CTL (O34; R339, R415, R416, R418, R420, R432): what a write of each register
does, by its enable bit and by what it finds. -/

namespace Sys2Proof.Machine

/-! PAR_SND_CTL. -/

theorem exec_sndEnable {s : State} {a : Agent} {p : Fin 16} (hopen : s.parOpen p = true)
    (h : s.hasAccess a (parBase p + 0xA00) = true) (v : Word) :
    exec (.sndEnable a p v) s = .next (s.writeSndCtl a p (v.toNat / 2 * 2 + 1)) := by
  rw [← withBit_zero]
  exact congrArg Host.Outcome.next (State.writeAddr_own (r := .sndCtl) hopen h _)

/-- While Soundings are off, EN with a legal size sets the fields and checks the table's place (R339). -/
theorem State.writeSndCtl_enables {s : State} {p w : Nat} (g : Agent) (hoff : (s.part p).snd.en = false)
    (hen : bit w 0 = true) (hsize : 6 ≤ fld w 1 5 ∧ fld w 1 5 ≤ 16) :
    s.writeSndCtl g p w = ((s.updSnd p fun x => { x with queue := BitVec.ofNat 6 (w / 64) }).updSnd p
      fun x => { x with log2n := BitVec.ofNat 5 (w / 2) }).sndOn p := by
  rw [State.writeSndCtl, State.field_ok hsize, hoff, hen]
  rfl

/-! PAR_CTL. -/

section
variable {s : State} {a : Agent} {p : Fin 16} (h : s.hasAccess a (parBase p) = true) (v : Word)
include h

theorem State.writeAddr_parCtl : s.writeAddr a (parBase p) v = s.writeParCtl (s.uid a) p v.toNat :=
  State.writeAddr_hasAccess (r := .par p .ctl) h (regAt_par p (o := 0) (by decide) (by decide)) v

theorem exec_partitionEnable :
    exec (.partitionEnable a p v) s = .next (s.writeParCtl (s.uid a) p (v.toNat / 2 * 2 + 1)) := by
  rw [← withBit_zero]
  exact congrArg Host.Outcome.next (State.writeAddr_parCtl h _)

theorem exec_partitionTeardown :
    exec (.partitionTeardown a p v) s = .next (s.writeParCtl (s.uid a) p (v.toNat / 2 * 2)) := by
  rw [← noBit_zero]
  exact congrArg Host.Outcome.next (State.writeAddr_parCtl h _)

end

section
variable {s : State} {unit p w : Nat}

/-- EN of a disabled partition sets the fields, a reserved one recorded, and starts the enable (R415, R418). -/
theorem State.writeParCtl_enables {f : Part × Bool} (hf : ctlFields (s.part p) w = f)
    (hst : (s.part p).state = 0) (hen : bit w 0 = true) :
    s.writeParCtl unit p w =
      (if f.2 then (s.updPart p fun _ => { f.1 with en := true }).event 0x8021 unit
        else s.updPart p fun _ => { f.1 with en := true }).startEnable p := by
  subst hf
  rw [State.writeParCtl, if_pos hst, hen]
  rfl

/-- EN of a partition that is not disabled is refused (R416). -/
theorem State.writeParCtl_refused (hst : (s.part p).state ≠ 0) (hen : bit w 0 = true) :
    s.writeParCtl unit p w = s.eventP 0x6001 unit p := by
  rw [State.writeParCtl, if_neg hst, if_pos hen]

/-- EN cleared during an enable is held (R420). -/
theorem State.writeParCtl_held (hst : (s.part p).state = 1) (hdis : bit w 0 = false) :
    s.writeParCtl unit p w = s.updPart p fun x => { x with heldDisable := true } := by
  simp [State.writeParCtl, hst, hdis]

/-- EN cleared of an enabled partition starts its teardown (R432). -/
theorem State.writeParCtl_tearsDown (hst : (s.part p).state = 2) (hdis : bit w 0 = false) :
    s.writeParCtl unit p w = s.startTeardown p := by
  simp [State.writeParCtl, hst, hdis]

end

/-- Settles O34: PAR_SND_CTL's enable makes its check; PAR_CTL acts by PAR_STATE and by the bit written. -/
theorem soundingsAndPartitionControlComplete : Obligations.SoundingsAndPartitionControlComplete := by
  unfold Obligations.SoundingsAndPartitionControlComplete
  intro a p v s
  refine ⟨fun hopen h hoff hlo hhi => ?soundings, fun h hst => ?enables, fun h hst => ?refused,
    fun h hst => ?tearsDown, fun h hst => ?held⟩
  case soundings =>
    have hhalf : (v.toNat / 2 * 2 + 1) / 2 = v.toNat / 2 := by omega
    have hqueue : (v.toNat / 2 * 2 + 1) / 64 = v.toNat / 64 := by omega
    have hsize : fld (v.toNat / 2 * 2 + 1) 1 5 = v.toNat / 2 % 32 := congrArg (· % 32) hhalf
    rw [exec_sndEnable hopen h, State.writeSndCtl_enables a hoff (bit_zero_odd _) (hsize ▸ ⟨hlo, hhi⟩),
      hhalf, hqueue]
    rfl
  case enables => rw [exec_partitionEnable h, State.writeParCtl_enables rfl hst (bit_zero_odd _)]
  case refused => rw [exec_partitionEnable h, State.writeParCtl_refused hst (bit_zero_odd _)]
  case tearsDown =>
    rw [exec_partitionTeardown h, State.writeParCtl_tearsDown hst (bit_zero_even _), State.startTeardown]
  case held => rw [exec_partitionTeardown h, State.writeParCtl_held hst (bit_zero_even _)]

end Sys2Proof.Machine
end

section
/-! SUPPORT. WEIGHT_LOAD (O49; R384, R389 to R396): the start of a LOAD and an ADOPT by the state of the set and
its manifest, RETIRE by the state, and what each message does to the LOAD that it names in its data phase. -/

namespace Sys2Proof.Machine

/-! The three modes. -/

section
variable {p : Fin 16} {q : Fin 64} {slot : BitVec 16} {s : State} {c : Cmd}

theorem exec_load (h : s.rowCmd p q slot.toNat (fun c => isWeight 0 c && c.prog == .none) = some c) :
    exec (.load p q slot) s = .next (s.startLoad p c) :=
  State.onCmd_rowCmd h _

theorem exec_adopt (h : s.rowCmd p q slot.toNat (fun c => isWeight 1 c && c.prog == .none) = some c) :
    exec (.adopt p q slot) s = .next (s.startAdopt p c) :=
  State.onCmd_rowCmd h _

section
variable (h : s.rowCmd p q slot.toNat (fun c => isWeight 2 c && c.prog == .none) = some c)
include h

/-- RETIRE waits for a recovery of the set (R396). -/
theorem exec_retire_recovering (hst : ((s.part p).wset (loadSet c)).state = 3) :
    exec (.retire p q slot) s = .next s := by
  refine (State.onCmd_rowCmd h _).trans (congrArg Host.Outcome.next (if_pos ?_))
  rw [hst]
  rfl

theorem exec_retire_loading (hst : ((s.part p).wset (loadSet c)).state = 1) :
    exec (.retire p q slot) s = .next (s.finish p c (endWith stDeviceFault 0x1303 1 true)) := by
  refine (State.onCmd_rowCmd h _).trans (congrArg Host.Outcome.next ?_)
  dsimp only
  rw [hst]
  rfl

theorem exec_retire_empties (hrec : ((s.part p).wset (loadSet c)).state ≠ 3)
    (hload : ((s.part p).wset (loadSet c)).state ≠ 1) :
    exec (.retire p q slot) s = .next (((s.emptySet p (loadSet c)).updSet p (loadSet c) fun w =>
      { w with gen := false }).finishOpen p c stDone 0 false) := by
  refine (State.onCmd_rowCmd h _).trans (congrArg Host.Outcome.next ?_)
  dsimp only
  rw [if_neg (by simpa using hrec), if_neg (by simpa using hload)]

end

end

/-- The run of a LOAD as it starts. -/
def newLoad (c : Cmd) (es : List ManEntry) (crc ret : Nat) : LoadRun :=
  { set := loadSet c, coll := { group := gGroup c, ordinal := gOrd c, hash := 0 }
    entries := es, crcVa := crc, retVa := ret, genFlag := loadGen c }

/-- The set is LOADING, and nothing is left of what it held (R389). -/
def State.loadingFrom (t : State) (p : Nat) (c : Cmd) : State :=
  t.updSet p (loadSet c) fun w => { w with
    state := 1, man := BitVec.ofNat 56 (loadMan c), entries := [], recoveries := [] }

section
variable {s t : State} {p : Nat} {c : Cmd}

/-- A LOAD of a set that is neither EMPTY nor LOST (R384). -/
theorem State.startLoad_refused (hempty : ((s.part p).wset (loadSet c)).state ≠ 0)
    (hlost : ((s.part p).wset (loadSet c)).state ≠ 4) : s.startLoad p c = s.finish p c
      (endWith stDeviceFault 0x1303 ((s.part p).wset (loadSet c)).state.toNat true) :=
  if_pos (by simpa using ⟨hempty, hlost⟩)

section
variable (hst : ((s.part p).wset (loadSet c)).state = 0 ∨ ((s.part p).wset (loadSet c)).state = 4)
include hst

theorem State.startLoad_badManifest {st detail result : Nat}
    (hman : s.readManifest p c true = (t, .fail st detail (some result))) :
    s.startLoad p c = t.finish p c (endWith st detail result true) := by
  rw [State.startLoad, if_neg (by rcases hst with hst | hst <;> simp [hst]), hman]
  rfl

/-- A LOAD whose manifest holds: the Looms of its tiles take the command up (R51). -/
theorem State.startLoad_loads {es : List ManEntry} {crc ret : Nat}
    (hman : s.readManifest p c true = (t, .ok es crc ret)) :
    s.startLoad p c = ((t.loadingFrom p c).loomsTake p c
      ((t.loadingFrom p c).loadTiles p es crc (some ret))).updCmd p c fun y =>
        { y with prog := .load (newLoad c es crc ret) } := by
  rw [State.startLoad, if_neg (by rcases hst with hst | hst <;> simp [hst]), hman]
  rfl

end

/-- An ADOPT of a set that is not EMPTY (R395). -/
theorem State.startAdopt_refused (hst : ((s.part p).wset (loadSet c)).state ≠ 0) :
    s.startAdopt p c = s.finish p c
      (endWith stDeviceFault 0x1303 ((s.part p).wset (loadSet c)).state.toNat true) :=
  if_pos (by simpa using hst)

/-- Every chunk of every held shard, in manifest order. -/
def heldChunks (es : List ManEntry) : List (Nat × Nat) :=
  (es.zipIdx.filter fun x => x.1.copies != 0).flatMap fun x =>
    (List.range (manChunks x.1)).map fun k => (x.2, k)

/-- The set is LOADING, and the Looms of its tiles have taken the ADOPT up. -/
def State.adoptTaken (t : State) (p : Nat) (c : Cmd) (es : List ManEntry) (crc : Nat) : State :=
  let u := t.updSet p (loadSet c) fun w => { w with state := 1, man := BitVec.ofNat 56 (loadMan c) }
  u.loomsTake p c (u.loadTiles p es crc none)

section
variable (hst : ((s.part p).wset (loadSet c)).state = 0) {es : List ManEntry} {crc ret : Nat}
  (hman : s.readManifest p c false = (t, .ok es crc ret))
include hst hman

/-- An ADOPT whose manifest holds: nothing while its Loom yields, else all its chunks at once. -/
theorem State.startAdopt_manifest : s.startAdopt p c =
    if (t.adoptTaken p c es crc).loomYields p c then s
    else match adoptAll p c es crc (heldChunks es)
        ((t.adoptTaken p c es crc).loomsAct p ((t.adoptTaken p c es crc).cmdNow p c)) with
      | .on u => u
      | .wait w => s.waking w := by
  rw [State.startAdopt, if_neg (by simp [hst]), hman]
  rfl

theorem State.startAdopt_yields (hyield : (t.adoptTaken p c es crc).loomYields p c = true) :
    s.startAdopt p c = s := by
  rw [State.startAdopt_manifest hst hman, if_pos hyield]

theorem State.startAdopt_adopts (hyield : (t.adoptTaken p c es crc).loomYields p c = false) {u : State}
    (hall : adoptAll p c es crc (heldChunks es)
      ((t.adoptTaken p c es crc).loomsAct p ((t.adoptTaken p c es crc).cmdNow p c)) = .on u) :
    s.startAdopt p c = u := by
  rw [State.startAdopt_manifest hst hman, if_neg (Bool.eq_false_iff.1 hyield), hall]

end

end

/-! The messages of a LOAD in its data phase. -/

/-- The bytes of LOAD_CHUNK. -/
def loadChunkMsg (shard chunk : Nat) (bs : List Byte) : List Byte :=
  leBytes 4 shard ++ leBytes 4 chunk ++ leBytes 8 (crc64 bs).toNat ++ bs

/-- An entry of the manifest of a LOAD. -/
def loadEntry (l : LoadRun) (shard : Nat) : ManEntry :=
  l.entries.getD shard ⟨0, false, 0, [], 0, [], [], 0⟩

/-- A chunk that cannot go in yet is kept. -/
def State.keepChunk (s : State) (p : Nat) (c : Cmd) (shard chunk : Nat) (bytes : List Byte)
    (crc : Dword) : State :=
  s.updLoad p c fun l => { l with inbox := l.inbox ++ [(shard, chunk, bytes, crc)] }

/-- A chunk that fails its check is counted, and the first four times asked for again. -/
def State.refuseChunk (s : State) (p : Nat) (c : Cmd) (l : LoadRun) (shard chunk : Nat) : State :=
  let t := s.updLoad p c fun l => { l with bad := l.bad ++ [(shard, chunk)] }
  if l.bad.count (shard, chunk) < 4 then
    t.sendTo l.coll.group ((s.group l.coll.group).rank - 1) msgLoadRerequest
      (leBytes 4 shard ++ leBytes 4 chunk)
  else t

section
variable {p : Fin 16} {g : BitVec 12} {ord : BitVec 48} {s : State} {c : Cmd} {l : LoadRun}

/-- Without a LOAD in its header phase nothing is kept for later. -/
theorem State.loadEarly_none
    (hnone : s.groupCmd p g.toNat ord.toNat (fun c => isLoad c && cmdPhase c == .header) = none)
    (f : LoadRun → LoadRun) : s.loadEarly p g ord f = s := by
  rw [State.loadEarly, hnone]

section
variable (hcmd : s.groupCmd p g.toNat ord.toNat (fun c => isLoad c && cmdPhase c == .data) = some c)
  (hrun : s.loadOf p c = some l)
include hcmd hrun

/-- A message reaches the run of the LOAD that it names. -/
theorem State.onLoad_data (f : Cmd → LoadRun → State) : s.onLoad p g ord f = .next (f c l) := by
  rw [State.onLoad, hcmd]
  dsimp only
  rw [hrun]

section
variable (hnone : s.groupCmd p g.toNat ord.toNat (fun c => isLoad c && cmdPhase c == .header) = none)
include hnone

theorem exec_loadChunk (shard chunk : Nat) (bytes : List Byte) (crc : Dword) :
    exec (.loadChunk p g ord shard chunk bytes crc) s =
      .next (s.takeLoadChunk p c shard chunk bytes crc) := by
  change execLoadChunk p g ord shard chunk bytes crc s = _
  rw [execLoadChunk, State.loadEarly_none hnone, State.onLoad_data hcmd hrun]

theorem exec_loadEnd : exec (.loadEnd p g ord) s = .next (s.takeLoadEnd p c) := by
  change execLoadEnd p g ord s = _
  rw [execLoadEnd, State.loadEarly_none hnone, State.onLoad_data hcmd hrun]

end

/-! A chunk asked for again (R391). -/

section
variable (hnext : (s.group g.toNat).rank + 1 < (s.group g.toNat).n) {shard chunk : Nat} {t : State}
  {bs : List Byte}
include hnext

/-- The retention region still has it. -/
theorem exec_loadRerequest_kept {k : Nat × Nat × Nat}
    (hkept : (l.kept.find? fun k => k.1 == shard && k.2.1 == chunk) = some k)
    (hread : s.xread ⟨p, s.loomFor p l.retVa⟩ (l.retVa + chunkBytes * k.2.2)
      (chunkLen (loadEntry l shard) chunk) = (t, .ok bs)) :
    exec (.loadRerequest p g ord shard chunk) s = .next
      (t.sendTo g.toNat ((s.group g.toNat).rank + 1) msgLoadChunk (loadChunkMsg shard chunk bs)) := by
  refine (State.onLoad_data hcmd hrun _).trans (congrArg Host.Outcome.next ?_)
  dsimp only
  rw [if_neg (Nat.not_le.2 hnext), hkept]
  dsimp only
  rw [← loadEntry, hread]
  rfl

/-- The head reads it from host memory again. -/
theorem exec_loadRerequest_head (hkept : (l.kept.find? fun k => k.1 == shard && k.2.1 == chunk) = none)
    (hhead : (s.group g.toNat).rank = 0) (hshard : shard < l.entries.length)
    (hchunk : chunk < manChunks (loadEntry l shard))
    (hread : s.headChunk p l shard chunk = (t, .ok bs)) :
    exec (.loadRerequest p g ord shard chunk) s = .next
      (t.sendTo g.toNat ((s.group g.toNat).rank + 1) msgLoadChunk (loadChunkMsg shard chunk bs)) := by
  refine (State.onLoad_data hcmd hrun _).trans (congrArg Host.Outcome.next ?_)
  dsimp only
  rw [if_neg (Nat.not_le.2 hnext), hkept]
  dsimp only
  rw [if_pos ⟨hhead, hshard, hchunk⟩, hread]
  rfl

end

/-! The deadline (R392). -/

section
variable (hgood : l.failure = none)
  (hsilent : (l.reports.any fun r => r.1 == (s.group g.toNat).rank) = false)
include hgood hsilent

theorem exec_loadDeadline_fails {e : ManEntry} {i : Nat}
    (hfind : (heldShards l).find? (fun x => !shardComplete l x.2 x.1) = some (e, i)) :
    exec (.loadDeadline p g ord) s = .next
      (if (l.bad.any fun b => b.1 == i && !l.good.contains b) then
        s.loadFailOwn p c stShardCorrupt 0x1310 i
      else s.loadFailOwn p c stShardMissing 0x1312 i) := by
  refine (State.onLoad_data hcmd hrun _).trans (congrArg Host.Outcome.next ?_)
  dsimp only
  rw [if_neg (by simp only [hgood, hsilent]; decide), hfind]

theorem exec_loadDeadline_met
    (hfind : (heldShards l).find? (fun x => !shardComplete l x.2 x.1) = none) :
    exec (.loadDeadline p g ord) s =
      .next ((s.updLoad p c fun l => { l with ended := true }).loadCheck p c) := by
  refine (State.onLoad_data hcmd hrun _).trans (congrArg Host.Outcome.next ?_)
  dsimp only
  rw [if_neg (by simp only [hgood, hsilent]; decide), hfind]

end

/-! The outcome of another member (R393). -/

section
variable {rank : Fin 256} (hrank : rank.val < (s.group g.toNat).n)
  (hother : rank.val ≠ (s.group g.toNat).rank)
include hrank hother

theorem exec_loadFail (st : BitVec 8) (shard : Nat) :
    exec (.loadFail p g ord rank st shard) s = .next
      (if l.reports.any fun r => r.1 == (s.group g.toNat).rank then
        (s.updLoad p c (loadAddReport rank st.toNat shard)).loadSettle p c
      else (s.updLoad p c (loadAddReport rank st.toNat shard)).loadReport p c msgLoadFail 0 0) := by
  refine (State.onLoad_data hcmd hrun _).trans (congrArg Host.Outcome.next ?_)
  exact if_neg (by simp [hrank, hother])

theorem exec_loadSuccess : exec (.loadSuccess p g ord rank) s =
    .next ((s.updLoad p c (loadAddReport rank 0 0)).loadSettle p c) := by
  refine (State.onLoad_data hcmd hrun _).trans (congrArg Host.Outcome.next ?_)
  exact if_neg (by simp [hrank, hother])

end

end

end

section
variable {s : State} {p : Nat} {c : Cmd} {l : LoadRun} (hrun : s.loadOf p c = some l)
include hrun

/-- END goes on down the chain, and the LOAD checks what it has (R390). -/
theorem State.takeLoadEnd_first (hended : l.ended = false) (hme : (s.group l.coll.group).rank ≠ 0) :
    s.takeLoadEnd p c =
      ((if (s.group l.coll.group).rank + 1 < (s.group l.coll.group).n then
          s.sendTo l.coll.group ((s.group l.coll.group).rank + 1) msgLoadEnd []
        else s).updLoad p c fun l => { l with ended := true }).loadCheck p c := by
  rw [State.takeLoadEnd, hrun]
  exact if_neg (by simp [hended, hme])

/-! A chunk from upstream (R391). -/

variable {shard chunk : Nat} {bytes : List Byte} {crc : Dword} {e : ManEntry}
  (hentry : l.entries[shard]? = some e) (hgoes : loadRuns l = true)
  (hnew : l.good.contains (shard, chunk) = false) (hchunk : chunk < manChunks e)
  (hme : (s.group l.coll.group).rank ≠ 0)
include hentry hgoes hnew hchunk hme

/-- A chunk that the LOAD still waits for: kept while its Loom yields, taken when it is right, and else asked
for again. -/
theorem State.takeLoadChunk_awaited : s.takeLoadChunk p c shard chunk bytes crc =
    if s.loomYields p c then s.keepChunk p c shard chunk bytes crc
    else if crc64 bytes == crc && bytes.length == chunkLen e chunk then
      match (s.loomsAct p (s.cmdNow p c)).loadTake p c shard chunk bytes crc with
      | .wait w => (s.waking w).keepChunk p c shard chunk bytes crc
      | .on t => t.loadCheck p c
    else s.refuseChunk p c l shard chunk := by
  rw [State.takeLoadChunk, hrun]
  dsimp only
  rw [hentry]
  dsimp only
  rw [hgoes, hnew]
  exact if_neg (by simp [Nat.not_le.2 hchunk, hme])

theorem State.takeLoadChunk_yields (hyield : s.loomYields p c = true) :
    s.takeLoadChunk p c shard chunk bytes crc = s.keepChunk p c shard chunk bytes crc := by
  rw [State.takeLoadChunk_awaited hrun hentry hgoes hnew hchunk hme, if_pos hyield]

variable (hyield : s.loomYields p c = false)
include hyield

section
variable (hcrc : crc64 bytes = crc) (hlen : bytes.length = chunkLen e chunk)
include hcrc hlen

theorem State.takeLoadChunk_taken {t : State}
    (htake : (s.loomsAct p (s.cmdNow p c)).loadTake p c shard chunk bytes crc = .on t) :
    s.takeLoadChunk p c shard chunk bytes crc = t.loadCheck p c := by
  rw [State.takeLoadChunk_awaited hrun hentry hgoes hnew hchunk hme, if_neg (Bool.eq_false_iff.1 hyield),
    if_pos (by simp [hcrc, hlen]), htake]

theorem State.takeLoadChunk_waits {w : State}
    (htake : (s.loomsAct p (s.cmdNow p c)).loadTake p c shard chunk bytes crc = .wait w) :
    s.takeLoadChunk p c shard chunk bytes crc = (s.waking w).keepChunk p c shard chunk bytes crc := by
  rw [State.takeLoadChunk_awaited hrun hentry hgoes hnew hchunk hme, if_neg (Bool.eq_false_iff.1 hyield),
    if_pos (by simp [hcrc, hlen]), htake]

end

theorem State.takeLoadChunk_bad (hbad : crc64 bytes ≠ crc ∨ bytes.length ≠ chunkLen e chunk) :
    s.takeLoadChunk p c shard chunk bytes crc =
      s.refuseChunk p c l shard chunk := by
  rw [State.takeLoadChunk_awaited hrun hentry hgoes hnew hchunk hme, if_neg (Bool.eq_false_iff.1 hyield),
    if_neg (by simpa [imp_iff_not_or] using hbad)]

end

/-- Settles O49: the three modes by the state of the set, then each message by the run of its LOAD. -/
theorem weightLoadsComplete : Obligations.WeightLoadsComplete := by
  unfold Obligations.WeightLoadsComplete
  refine And.intro ?modes ?messages
  case modes =>
    intro p q slot s c w new
    refine ⟨fun hrow => ?load, fun hrow => ?adopt, fun hrow => ⟨exec_retire_recovering hrow,
      exec_retire_loading hrow, exec_retire_empties hrow⟩⟩
    case load =>
      rw [exec_load hrow]
      refine ⟨fun hempty hlost => ?refused, fun t st detail result hst hman => ?badManifest,
        fun t es crc ret hst hman => ?loads⟩
      case refused => rw [State.startLoad_refused hempty hlost]
      case badManifest => rw [State.startLoad_badManifest hst hman]
      case loads => exact congrArg Host.Outcome.next (State.startLoad_loads hst hman)
    case adopt =>
      rw [exec_adopt hrow]
      refine ⟨fun hst => ?refused, fun t es crc ret hst hman => ⟨fun hyield => ?yields,
        fun u hyield hall => ?adopts⟩⟩
      case refused => rw [State.startAdopt_refused hst]
      case yields => rw [State.startAdopt_yields hst hman hyield]
      case adopts => rw [State.startAdopt_adopts hst hman hyield hall]
  case messages =>
    intro p g ord s c l hcmd hnone hrun hgroup me n reported
    refine ⟨fun shard chunk bytes crc e hentry hgoes hnew hchunk hme => ?chunk, fun hended hme => ?ends,
      fun shard chunk t bs hnext => ⟨fun k => exec_loadRerequest_kept hcmd hrun hnext,
        exec_loadRerequest_head hcmd hrun hnext⟩,
      fun hgood hsilent => ⟨fun e i => exec_loadDeadline_fails hcmd hrun hgood hsilent,
        exec_loadDeadline_met hcmd hrun hgood hsilent⟩,
      fun rank hrank hother => ⟨exec_loadFail hcmd hrun hrank hother,
        exec_loadSuccess hcmd hrun hrank hother⟩⟩
    case chunk =>
      rw [exec_loadChunk hcmd hrun hnone]
      subst me
      rw [← hgroup] at hme ⊢
      refine ⟨fun hyield => ?yields, fun hyield hcrc hlen => ⟨fun t htake => ?taken, fun w htake => ?waits⟩,
        fun hyield hbad => ?bad⟩
      case yields => rw [State.takeLoadChunk_yields hrun hentry hgoes hnew hchunk hme hyield]; rfl
      case taken =>
        rw [State.takeLoadChunk_taken hrun hentry hgoes hnew hchunk hme hyield hcrc hlen htake]
      case waits =>
        rw [State.takeLoadChunk_waits hrun hentry hgoes hnew hchunk hme hyield hcrc hlen htake]
        rfl
      case bad => rw [State.takeLoadChunk_bad hrun hentry hgoes hnew hchunk hme hyield hbad]; rfl
    case ends =>
      rw [exec_loadEnd hcmd hrun hnone]
      subst n me
      rw [← hgroup] at hme ⊢
      rw [State.takeLoadEnd_first hrun hended hme]

end Sys2Proof.Machine
end

section
/-! SUPPORT. The messages of a recovery (O50; R400 to R402): what another member's fetch is answered with, and
what an answer, silence and the limit do to a recovery of this member. -/

namespace Sys2Proof.Machine

/-- RECOVERY_ANSWER to the member at a coordinate (R400). -/
def State.sendChunkAnswer (s : State) (p set : Fin 16) (shard chunk : Nat) (coord : BitVec 8)
    (bs : List Byte) : State :=
  s.post msgRecAnswer coord.toNat p 0 (s.anyStream msgRecAnswer)
    ([BitVec.ofNat 8 set] ++ leBytes 4 shard ++ leBytes 4 chunk ++ bs)

/-- What RECOVERY_ANSWER carries: the chunk's bytes, or NONE. -/
def foundBytes : Option (List Byte) → List Byte
  | some bs => [1] ++ bs
  | none => [0]

/-- The chunk belongs to a set that is READY or RECOVERING (R400). -/
def holdsChunk (w : WeightSet) (shard chunk : Nat) : Prop :=
  (w.state = 2 ∨ w.state = 3) ∧ shard < w.entries.length ∧ chunk < manChunks (manEntry w shard)

section
variable {p set : Fin 16} {shard chunk : Nat} {s : State}

/-! Another member asks (R400). -/

theorem exec_recoveryFetch_absent (hno : ¬ holdsChunk ((s.part p).wset set) shard chunk)
    (coord : BitVec 8) : exec (.recoveryFetch p set shard chunk coord) s =
      .next (s.sendChunkAnswer p set shard chunk coord [0]) := by
  refine congrArg Host.Outcome.next ?_
  dsimp only
  rw [if_neg (by simpa [holdsChunk] using hno)]
  rfl

/-- The copies of a chunk of the set are tried in turn. -/
theorem exec_recoveryFetch (hin : holdsChunk ((s.part p).wset set) shard chunk) {t : State} {f : Found}
    {found : Option (List Byte)}
    (hgo : copyGo p set shard chunk (List.range (manEntry ((s.part p).wset set) shard).copies) s [] =
      (t, found, f)) (coord : BitVec 8) :
    exec (.recoveryFetch p set shard chunk coord) s = .next
      ((t.found f).sendChunkAnswer p set shard chunk coord (foundBytes found)) := by
  refine congrArg Host.Outcome.next ?_
  dsimp only
  rw [if_pos (by simpa [holdsChunk] using hin), hgo]
  rfl

/-! A recovery of this member (R401, R402). -/

section
variable {r : Recovery} (hasked : s.askedRecovery p set shard chunk = some r)
include hasked

theorem exec_recoveryAnswer (bytes : Option (List Byte)) :
    exec (.recoveryAnswer p set shard chunk bytes) s =
      .next ((s.answerRecovery p set r bytes).afterRecovery p) := by
  refine congrArg Host.Outcome.next ?_
  rw [hasked]

theorem exec_replicaTimeout : exec (.replicaTimeout p set shard chunk) s =
    .next ((s.nextSource p set r).afterRecovery p) := by
  refine congrArg Host.Outcome.next ?_
  rw [hasked]

end

/-- The limit of a recovery takes the set's weights away (R402). -/
theorem exec_recoveryTimeout {r : Recovery} (hrec : (((s.part p).wset set).recoveries.find? fun r =>
      r.shard == shard && r.chunk == chunk) = some r) :
    exec (.recoveryTimeout p set shard chunk) s = .next ((s.loseSet p set r).afterRecovery p) := by
  refine congrArg Host.Outcome.next ?_
  rw [hrec]

end

section
variable {s t u : State} {p k crc : Nat} {r : Recovery} {f : Found} {bs : List Byte}
  (htable : s.tableCrc p k r.shard r.chunk = (t, some crc, f))
include htable

/-- An answer that agrees with the CRC table ends the recovery. -/
theorem State.answerRecovery_accepted (hoffer : t.offerChunk p k r crc bs = (u, true)) :
    s.answerRecovery p k r (some bs) = u.found f := by
  rw [State.answerRecovery]
  dsimp only
  rw [htable]
  dsimp only
  rw [hoffer]
  rfl

/-- Another answer is as good as NONE. -/
theorem State.answerRecovery_rejected (hoffer : t.offerChunk p k r crc bs = (u, false)) :
    s.answerRecovery p k r (some bs) = (u.found f).nextSource p k r := by
  rw [State.answerRecovery]
  dsimp only
  rw [htable]
  dsimp only
  rw [hoffer]
  rfl

end

/-- Settles O50: the fetch by what the copies answer, an answer by the CRC table, silence by the next source. -/
theorem recoveryMessagesComplete : Obligations.RecoveryMessagesComplete := by
  unfold Obligations.RecoveryMessagesComplete
  intro p set shard chunk s w here answer
  refine ⟨fun coord hno => exec_recoveryFetch_absent hno coord,
    fun coord t f hin => ⟨fun bs hgo => exec_recoveryFetch hin hgo coord,
      fun hgo => exec_recoveryFetch hin hgo coord⟩,
    fun r hasked => ⟨exec_recoveryAnswer hasked none, exec_replicaTimeout hasked,
      fun t crc f u bs htable hshard hchunk => ?answered⟩,
    fun r => exec_recoveryTimeout⟩
  case answered =>
    rw [exec_recoveryAnswer hasked]
    rw [← hshard, ← hchunk] at htable
    exact ⟨fun hoffer => by rw [State.answerRecovery_accepted htable hoffer],
      fun hoffer => by rw [State.answerRecovery_rejected htable hoffer]⟩

end Sys2Proof.Machine
end

section
/-! SUPPORT. The security engine (O36; R439, R443, R444): what a write of SEC_REQ, SEC_CTL and SEC_SVN does, and
what a turn does by the operation that it finds. -/

namespace Sys2Proof.Machine

/-! SEC_REQ (R443, R444). -/

/-- SEC_REQ with GO. -/
def reportWord (kind p : Nat) : Word := packWord [(0, kind), (2, p), (6, 1)]

/-- The state with the fields of SEC_REQ set to a kind and a partition. -/
def withReport (s : State) (kind p : Nat) : State :=
  { s with sec := { s.sec with part := BitVec.ofNat 4 p, kind := BitVec.ofNat 2 kind } }

/-- A request in progress: the window is empty and the report waits behind the older operations. -/
def State.awaitReport (s : State) (kind p : Nat) : State :=
  { s with sec := { s.sec with
      err := 0, outLen := 0, out := [], busy := true, waiting := s.sec.waiting ++ [.report kind p] } }

/-- A module report leaves PART at 0. -/
theorem reportWord_module : packWord [(0, 2), (6, 1)] = reportWord 2 0 := by
  decide

theorem exec_moduleReport (a : Agent) (s : State) :
    exec (.moduleReport a) s = .next (s.writeAddr a 0x60014 (reportWord 2 0)) := by
  rw [← reportWord_module]
  rfl

section
variable {k p : Nat} (hk : k < 4) (hp : p < 16)
include hk hp

theorem reportWord_toNat : (reportWord k p).toNat = 64 + 4 * p + k := by
  simp only [reportWord, packWord, List.foldl, BitVec.toNat_ofNat]
  omega

theorem reportWord_kind : fld (reportWord k p).toNat 0 2 = k := by
  rw [reportWord_toNat hk hp, fld_zero]
  omega

theorem reportWord_part : BitVec.ofNat 4 ((reportWord k p).toNat / 4) = BitVec.ofNat 4 p := by
  apply BitVec.eq_of_toNat_eq
  simp only [BitVec.toNat_ofNat, reportWord_toNat hk hp]
  omega

theorem reportWord_go : bit (reportWord k p).toNat 6 = true := by
  rw [bit_iff, reportWord_toNat hk hp]
  omega

end

section
variable {s : State} {v : Nat} (g : Agent) (hgo : bit v 6 = true)
include hgo

/-- A GO while a request is in progress is ignored but for its reason. -/
theorem State.writeSecReq_busy (hbusy : s.sec.busy = true) :
    s.writeSecReq g v = { s with sec := { s.sec with err := 4 } } := by
  simp [State.writeSecReq, hgo, hbusy]

/-- Else a GO of a kind that is not reserved sets the fields and starts the request. -/
theorem State.writeSecReq_go {k p : Nat} (hidle : s.sec.busy = false) (hkind : fld v 0 2 = k)
    (hpart : BitVec.ofNat 4 (v / 4) = BitVec.ofNat 4 p) (hlegal : k = 1 ∨ k = 2) :
    s.writeSecReq g v = (withReport s k p).secGo := by
  have hfield : (k == 1 || k == 2) = true := by simpa using hlegal
  rw [State.writeSecReq, if_neg (by simp [hidle])]
  dsimp only
  rw [hgo, hkind, hpart, hfield, if_pos rfl, State.field, if_pos rfl]
  rfl

end

/-- With authenticated firmware, an active engine, an identity left and, for a partition report, the
partition enabled, the report can be served. -/
theorem State.secGo_awaits {s : State} {k p : Nat} (hk : s.sec.kind.toNat = k) (hp : s.sec.part.toNat = p)
    (hlegal : k = 1 ∨ k = 2) (hfw : s.sec.fwState = 1) (hactive : s.sec.failed = false)
    (hpart : k = 1 → s.enabled p = true) (hid : s.idExhausted = false) : s.secGo = s.awaitReport k p := by
  subst hk hp
  have hkind : ¬ ((decide (s.sec.kind.toNat = 0) || decide (s.sec.kind.toNat = 3)) = true) := by
    simp only [Bool.or_eq_true, decide_eq_true_eq]
    omega
  have hengine : ¬ ((s.sec.fwState != 1 || s.sec.failed) = true) := by simp [hfw, hactive]
  have henabled : ¬ ((decide (s.sec.kind.toNat = 1) && !s.enabled s.sec.part.toNat) = true) := by
    simpa using hpart
  have hleft : ¬ (s.idExhausted = true) := by simp [hid]
  exact (if_neg hkind).trans ((if_neg hengine).trans ((if_neg henabled).trans (if_neg hleft)))

section
variable {a : Agent} {s : State} (h : s.hasAccess a 0x60014 = true)
include h

theorem State.writeAddr_secReq (v : Word) : s.writeAddr a 0x60014 v = s.writeSecReq a v.toNat :=
  State.writeAddr_hasAccess (r := .sec .req) h rfl v

theorem State.writeAddr_reportWord_busy {k p : Nat} (hk : k < 4) (hp : p < 16) (hbusy : s.sec.busy = true) :
    s.writeAddr a 0x60014 (reportWord k p) = { s with sec := { s.sec with err := 4 } } := by
  rw [State.writeAddr_secReq h, State.writeSecReq_busy a (reportWord_go hk hp) hbusy]

theorem exec_partitionReport_busy (hbusy : s.sec.busy = true) (p : Fin 16) :
    exec (.partitionReport a p) s = .next { s with sec := { s.sec with err := 4 } } :=
  congrArg Host.Outcome.next (State.writeAddr_reportWord_busy h (k := 1) (by decide) p.isLt hbusy)

theorem exec_moduleReport_busy (hbusy : s.sec.busy = true) :
    exec (.moduleReport a) s = .next { s with sec := { s.sec with err := 4 } } := by
  rw [exec_moduleReport, State.writeAddr_reportWord_busy h (by decide) (by decide) hbusy]

section
variable (hidle : s.sec.busy = false) (hfw : s.sec.fwState = 1) (hactive : s.sec.failed = false)
  (hid : s.idExhausted = false)
include hidle hfw hactive hid

theorem State.writeAddr_reportWord_awaits {k p : Nat} (hp : p < 16) (hlegal : k = 1 ∨ k = 2)
    (hpart : k = 1 → s.enabled p = true) :
    s.writeAddr a 0x60014 (reportWord k p) = (withReport s k p).awaitReport k p := by
  have hk : k < 4 := by omega
  have hkind : (withReport s k p).sec.kind.toNat = k := Nat.mod_eq_of_lt hk
  have hnum : (withReport s k p).sec.part.toNat = p := Nat.mod_eq_of_lt hp
  rw [State.writeAddr_secReq h, State.writeSecReq_go a (reportWord_go hk hp) hidle (reportWord_kind hk hp)
    (reportWord_part hk hp) hlegal]
  exact State.secGo_awaits hkind hnum hlegal hfw hactive hpart hid

theorem exec_partitionReport_awaits {p : Fin 16} (hen : s.enabled p = true) :
    exec (.partitionReport a p) s = .next ((withReport s 1 p).awaitReport 1 p) :=
  congrArg Host.Outcome.next
    (State.writeAddr_reportWord_awaits h hidle hfw hactive hid p.isLt (.inl rfl) fun _ => hen)

theorem exec_moduleReport_awaits :
    exec (.moduleReport a) s = .next ((withReport s 2 0).awaitReport 2 0) := by
  rw [exec_moduleReport,
    State.writeAddr_reportWord_awaits h hidle hfw hactive hid (by decide) (.inr rfl) nofun]

end

end

/-! SEC_CTL and SEC_SVN (R443). -/

theorem exec_secRevoke0 {a : Agent} {s : State} (h : s.hasAccess a 0x60008 = true) :
    exec (.secRevoke0 a) s = .next s.revoke0 :=
  congrArg Host.Outcome.next (State.writeAddr_hasAccess (r := .sec .ctl) h rfl 1)

theorem State.revoke0_slot1 {s : State} (hslot : s.sec.fwSlot = true) :
    s.revoke0 = ({ s with sec := { s.sec with slot0Revoked := true } } : State).event 0x6022 s.uSec :=
  if_pos hslot

/-- SEC_SVN_MIN stands in the upper half of SEC_SVN. -/
theorem packWord_upper_half (v : BitVec 16) : (packWord [(16, v.toNat)]).toNat / 2 ^ 16 = v.toNat := by
  have := v.isLt
  simp only [packWord, List.foldl, BitVec.toNat_ofNat]
  omega

theorem exec_secSvnMinWrite {a : Agent} {s : State} (h : s.hasAccess a 0x60004 = true) (v : BitVec 16) :
    exec (.secSvnMinWrite a v) s = .next (s.writeSvnMin v.toNat) := by
  rw [← packWord_upper_half v]
  exact congrArg Host.Outcome.next (State.writeAddr_hasAccess (r := .sec .svn) h rfl _)

theorem State.writeSvnMin_taken {s : State} {v : Nat} (hmin : s.svnMin ≤ v) (hrun : v ≤ s.sec.svnRun.toNat) :
    s.writeSvnMin v =
      s.prsOwn svnWord (BitVec.ofNat 64 ((s.prsWord svnWord).toNat / 2 ^ 16 * 2 ^ 16 + v)) :=
  if_pos ⟨hmin, hrun⟩

theorem State.writeSvnMin_ignored {s : State} {v : Nat} (hout : v < s.svnMin ∨ s.sec.svnRun.toNat < v) :
    s.writeSvnMin v = s :=
  if_neg (by omega)

/-! Turns (R439). -/

/-- The frame of 17 turns goes on by one. -/
def State.nextTurn (s : State) : State := { s with sec := { s.sec with turn := (s.sec.turn + 1) % 17 } }

/-- The oldest operation that a turn can serve. -/
def State.turnOp (s : State) (turn : Nat) : Option SecOp :=
  s.sec.waiting.find? fun o => opTurn o == turn && s.opReady o

/-- An operation that has its turn waits no longer. -/
def State.withoutOp (s : State) (o : SecOp) : State :=
  { s with sec := { s.sec with waiting := s.sec.waiting.erase o } }

section
variable {s : State} (hactive : s.sec.failed = false) (h9 : s.reachedS9 = true)
include hactive h9

theorem exec_secTurn :
    exec .secTurn s = .next (match s.nextTurn.turnOp s.sec.turn with
      | none => s.nextTurn
      | some o => (s.nextTurn.withoutOp o).serveOp o) := by
  have hruns : ¬ ((s.sec.failed || !s.reachedS9) = true) := by simp [hactive, h9]
  exact congrArg Host.Outcome.next (if_neg hruns)

/-- A turn with no operation passes unused. -/
theorem exec_secTurn_unused (hnone : s.nextTurn.turnOp s.sec.turn = none) :
    exec .secTurn s = .next s.nextTurn := by
  rw [exec_secTurn hactive h9, hnone]

theorem exec_secTurn_serves {o : SecOp} (hsome : s.nextTurn.turnOp s.sec.turn = some o) :
    exec .secTurn s = .next ((s.nextTurn.withoutOp o).serveOp o) := by
  rw [exec_secTurn hactive h9, hsome]

end

/-- Settles O36: the three registers by the word that a row writes, the turns by the operation that waits. -/
theorem securityRequestsComplete : Obligations.SecurityRequestsComplete := by
  unfold Obligations.SecurityRequestsComplete
  intro a s
  refine ⟨fun h hidle hfw hactive hid =>
      ⟨fun p hen => exec_partitionReport_awaits h hidle hfw hactive hid hen,
        exec_moduleReport_awaits h hidle hfw hactive hid⟩,
    fun h hbusy => ⟨fun p => exec_partitionReport_busy h hbusy p, exec_moduleReport_busy h hbusy⟩,
    fun h _ hslot => ?revokes, fun v h => ⟨fun hmin hrun => ?taken, fun hout => ?ignored⟩,
    fun hactive h9 => ⟨exec_secTurn_unused hactive h9, fun o => exec_secTurn_serves hactive h9⟩⟩
  case revokes => rw [exec_secRevoke0 h, State.revoke0_slot1 hslot]
  case taken => rw [exec_secSvnMinWrite h, State.writeSvnMin_taken hmin hrun]
  case ignored => rw [exec_secSvnMinWrite h, State.writeSvnMin_ignored hout]

end Sys2Proof.Machine
end

section
/-! SUPPORT. The step itself (O1): the front of the queue, and the machine at reset (O2). -/

namespace Sys2Proof.Machine

/-- The command at the front runs with the queue's rest. -/
theorem step_of_pending {s : State} {c : Instr} {rest : List Instr} (h : s.pending = c :: rest) :
    step s = exec c (s.withQueue rest) := by
  rw [step, h]

/-- Settles O1: by what the queue holds. -/
theorem stepTakesTheFront : Obligations.StepTakesTheFront := by
  unfold Obligations.StepTakesTheFront
  refine fun s => ⟨fun c rest => ?front, fun c rest h => step_of_pending h, fun hidle => ?idle⟩
  case front => exact step_of_pending (s := s.withQueue (c :: rest)) rfl
  case idle => rw [step, hidle]

/-- Before power good no agent reaches a register (R449, R528). -/
theorem State.agentLive_reset (a : Agent) : State.reset.agentLive a = false := rfl

/-- Settles O2: every field of the reset state is its default, and every map of it is empty. -/
theorem resetState : Obligations.ResetState := by
  unfold Obligations.ResetState
  intro s
  have hpart : ∀ p, s.enabled p = false ∧ (s.part p).cmds = [] ∧
      ∀ q, ((s.part p).queue q).en = false ∧ ((s.part p).queue q).state = 0 :=
    fun p => ⟨rfl, rfl, fun q => ⟨rfl, rfl⟩⟩
  have hcore : ∀ c, (s.core c).regs.state = 0 ∧ s.kernelOf c = none := fun c => ⟨rfl, rfl⟩
  refine ⟨rfl, by decide, rfl, rfl, rfl, rfl, rfl, rfl, rfl, rfl, rfl, rfl, rfl, rfl, rfl, hpart, hcore,
    fun l => rfl, fun u => rfl, fun g => rfl, State.agentLive_reset⟩

end Sys2Proof.Machine
end

section
/-! SUPPORT. The persistent store's host words and the Logbook's floors (O37; R503 to R505, R515): which register
stands at the address of a word's half, and what a write of each does. -/

namespace Sys2Proof.Machine

/-! Addresses (R58). -/

/-- Halves of the persistent words, from the block's start on. -/
theorem regAt_prsHalf {o : Nat} (ho : o < 0x8000) (h4 : o % 4 = 0) :
    regAt (0x40000 + o) = some (.prsWord (o / 8) (o % 8 == 4)) := by
  have hal : (0x40000 + o) % 4 = 0 := by omega
  have hblock : (0x40000 + o) / 0x10000 = 4 := by omega
  have hoff : (0x40000 + o) % 0x10000 = o := by omega
  unfold regAt
  rw [hal, hblock, hoff]
  exact if_pos ho

theorem regAt_prsLo (i : Fin 4096) : regAt (0x40000 + 8 * i) = some (.prsWord i false) := by
  have hnum : 8 * i.val / 8 = i := by omega
  have hhalf : 8 * i.val % 8 = 0 := by omega
  rw [regAt_prsHalf (by omega) (by omega), hnum, hhalf]
  rfl

theorem regAt_prsHi (i : Fin 4096) : regAt (0x40004 + 8 * i) = some (.prsWord i true) := by
  have haddr : 0x40004 + 8 * i.val = 0x40000 + (8 * i.val + 4) := by omega
  have hnum : (8 * i.val + 4) / 8 = i := by omega
  have hhalf : (8 * i.val + 4) % 8 = 4 := by omega
  rw [haddr, regAt_prsHalf (by omega) (by omega), hnum, hhalf]
  rfl

/-! Host words (R503, R504). -/

section
variable {s : State} {a : Agent} {i : Fin 4096} (hhost : 2048 ≤ i.val)
include hhost

/-- A LO half is held alone. -/
theorem exec_prsLoWrite_held (h : s.hasAccess a (0x40000 + 8 * i) = true) (v : Word) :
    exec (.prsLoWrite a i v) s = .next { s with prs := { s.prs with held := [(2 * i.val, v)] } } := by
  refine congrArg Host.Outcome.next ?_
  rw [State.writeAddr_hasAccess h (regAt_prsLo i) v, State.writeReg, BitVec.ofNat_toNat, BitVec.setWidth_eq]
  exact if_pos hhost

/-- The HI half that follows a held LO half commits the word. -/
theorem exec_prsHiWrite_commits {lo : Word} (h : s.hasAccess a (0x40004 + 8 * i) = true)
    (hheld : s.prs.held = [(2 * i.val, lo)]) (v : Word) :
    exec (.prsHiWrite a i v) s = .next (s.dropHalves.commitHost a i (v ++ lo)) := by
  refine congrArg Host.Outcome.next ?_
  have hlo : lookup s.prs.held (2 * i.val) = some lo := by simp [hheld, lookup]
  rw [State.writeAddr_hasAccess h (regAt_prsHi i) v, State.writeReg, BitVec.ofNat_toNat, BitVec.setWidth_eq]
  refine (if_pos hhost).trans ?_
  rw [if_pos rfl, hlo]

end

/-- A commit that leaves the word's count below the limit of R504. -/
theorem State.commitHost_fresh {s : State} {i : Nat} (g : Agent) (v : Dword)
    (hcount : SMap.get 0 s.prs.count i < 999999) :
    s.commitHost g i v = { s with prs := s.prs.commit i v } := by
  have hbefore : ¬ (s.prs.worn i = true) := by
    rw [PrsState.worn, decide_eq_true_iff, prsWorn]
    omega
  have hafter : ¬ ((s.prs.commit i v).worn i = true) := by
    rw [PrsState.worn, decide_eq_true_iff, prsWorn, PrsState.commit, SMap.get_modify, if_pos rfl]
    omega
  exact (if_neg hbefore).trans (if_neg hafter)

/-- A worn word takes no commit. -/
theorem State.commitHost_worn {s : State} {i : Nat} (g : Agent) (v : Dword)
    (hcount : 1000000 ≤ SMap.get 0 s.prs.count i) :
    s.commitHost g i v =
      ({ s with prs := { s.prs with writeErr := true } } : State).event 0x7031 (s.uid g) :=
  if_pos (decide_eq_true hcount)

/-! PRS_REMAP_GO (R505). -/

theorem exec_prsRemapGo {a : Agent} {s : State} (h : s.hasAccess a 0x48008 = true) :
    exec (.prsRemapGo a) s = .next s.dropHalves.remapGo := by
  refine congrArg Host.Outcome.next ?_
  have hkeep : (s.dropHalves.setPrs fun r => { r with
      writeErr := r.writeErr && !bit 1 1, remapErr := r.remapErr && !bit 1 2 }) = s.dropHalves := by
    simp [State.dropHalves, State.setPrs, bit, fld]
  rw [State.writeAddr_hasAccess (r := .prsCtl) h rfl 1]
  exact congrArg State.remapGo hkeep

section
variable {s : State} (hhost : 2048 ≤ s.prs.idx.toNat)
include hhost

theorem State.remapGo_spare (hleft : s.prs.sparesUsed < 512) : s.remapGo =
    ({ s with prs := s.prs.remapWord s.prs.idx.toNat } : State).event 0x7032 s.uMgmt :=
  (if_neg (by omega)).trans (if_pos hleft)

theorem State.remapGo_none (hnone : 512 ≤ s.prs.sparesUsed) :
    s.remapGo = { s with prs := { s.prs with remapErr := true } } :=
  (if_neg (by omega)).trans (if_neg (by omega))

end

/-! LOG_CLR and LOG_PCLEAR (R515). -/

section
variable {a : Agent} {s : State} (h : s.hasAccess a 0x50010 = true)
include h

theorem exec_logClr : exec (.logClr a) s = .next (s.logClear a) :=
  congrArg Host.Outcome.next (State.writeAddr_hasAccess (r := .log .clear) h rfl 1)

theorem exec_logPclear : exec (.logPclear a) s = .next (s.logPclear a) :=
  congrArg Host.Outcome.next (State.writeAddr_hasAccess (r := .log .clear) h rfl 2)

end

/-- Settles O37: each row's register at its address, then what that register does with the write. -/
theorem persistentStoreAndLogComplete : Obligations.PersistentStoreAndLogComplete := by
  unfold Obligations.PersistentStoreAndLogComplete
  intro a i v s
  refine ⟨fun hhost h => exec_prsLoWrite_held hhost h v,
    fun lo hhost h hheld => ⟨fun hcount => ?fresh, fun hcount => ?worn⟩,
    fun h hhost => ⟨fun hleft => ?spare, fun hnone => ?noSpare⟩, exec_logClr, exec_logPclear⟩
  case fresh =>
    exact (exec_prsHiWrite_commits hhost h hheld v).trans
      (congrArg Host.Outcome.next (State.commitHost_fresh (s := s.dropHalves) a (v ++ lo) hcount))
  case worn =>
    exact (exec_prsHiWrite_commits hhost h hheld v).trans
      (congrArg Host.Outcome.next (State.commitHost_worn (s := s.dropHalves) a (v ++ lo) hcount))
  case spare =>
    exact (exec_prsRemapGo h).trans
      (congrArg Host.Outcome.next (State.remapGo_spare (s := s.dropHalves) hhost hleft))
  case noSpare =>
    exact (exec_prsRemapGo h).trans
      (congrArg Host.Outcome.next (State.remapGo_none (s := s.dropHalves) hhost hnone))

end Sys2Proof.Machine
end

section
/-! SUPPORT. The steps of bring-up (O53; R447 to R462): what each leaves, by what its work finds, and what
BU_STEP_DONE reports of it (R449, R453). -/

namespace Sys2Proof.Machine

/-! S1 (R449, R451). -/

section
variable {s : State} (h0 : s.atS0End = true)
include h0

theorem exec_s1_host (u : Fin 2) (lanes : BitVec 3) :
    let t := s.trainPort u (BitVec.ofNat 4 (2 ^ min 4 lanes.toNat - 1))
    exec (.s1 (.host u) lanes) s = .next (if lanes = 0 then t else t.beginS1) :=
  congrArg Host.Outcome.next (if_neg (by simp [h0]))

theorem exec_s1_relay {l : Fin 64} {lanes : BitVec 3} (hlanes : lanes ≠ 0)
    (hdir : s.bu.hostDir = some (dirOf l)) (hport : s.hostPort = none) (hsize : 1 < s.dimSize (dirOf l / 2)) :
    exec (.s1 (.relay l) lanes) s = .next ((s.mgmtLinks (dirOf l) lanes.toNat).beginS1) := by
  have hhost : (lanes != 0 && s.bu.hostDir == some (dirOf l) && s.hostPort.isNone
      && decide (1 < s.dimSize (dirOf l / 2))) = true := by
    simpa [hdir, hport, hsize] using hlanes
  exact congrArg Host.Outcome.next ((if_neg (by simp [h0])).trans (if_pos hhost))

end

/-- A step that runs and has not done its work does it. -/
theorem State.stepRuns_works {s t : State} {n : Nat} (hrun : s.stepRuns n = true) :
    (if (!s.stepRuns n) = true then s else t) = t :=
  if_neg (by simp [hrun])

/-! S2 (R441, R442, R450). -/

section
variable {s : State} (hrun : s.stepRuns 2 = true) (hfree : s.hostHeld = false)
include hrun hfree

theorem State.s2_works (t : State) : (if (!s.stepRuns 2 || s.hostHeld) = true then s else t) = t :=
  if_neg (by simp [hrun, hfree])

theorem exec_s2_unread (hread : s.readFirmware = none) : exec .s2 s = .next (s.outcome 0x21 0) := by
  refine congrArg Host.Outcome.next ((State.s2_works hrun hfree _).trans ?_)
  rw [hread]

variable {f : List Byte} (hread : s.readFirmware = some f)
include hread

theorem exec_s2_refused {r : Nat} (hcheck : s.checkFirmware f = .inl r) : exec .s2 s = .next
    ((({ s with sec := { s.sec with
      fwState := 2, fwReason := BitVec.ofNat 3 r } } : State).tickFree.event 0x6020 s.uSec).outcome
        0x20 0) := by
  refine congrArg Host.Outcome.next ((State.s2_works hrun hfree _).trans ?_)
  rw [hread]
  dsimp only
  rw [hcheck]

theorem exec_s2_accepted {slot : Bool} (hcheck : s.checkFirmware f = .inr slot) : exec .s2 s = .next
    ((({ s with sec := { s.sec with
      fwState := 1, fwReason := 0, fwSlot := slot, svnRun := BitVec.ofNat 16 (bAt f 6 2)
      measurement := sha256 (f.take (256 + bAt f 8 4)) } } : State).tickFree.event 0x6021
        s.uSec).outcome 0 0) := by
  refine congrArg Host.Outcome.next ((State.s2_works hrun hfree _).trans ?_)
  rw [hread]
  dsimp only
  rw [hcheck]

end

/-! S3 (R457 to R459, R26). -/

section
variable {s : State} (hrun : s.stepRuns 3 = true) (up : BitVec 4) {bad : List (Fin 100)}
include hrun

theorem exec_s3_noMap (hmap : s.board.fusedMapOk = false) :
    exec (.s3 up bad) s = .next (s.outcome 0x30 0) :=
  congrArg Host.Outcome.next ((State.stepRuns_works hrun).trans (if_pos (by simp [hmap])))

variable (hmap : s.board.fusedMapOk = true)
include hmap

theorem State.s3_works (t : State) : (if (!s.stepRuns 3) = true then s else
    if (!s.board.fusedMapOk) = true then s.outcome 0x30 0 else t) = t :=
  (State.stepRuns_works hrun).trans (if_neg (by simp [hmap]))

theorem exec_s3_islandFails {i : Fin 100}
    (hbad : (bad.find? fun i : Fin 100 => (clusterOfIsland i.val).isNone) = some i) :
    exec (.s3 up bad) s = .next (s.loadChart.outcome 0x31 (uIsland i)) := by
  refine congrArg Host.Outcome.next ((State.s3_works hrun hmap _).trans ?_)
  dsimp only
  rw [hbad]

theorem exec_s3_completes
    (hbad : (bad.find? fun i : Fin 100 => (clusterOfIsland i.val).isNone) = none) :
    let t := ((bad.filterMap fun i : Fin 100 => clusterOfIsland i.val).foldl (fun s cl => s.dropCluster cl)
      s.loadChart).setBridges up
    let u := (List.range 4).foldl (fun s b =>
      if up.getLsbD b then s else s.event 0x0013 (uBridge b)) t
    exec (.s3 up bad) s = .next (u.split.outcome 0 0) := by
  refine congrArg Host.Outcome.next ((State.s3_works hrun hmap _).trans ?_)
  dsimp only
  rw [hbad]

end

/-! S4 (R447, R455). -/

/-- The ports of a tile in service are trained, and one that does not train is withdrawn. -/
def State.trainBdPorts (s : State) (ports : BitVec 32) : State :=
  (List.range 32).foldl (fun s u =>
    let s1 := s.updBdp u fun x => { x with trained := true }
    if s.tileCut (u / 8) then s else if ports.getLsbD u then s1 else s1.dropPort u) s

/-- The channels of a tile in service that do not train are disabled. -/
def State.trainChannels (s : State) (channels : BitVec 16) : State :=
  (List.range 16).foldl (fun s ch =>
    if !s.tileCut (ch / 4) && s.channelFitted ch && !channels.getLsbD ch then s.dropChannel ch else s) s

/-- Every controller holds how many packages it has (R198). -/
def State.countPackages (s : State) : State :=
  let fitted := fun (s : State) (u : Nat) =>
    b2n (s.channelFitted (2 * u)) + b2n (s.channelFitted (2 * u + 1))
  (List.range 8).foldl (fun s u => s.updLpc u fun x => { x with pkgs := BitVec.ofNat 2 (fitted s u) }) s

section
variable {s : State} (hrun : s.stepRuns 4 = true) {ports : BitVec 32} (channels : BitVec 16)
include hrun

theorem exec_s4_tileFails {t : Nat} (hdead : s.deadTile ports = some t) :
    exec (.s4 ports channels) s = .next (s.outcome 0x40 (uBdp (8 * t))) := by
  refine congrArg Host.Outcome.next ((State.stepRuns_works hrun).trans ?_)
  rw [hdead]

theorem exec_s4_completes (hdead : s.deadTile ports = none) : exec (.s4 ports channels) s =
    .next ((((s.applyRows.trainBdPorts ports).trainChannels channels).countPackages).outcome 0 0) := by
  refine congrArg Host.Outcome.next ((State.stepRuns_works hrun).trans ?_)
  rw [hdead]
  rfl

end

/-! S5 and S6 (R447, R454 to R456). -/

section
variable {s : State}

/-- The rows that failed are dealt with, and every line is written. -/
def State.memoryTested (s : State) (rows : List RowTest) : State :=
  let t := (rows.filter fun x => rowFails x (testPhases s.bu.test)).foldl (fun s x => s.testRow x.row) s
  { t with
    mem := { t.mem with bd := TierMem.zeroed t.mem.bd, lp := TierMem.zeroed t.mem.lp }
    bu := { t.bu with bdWritten := true } }

/-- The abbreviated test is recorded (R456). -/
theorem exec_s5 (hrun : s.stepRuns 5 = true) (rows : List RowTest) :
    let u := s.memoryTested rows
    exec (.s5 rows) s = .next ((if u.bu.test = 1 then
      (u.setBu fun b => { b with abbreviated := true }).event 0x7003 u.uMgmt else u).outcome 0 0) := by
  refine congrArg Host.Outcome.next ((State.stepRuns_works hrun).trans (congrArg (State.outcome · 0 0) ?_))
  simp only [beq_iff_eq]
  rfl

theorem exec_s6 (hrun : s.stepRuns 6 = true) (bad : List (BitVec 16 × BitVec 8)) :
    exec (.s6 bad) s = .next (((testedUnits.filter fun u => !s.tileCut (tileOfUnit u)).foldl (fun s u =>
      let hit := bad.find? fun e => e.1.toNat == u
      s.updUnit u fun x => { x with
        tested := true, testBad := hit.isSome, testCode := (hit.map (·.2)).getD 0 }) s).outcome 0 0) :=
  congrArg Host.Outcome.next (State.stepRuns_works hrun)

end

/-! S7 (R30, R195, R460 to R462). -/

section
variable {s t : State} (hrun : s.stepRuns 7 = true) (hmarks : testedUnits.foldl State.reconcile s = t)
  (ppr : List Bool)
include hrun hmarks

/-- An active unit with a spare on T1 asks for a module reset (R462). -/
theorem exec_s7_spareStandsIn {u : Nat} (hfatal : t.fatalUnit = some (0x71, u)) :
    exec (.s7 ppr) s = .next ((t.setBu fun b => { b with resetReq := true }).outcome 0x71 u) := by
  refine congrArg Host.Outcome.next ((State.stepRuns_works hrun).trans ?_)
  dsimp only
  rw [hmarks, hfatal]
  rfl

theorem exec_s7_unitFails {code u : Nat} (hcode : code ≠ 0x71) (hfatal : t.fatalUnit = some (code, u)) :
    exec (.s7 ppr) s = .next (t.outcome code u) := by
  refine congrArg Host.Outcome.next ((State.stepRuns_works hrun).trans ?_)
  dsimp only
  rw [hmarks, hfatal]
  exact congrArg (State.outcome · code u) (if_neg hcode)

/-- Every unit gets its role, the Chart is loaded, and what capacity is lost is counted. -/
theorem exec_s7_completes (hfatal : t.fatalUnit = none) :
    let v := (((List.range 4).foldl State.fillHelms ((List.range 4).foldl State.assignHelms
      ((List.range 32).foldl State.assignCluster t))).assignSingles.numberCores.repairPackages ppr).gateIdle
    let w : State := { v with cht := { v.cht with loaded := true } }
    exec (.s7 ppr) s = .next (({ w with bu := { w.bu with
      capBd := BitVec.ofNat 32 (w.mem.bd.gone.length + w.lostBefore .bd)
      capLpGran := BitVec.ofNat 16 (min (w.lpGone + w.lostBefore .lp) 0xFFFF) } } : State).outcome 0 0) := by
  refine congrArg Host.Outcome.next ((State.stepRuns_works hrun).trans ?_)
  dsimp only
  rw [hmarks, hfatal]
  dsimp only [State.setBu]

end

/-! S8 to S10 (R249, R253, R447). -/

section
variable {s : State}

theorem exec_s8 (hrun : s.stepRuns 8 = true) (links : List LinkTraining) :
    let t := (List.range 64).foldl (fun s l => s.updLink l fun k =>
      if k.mgmtMode then { k with mgmtMode := false, state := 0, lanes := 0 } else k) s
    exec (.s8 links) s = .next (((links.foldl (fun s x =>
      if x.link.val < 64 then s.trainBody x.link x else s) t).routesChanged 0).outcome 0 0) :=
  congrArg Host.Outcome.next (State.stepRuns_works hrun)

theorem exec_s9 (hrun : s.stepRuns 9 = true) : exec .s9 s =
    .next (((partDefaults s.bu.desc).foldl (fun s e => s.enableDefault e.1 e.2) s).outcome 0 0) :=
  congrArg Host.Outcome.next (State.stepRuns_works hrun)

theorem exec_s10 (hrun : s.stepRuns 10 = true) : exec .s10 s = .next (s.outcome 0 0) :=
  congrArg Host.Outcome.next (if_pos hrun)

end

/-! BU_STEP_DONE (R449, R453). -/

section
variable {s : State} {code unit : Nat} (hout : s.bu.outcome = some (code, unit)) (hbusy : s.bu.busy = true)
  (hend : s.stepMayEnd = true)
include hout hbusy hend

theorem exec_buStepDone_completes (hcode : code = 0) : exec .buStepDone s = .next { s with bu := { s.bu with
    busy := false, failed := false, done := s.bu.run, outcome := none
    ready := s.bu.ready || s.bu.run == 10 } } := by
  refine congrArg Host.Outcome.next ?_
  rw [hout]
  exact (if_neg (by simp [hbusy, hend])).trans (if_pos hcode)

theorem exec_buStepDone_fails (hcode : code ≠ 0) : exec .buStepDone s = .next (({ s with bu := { s.bu with
    busy := false, failed := true, outcome := none, code := BitVec.ofNat 8 code
    uid := BitVec.ofNat 16 unit } } : State).event 0x7002 (if unit = 0 then s.uMgmt else unit)) := by
  refine congrArg Host.Outcome.next ?_
  rw [hout]
  exact (if_neg (by simp [hbusy, hend])).trans (if_neg hcode)

end

/-- Settles O53: each step by what its work finds, then the report by the code. -/
theorem bringUpComplete : Obligations.BringUpComplete := by
  unfold Obligations.BringUpComplete
  intro s
  refine ⟨fun u lanes h0 => exec_s1_host h0 u lanes,
    fun l lanes h0 hlanes hdir hport hsize => exec_s1_relay h0 hlanes hdir hport hsize,
    fun hrun hfree => ⟨exec_s2_unread hrun hfree, fun f r hread => exec_s2_refused hrun hfree hread,
      fun f slot hread => exec_s2_accepted hrun hfree hread⟩,
    fun up bad hrun => ⟨exec_s3_noMap hrun up, fun i hmap => exec_s3_islandFails hrun up hmap,
      exec_s3_completes hrun up⟩,
    fun ports channels t hrun => exec_s4_tileFails hrun channels,
    fun ports channels hrun => exec_s4_completes hrun channels,
    fun rows hrun => exec_s5 hrun rows, fun bad hrun => exec_s6 hrun bad,
    fun ppr hrun => ⟨fun u => exec_s7_spareStandsIn hrun rfl ppr,
      fun code u hcode => exec_s7_unitFails hrun rfl ppr hcode, exec_s7_completes hrun rfl ppr⟩,
    fun hrun => exec_s8 hrun, exec_s9, exec_s10,
    fun unit hout hbusy hend => exec_buStepDone_completes hout hbusy hend rfl,
    fun code unit hcode hout hbusy hend => exec_buStepDone_fails hout hbusy hend hcode⟩

end Sys2Proof.Machine
end

section
/-! SUPPORT. The rail and power good, power loss, and the offers of management mode (O54; R451, R528). -/

namespace Sys2Proof.Machine

section
variable {s : State}

theorem exec_alwaysOnRailUp (hoff : s.pwr.input = .off) : exec .alwaysOnRailUp s =
    .next { s with pwr := { s.pwr with input := .standby, cause := 0 } } :=
  congrArg Host.Outcome.next (if_pos (by simp [hoff]))

theorem exec_powerGood (hstandby : s.pwr.input = .standby) : exec .powerGood s =
    .next (({ s with pwr := { s.pwr with input := .good } } : State).startS0 none) :=
  congrArg Host.Outcome.next (if_pos (by simp [hstandby]))

variable (h0 : s.atS0End = true) (hport : s.hostPort = none)
include h0 hport

/-- Every direction with more than one module gets the offer. -/
theorem exec_descriptorFallbackTimeout (hbad : s.bu.descBad = true) (hnew : s.bu.offering = false) :
    let t : State := { s with bu := { s.bu with offering := true } }
    exec .descriptorFallbackTimeout s = .next (((List.range 8).filter fun d =>
      decide (1 < s.dimSize (d / 2))).foldl (fun s d => s.emit (.offer d)) t) :=
  congrArg Host.Outcome.next (if_pos (by simp [h0, hport, hbad, hnew]))

variable {l : Fin 64} {at_ sizes : BitVec 8}

theorem exec_mgmtOffer_legal (hoffer : s.bu.offering = true)
    (hlegal : coordsLegal (coordFields s.mod (at_.toNat + sizes.toNat * 2 ^ 16)) = true) :
    exec (.mgmtOffer l at_ sizes) s = .next ((({ s with
      mod := coordFields s.mod (at_.toNat + sizes.toNat * 2 ^ 16)
      bu := { s.bu with hostDir := some (dirOf l) } } : State).mgmtLinks (dirOf l) 2).beginS1) :=
  congrArg Host.Outcome.next (if_pos (by simp only [h0, hport, hoffer, hlegal, Option.isNone_none, Bool.and_self]))

omit h0 hport in
theorem exec_mgmtOffer_illegal
    (hillegal : coordsLegal (coordFields s.mod (at_.toNat + sizes.toNat * 2 ^ 16)) = false) :
    exec (.mgmtOffer l at_ sizes) s = .next s :=
  congrArg Host.Outcome.next (if_neg (by simp only [hillegal, Bool.and_false, Bool.false_eq_true, not_false_eq_true]))

end

/-- Settles O54: each row by the input's level, or by the offer's coordinate. -/
theorem powerSequenceAndOffers : Obligations.PowerSequenceAndOffers := by
  unfold Obligations.PowerSequenceAndOffers
  refine ⟨fun s => ⟨exec_alwaysOnRailUp, exec_powerGood, rfl⟩, fun s h0 hport =>
    ⟨exec_descriptorFallbackTimeout h0 hport, fun l at_ sizes hoffer =>
      ⟨exec_mgmtOffer_legal h0 hport hoffer, exec_mgmtOffer_illegal⟩⟩⟩

end Sys2Proof.Machine
end

section
/-! SUPPORT. The persistent ring and its bucket (R513), the Logbook's mirror (R517) and the operating time (R506),
by what the log holds (O55). -/

namespace Sys2Proof.Machine

/-! The persistent ring (R513). -/

section
variable {s : State} {r : LogRec} {rest : List LogRec} (hwait : s.log.pwait = r :: rest)
include hwait

theorem exec_persistentRingWrite_drops (hempty : s.log.bucket = 0) : exec .persistentRingWrite s =
    .next { s with log := { s.log with pwait := rest, pdrop := satInc s.log.pdrop } } := by
  refine congrArg Host.Outcome.next ?_
  rw [hwait]
  exact if_pos hempty

theorem exec_persistentRingWrite_writes (hspend : s.log.bucket ≠ 0) : exec .persistentRingWrite s =
    .next { s with
      free := s.free + 1
      log := { s.log with
        pwait := rest, bucket := s.log.bucket - 1, pring := SMap.set {} s.log.pring s.pringNext r } } := by
  refine congrArg Host.Outcome.next ?_
  rw [hwait]
  exact if_neg hspend

end

/-! The mirror and the operating time (R506, R517). -/

section
variable {s : State}

theorem exec_logRingFail_mirrors (hgood : s.pwr.input = .good) (hmain : s.log.mirror = false) :
    exec .logRingFail s =
      .next (({ s with log := { s.log with mirror := true } } : State).event 0xF005 s.uMgmt) :=
  congrArg Host.Outcome.next (if_neg (by simp [hgood, hmain]))

theorem exec_logRingFail_mirrored (hmirror : s.log.mirror = true) : exec .logRingFail s = .next s :=
  congrArg Host.Outcome.next (if_pos (by simp [hmirror]))

variable {t : BitVec 40}

theorem exec_optimeCommit_advances (hgood : s.pwr.input = .good) (hlater : s.log.optime.toNat ≤ t.toNat) :
    exec (.optimeCommit t) s = .next (({ s with log := { s.log with optime := t } } : State).prsOwn
      (1040 + ((rotTop s.prs 1040).1 + 1) % 8) (BitVec.ofNat 64 t.toNat)) :=
  congrArg Host.Outcome.next (if_neg (by simpa [hgood] using hlater))

theorem exec_optimeCommit_earlier (hearlier : t.toNat < s.log.optime.toNat) :
    exec (.optimeCommit t) s = .next s :=
  congrArg Host.Outcome.next (if_pos (by simp [hearlier]))

end

/-- Settles O55: by the oldest record and the bucket, the mirror's flag, and the time that is given. -/
theorem logbookRowsComplete : Obligations.LogbookRowsComplete := by
  unfold Obligations.LogbookRowsComplete
  exact fun s => ⟨fun r rest hwait =>
      ⟨exec_persistentRingWrite_drops hwait, exec_persistentRingWrite_writes hwait⟩,
    rfl, fun hgood => ⟨exec_logRingFail_mirrors hgood, exec_logRingFail_mirrored,
      fun t => ⟨exec_optimeCommit_advances hgood, exec_optimeCommit_earlier⟩⟩⟩

end Sys2Proof.Machine
end

section
/-! SUPPORT. The I3C target (O56; R497, R498, R526): its rows do nothing while it is not there, and each does its
own work while it is. -/

namespace Sys2Proof.Machine

/-! While the target is not there. -/

section
variable {s : State} (hdown : s.i3cUp = false)
include hdown

/-- A row that only the target answers. -/
theorem State.i3c_absent (t : State) : (.next (if s.i3cUp = true then t else s) : Ans) = .next s :=
  congrArg Host.Outcome.next (if_neg (by simp [hdown]))

theorem exec_i3cAddressWrite_absent (bs : List Byte) : exec (.i3cAddressWrite bs) s = .next s :=
  congrArg Host.Outcome.next (if_pos (by simp [hdown]))

theorem exec_i3cRead_absent (n : Nat) : exec (.i3cRead n) s = .next s :=
  congrArg Host.Outcome.next (if_neg (by simp [hdown]))

end

/-! While it is. -/

section
variable {s : State} (hup : s.i3cUp = true)
include hup

theorem exec_i3cSetdasa (d : BitVec 7) :
    exec (.i3cSetdasa d) s = .next { s with i3c := { s.i3c with dyn := some d } } :=
  congrArg Host.Outcome.next (if_pos hup)

theorem exec_i3cEntdaa (d : BitVec 7) : exec (.i3cEntdaa d) s = .next { s with
    out := s.out ++ [.i3c (leBytes 6 (Config.provisionedId s.board.serial).toNat)]
    i3c := { s.i3c with dyn := some d } } :=
  congrArg Host.Outcome.next (if_pos hup)

theorem exec_i3cEnec : exec .i3cEnec s = .next { s with i3c := { s.i3c with ibi := true } } :=
  congrArg Host.Outcome.next (if_pos hup)

theorem exec_i3cAddressWrite_word {bs : List Byte} (hlen : bs.length = 4) : exec (.i3cAddressWrite bs) s =
    .next { s with i3c := { s.i3c with addr := BitVec.ofNat 32 (leNat bs) } } :=
  congrArg Host.Outcome.next ((if_neg (by simp [hup])).trans (if_pos hlen))

theorem exec_i3cAddressWrite_refused {bs : List Byte} (hlen : 4 < bs.length) :
    exec (.i3cAddressWrite bs) s = .next (s.emit .i3cNack) :=
  congrArg Host.Outcome.next
    ((if_neg (by simp [hup])).trans ((if_neg (by omega)).trans (if_pos hlen)))

/-- The words from the aligned address on hold the bytes that are asked for. -/
theorem exec_i3cRead_answers {n : Nat} {t : State} {bs : List Byte} (hlo : 4 ≤ n) (hhi : n ≤ 256)
    (hread : i3cWords ((s.i3c.addr.toNat % 4 + n + 3) / 4) (s.i3c.addr.toNat / 4 * 4) s = (t, bs)) :
    exec (.i3cRead n) s = .next (({ t with i3c := { t.i3c with
      addr := BitVec.ofNat 32 (s.i3c.addr.toNat + n) } } : State).emit
        (.i3c ((bs.drop (s.i3c.addr.toNat % 4)).take n))) := by
  have hask : (s.i3cUp && decide (4 ≤ n ∧ n ≤ 256)) = true := by simp [hup, hlo, hhi]
  refine congrArg Host.Outcome.next ((if_pos hask).trans ?_)
  dsimp only
  rw [hread]
  rfl

end

/-- Settles O56: the target is there or not, then row by row. -/
theorem i3cComplete : Obligations.I3cComplete := by
  unfold Obligations.I3cComplete
  refine fun s => ⟨rfl, rfl, fun hdown d bs n => ?absent, fun hup => ⟨fun d => ⟨exec_i3cSetdasa hup d,
    exec_i3cEntdaa hup d⟩, exec_i3cEnec hup,
    fun bs => ⟨exec_i3cAddressWrite_word hup, exec_i3cAddressWrite_refused hup⟩,
    fun n t bs hlo hhi hread => exec_i3cRead_answers hup hlo hhi hread⟩⟩
  case absent =>
    exact ⟨State.i3c_absent hdown _, State.i3c_absent hdown _, State.i3c_absent hdown _,
      exec_i3cAddressWrite_absent hdown bs, exec_i3cRead_absent hdown n⟩

end Sys2Proof.Machine
end

section
/-! SUPPORT. The input, phases and rails, and the local droop (O57; R475, R476, R480, R481, R485): each row by what
it finds of the input's level, the droop response or the rail. -/

namespace Sys2Proof.Machine

/-! The input and its droop response (R480, R485). -/

/-- The response after a sample below 46 V: the clock is held at 8/16 or lower. -/
def droopBelow46 : DroopPhase → DroopPhase
  | .none => .held 8
  | .held n => .held n
  | .restoring n => .held (min n 8)

/-- What a sample of the input leaves, with the droop response that it calls for. -/
def State.inputSampled (s : State) (vin iin : BitVec 16) (d : DroopPhase) : State :=
  (({ s with pwr := { s.pwr with vin := vin, iin := iin, droop := d } }) : State).followEpisodes false

section
variable {s : State} {vin iin : BitVec 16}

/-- A sample at or above 46 V leaves the droop response as it is. -/
theorem exec_inputSample_high (hon : s.pwr.input ≠ .off) (hvin : 46000 ≤ vin.toNat) :
    exec (.inputSample vin iin) s = .next (s.inputSampled vin iin s.pwr.droop) := by
  have hlevel : ¬ ((s.pastS0 && decide (vin.toNat < 46000)) = true) := by simp [hvin]
  exact congrArg Host.Outcome.next ((if_neg (by simp [hon])).trans
    (congrArg (s.inputSampled vin iin) (if_neg hlevel)))

/-- A sample below 46 V, once S0 has completed, holds the clock. -/
theorem exec_inputSample_low (hon : s.pwr.input ≠ .off) (hvin : vin.toNat < 46000) (hpast : s.pastS0 = true) :
    exec (.inputSample vin iin) s = .next (s.inputSampled vin iin (droopBelow46 s.pwr.droop)) := by
  have hlevel : (s.pastS0 && decide (vin.toNat < 46000)) = true := by simp [hpast, hvin]
  refine congrArg Host.Outcome.next ((if_neg (by simp [hon])).trans
    (congrArg (s.inputSampled vin iin) ((if_pos hlevel).trans ?_)))
  cases s.pwr.droop <;> rfl

theorem exec_inputLowTimeout (hpast : s.pastS0 = true) (hvin : s.pwr.vin.toNat < 44000) :
    exec .inputLowTimeout s =
      .next (({ s with pwr := { s.pwr with droop := .held 4 } } : State).followEpisodes false) :=
  congrArg Host.Outcome.next (if_pos (by simp [hpast, hvin]))

theorem exec_inputRecoveryTimeout {n : Nat} (hheld : s.pwr.droop = .held n) (hpast : s.pastS0 = true)
    (hvin : 47000 ≤ s.pwr.vin.toNat) : exec .inputRecoveryTimeout s =
      .next { s with pwr := { s.pwr with droop := .restoring n } } := by
  refine congrArg Host.Outcome.next ?_
  rw [hheld]
  exact if_pos (by simp [hpast, hvin])

/-- One sixteenth comes back; with the last one the response ends. -/
theorem exec_clockRestoreTick {n : Nat} {d : DroopPhase} (hrestoring : s.pwr.droop = .restoring n)
    (hnext : (if 15 ≤ n then DroopPhase.none else .restoring (n + 1)) = d) : exec .clockRestoreTick s =
      .next (({ s with pwr := { s.pwr with droop := d } } : State).followEpisodes false) := by
  refine congrArg Host.Outcome.next ?_
  rw [hrestoring, ← hnext]

theorem exec_brownoutTimeout (hpast : s.pastS0 = true) (hvin : s.pwr.vin.toNat < 42000) :
    exec .brownoutTimeout s = .next (s.moduleReset 2 uPower) :=
  congrArg Host.Outcome.next (if_pos (by simp [hpast, hvin]))

end

/-! Phases and rails (R475, R476). -/

section
variable {s : State} {r ph : Nat}

/-- A working phase of a rail that is on is retired: the rail keeps N phases, is low, or takes the module down. -/
theorem State.retirePhase_working (hon : s.railIsOn r = true) (hgood : s.pwr.input = .good)
    (hph : ph < railN r + 2) (hworks : (s.rail r).retired.contains ph = false) :
    let t := ((s.updRail r fun x => { x with retired := x.retired ++ [ph] }).repairRec (uRail r)
      ph 7 3).event 0x0010 (uRail r)
    let w := (t.rail r).working (railN r)
    let u := t.event 0x0011 (uRail r)
    s.retirePhase r ph =
      if railN r ≤ w then t else if 4 * w < 3 * railN r then u.moduleReset 5 uPower else u := by
  have hretires : (!s.railIsOn r || s.pwr.input != .good || decide (railN r + 2 ≤ ph)
      || (s.rail r).retired.contains ph) = false := by
    simp only [hon, hgood, hworks, decide_eq_false (Nat.not_le.2 hph)]
    rfl
  exact if_neg (by simpa using hretires)

theorem exec_railFault_band {r : Fin 25} (hon : s.railIsOn r = true) :
    exec (.railFault r none) s = .next (s.moduleReset 5 uPower) :=
  congrArg Host.Outcome.next (if_pos hon)

end

/-! Local droop (R481). -/

theorem exec_localDroop {s : State} {cl : Fin 32} (hon : s.railIsOn 0 = true)
    (hawake : s.awake (islandOfCluster cl) = true) (hnew : (s.island (islandOfCluster cl)).local_ = false) :
    exec (.localDroop cl) s = .next (s.updIsland (islandOfCluster cl) fun x => { x with
      local_ := true, localCount := satInc x.localCount }) :=
  congrArg Host.Outcome.next (if_pos (by simp [hon, hawake, hnew]))

/-- Settles O57: the input's rows by its level and the droop response, the rails' by their phases. -/
theorem droopAndRailsComplete : Obligations.DroopAndRailsComplete := by
  unfold Obligations.DroopAndRailsComplete
  refine ⟨fun s => ⟨fun vin iin hon => ⟨exec_inputSample_high hon, fun hvin hpast => ?low⟩,
      exec_inputLowTimeout, fun n => exec_inputRecoveryTimeout, fun n hrestoring => ?restore,
      exec_brownoutTimeout, rfl⟩,
    fun s => ⟨fun r ph hon hgood hph hworks => ?phase, fun r => exec_railFault_band,
      fun cl => ⟨exec_localDroop, rfl⟩⟩⟩
  case low =>
    have hlow := exec_inputSample_low (iin := iin) hon hvin hpast
    exact ⟨fun h => hlow.trans (by rw [h]; rfl), fun n h => hlow.trans (by rw [h]; rfl),
      fun n h => hlow.trans (by rw [h]; rfl)⟩
  case restore =>
    exact ⟨fun hn => exec_clockRestoreTick hrestoring (if_neg (by omega)),
      fun hn => exec_clockRestoreTick hrestoring (if_pos hn)⟩
  case phase =>
    have hafter := State.retirePhase_working hon hgood hph hworks
    exact ⟨congrArg Host.Outcome.next hafter, congrArg Host.Outcome.next hafter⟩

end Sys2Proof.Machine
end

section
/-! SUPPORT. The power cap, temperatures, stopped clocks and wakes (O58; R476 to R479, R482 to R484). -/

namespace Sys2Proof.Machine

/-! The power cap (R476, R482, R484). -/

/-- A window against the cap: between 95 % of it and the cap, what was releasing goes on releasing. -/
theorem windowDir_decide (d : LimitDir) (above below : Prop) [Decidable above] [Decidable below] :
    windowDir d (decide above) (decide below) = if above then .raise else if below then .release
      else if d = .release then .release else .hold := by
  simp only [windowDir, decide_eq_true_iff]
  cases d <;> rfl

section
variable {s : State} (hgood : s.pwr.input = .good)
include hgood

/-- A row that needs power good does its work under it. -/
theorem State.powered_works (t : State) : (if (s.pwr.input != .good) = true then s else t) = t :=
  if_neg (by simp [hgood])

theorem exec_powerWindow (w : BitVec 16) :
    let dir := if s.pwr.capW.toNat < w.toNat then LimitDir.raise
      else if w.toNat * 100 < 95 * s.pwr.capW.toNat then .release
      else if s.pwr.capDir = .release then .release else .hold
    let full := decide (s.pwr.capW.toNat < w.toNat) && s.cappedIslands.all fun i => s.clkFactor i == 4
    exec (.powerWindow w) s = .next { s with
      free := s.free + 1
      pwr := { s.pwr with
        pin := w, pmax := if s.pwr.pmax.toNat < w.toNat then w else s.pwr.pmax, capDir := dir
        capOver := if full then satInc s.pwr.capOver else s.pwr.capOver
        rails := (List.range 25).foldl (fun m r =>
          SMap.modify {} m r fun x => { x with dir := s.railDir r x }) s.pwr.rails } } := by
  refine congrArg Host.Outcome.next ((State.powered_works hgood _).trans ?_)
  dsimp only
  rw [windowDir_decide]
  rfl

theorem exec_stretchStepTick : exec .stretchStepTick s = .next (({ s with pwr := { s.pwr with
    therm := ((List.range 100).filter stretchable).foldl (fun m i => SMap.set 0 m i (s.thermNext i)) s.pwr.therm
    capSteps := if s.pwr.capDir = .raise ∧ s.cappedIslands = [] then s.pwr.capSteps
      else stepDir s.pwr.capDir s.pwr.capSteps
    rails := (List.range 25).foldl (fun m r =>
      SMap.modify {} m r fun x => { x with steps := stepDir x.dir x.steps }) s.pwr.rails } } :
        State).followEpisodes true) := by
  have hidle : (s.pwr.capDir == .raise && s.cappedIslands.isEmpty) = true ↔
      s.pwr.capDir = .raise ∧ s.cappedIslands = [] := by simp
  refine congrArg Host.Outcome.next ((State.powered_works hgood _).trans ?_)
  simp only [hidle]

end

/-! Temperatures (R483). -/

theorem tempOf_some (t : BitVec 16) : tempOf (some t) = t.toInt := by
  have ht := t.isLt
  rw [tempOf, Option.getD_some, signedOf, BitVec.toInt_eq_toNat_cond]
  split_ifs <;> omega

/-- A sensor's reading is taken, and the hottest island named. -/
def State.sensorRead (s : State) (isl : Nat) (t : BitVec 16) : State :=
  let temps := SMap.set none s.pwr.temps isl (some t)
  let hot := hottest temps
  let k := if hot.length = 1 then hot.headD 0
    else hot.getD (Config.freePick s.free 3000 % hot.length) 0
  { s with
    free := s.free + 1
    pwr := { s.pwr with
      temps := temps, tmax := (SMap.get none temps k).getD 0, tmaxIsl := BitVec.ofNat 7 k } }

/-- A sensor is read with no trip held. -/
theorem State.untripped_works {s : State} (htrip : s.pwr.tripHold = false) {isl : Nat} {t : BitVec 16}
    (u v : State) : (if (s.sensorRead isl t).pwr.tripHold = true then u else v) = v :=
  if_neg (by simp [State.sensorRead, htrip])

/-- Below the trip, a temperature decides over the clock. -/
theorem belowTrip_works {t : BitVec 16} (htop : t.toInt < 920) (u v : State) :
    (if 920 ≤ tempOf (some t) then u else v) = v :=
  if_neg (by rw [tempOf_some]; omega)

section
variable {s : State} (hgood : s.pwr.input = .good) {isl : Fin 100} {t : BitVec 16}
include hgood

theorem exec_thermalSample_held (htrip : s.pwr.tripHold = true) :
    exec (.thermalSample isl t) s = .next (s.sensorRead isl t).endTrip :=
  congrArg Host.Outcome.next ((State.powered_works hgood _).trans (if_pos htrip))

variable (htrip : s.pwr.tripHold = false)
include htrip

theorem exec_thermalSample_trips (htop : 920 ≤ t.toInt) : exec (.thermalSample isl t) s =
    .next (({ s.sensorRead isl t with
      pwr := { (s.sensorRead isl t).pwr with tripHold := true } } : State).moduleReset 3 uPower) :=
  congrArg Host.Outcome.next ((State.powered_works hgood _).trans
    ((State.untripped_works htrip _ _).trans (if_pos (by rwa [tempOf_some]))))

variable (htop : t.toInt < 920)
include htop

theorem exec_thermalSample_stretches (hhot : 840 ≤ t.toInt) (hstretch : isl.val % 25 ≠ 24) :
    exec (.thermalSample isl t) s = .next (({ s.sensorRead isl t with
      pwr := { (s.sensorRead isl t).pwr with therm := SMap.set 0 s.pwr.therm isl 12 } } :
        State).followEpisodes false) :=
  congrArg Host.Outcome.next ((State.powered_works hgood _).trans ((State.untripped_works htrip _ _).trans
    ((belowTrip_works htop _ _).trans (if_pos (by simp [tempOf_some, stretchable, hhot, hstretch])))))

theorem exec_thermalSample_reads (hcool : t.toInt < 840 ∨ isl.val % 25 = 24) :
    exec (.thermalSample isl t) s = .next (s.sensorRead isl t) := by
  have hleaves : ¬ ((decide (840 ≤ tempOf (some t)) && stretchable isl) = true) := by
    simp only [tempOf_some, stretchable, Bool.and_eq_true, decide_eq_true_iff, bne_iff_ne]
    omega
  exact congrArg Host.Outcome.next ((State.powered_works hgood _).trans
    ((State.untripped_works htrip _ _).trans ((belowTrip_works htop _ _).trans (if_neg hleaves))))

end

/-! Clocks that stop, and wakes (R477 to R479). -/

section
variable {s : State} (hon : s.railIsOn 0 = true)
include hon

theorem exec_clusterIdleTimeout {cl : Fin 32} (hawake : s.awake (islandOfCluster cl) = true)
    (hquiet : s.clusterQuiet cl = true) (hopen : s.sealedIsland (islandOfCluster cl) = false) :
    exec (.clusterIdleTimeout cl) s = .next (s.updIsland (islandOfCluster cl) fun x => { x with
      state := 2, local_ := false }) :=
  congrArg Host.Outcome.next (if_pos (by simp [hon, hawake, hquiet, hopen]))

theorem exec_memoryIdleTimeout {u : Fin 40} (hawake : s.awake (memIsland u) = true)
    (hopen : s.sealedMemory u = false) : exec (.memoryIdleTimeout u) s =
      .next (s.updIsland (memIsland u) fun x => { x with state := 2 }) :=
  congrArg Host.Outcome.next (if_pos (by simp [hon, hawake, hopen]))

variable {t : Fin 4} {isl n : Nat} {rest : List (Nat × Nat)}
  (hhead : SMap.get [] s.clk.wakes t = (isl, n) :: rest)
include hhead

theorem exec_wakeSlot_goesOn (hmore : 1 < n) : exec (.wakeSlot t) s = .next { s with clk := { s.clk with
    wakes := SMap.set [] s.clk.wakes t ((isl, n - 1) :: rest) } } := by
  refine congrArg Host.Outcome.next ((if_neg (by simp [hon])).trans ?_)
  rw [hhead]
  simp only [if_pos hmore]

theorem exec_wakeSlot_last (hlast : n ≤ 1) : exec (.wakeSlot t) s = .next (({ s with clk := { s.clk with
    wakes := SMap.set [] s.clk.wakes t rest } } : State).updIsland isl fun x => { x with state := 0 }) := by
  refine congrArg Host.Outcome.next ((if_neg (by simp [hon])).trans ?_)
  rw [hhead]
  simp only [if_neg (Nat.not_lt.2 hlast)]

end

theorem exec_wakeRequest {s : State} {isl : Fin 100} (hstopped : (s.island isl).state = 2) :
    exec (.wakeRequest isl) s = .next (s.queueWake isl) :=
  congrArg Host.Outcome.next (if_pos (by simp [hstopped]))

/-- Settles O58: the power rows under power good, a sensor by its temperature, the clocks' rows by their
island. -/
theorem powerCapHeatAndStops : Obligations.PowerCapHeatAndStops := by
  unfold Obligations.PowerCapHeatAndStops
  refine ⟨fun s hgood => ⟨exec_powerWindow hgood, exec_stretchStepTick hgood, fun isl t => ?sensor⟩,
    fun s => ⟨fun hon => ⟨fun cl => exec_clusterIdleTimeout hon, fun u => exec_memoryIdleTimeout hon,
      fun t isl n rest hhead => ⟨exec_wakeSlot_goesOn hon hhead, exec_wakeSlot_last hon hhead⟩⟩,
    fun isl => exec_wakeRequest⟩⟩
  case sensor =>
    intro temps hot k read
    exact ⟨fun htrip => ⟨exec_thermalSample_trips hgood htrip, fun hhot htop hstretch =>
        exec_thermalSample_stretches hgood htrip htop hhot hstretch, fun hcool =>
        exec_thermalSample_reads hgood htrip (by omega) (by omega)⟩, exec_thermalSample_held hgood⟩

end Sys2Proof.Machine
end
